-- ==== Sys2Proof/Config.lean ====
section
/-! DEFINITION. What the part fixes once: the capacities of Table 0-2, the saturation limits of Table 0-7
and R63, and the free values, which the spec leaves open. -/

namespace Sys2Proof.Config

/-- Anchor record slots (R1). -/
abbrev slotCount : Nat := 512
/-- Rows of the wall (R9). -/
abbrev rowCount : Nat := 12
/-- Bays of a row (R9). -/
abbrev bayCount : Nat := 400
/-- The highest generation (R4). -/
abbrev maxGeneration : Nat := 3
/-- Entries of the class table (R27). -/
abbrev classCount : Nat := 16
/-- Work contexts (R46). -/
abbrev contextCount : Nat := 12
/-- Stations of the works bus (R161). -/
abbrev stationCount : Nat := 16
/-- Entries of the attention list (R135). -/
abbrev attentionSize : Nat := 64
/-- The station number a stamp holds for a change the part makes of itself (R5). -/
abbrev partStation : Nat := 31
/-- The slot revision of a slot that has never held a record (R1). -/
abbrev freshRevision : Nat := 65535
/-- Revisions count modulo 65,536 (R5). -/
abbrev revisionModulus : Nat := 65536
/-- The greatest 32-bit count: works time, totals, payouts and volumes saturate there (R63, R72, R73, R78). -/
abbrev max32 : Nat := 4294967295
/-- The greatest load, in 0.1 kN (Table 0-7). -/
abbrev maxLoad : Nat := 30000
/-- The greatest pressure, in kPa (Table 0-7). -/
abbrev maxPressure : Nat := 100000
/-- The greatest stroke, in 0.01 mm (Table 0-7). -/
abbrev maxStroke : Nat := 30000
/-- The key timer's end, in real milliseconds (R150). -/
abbrev keyTimeMs : Nat := 3000
/-- FETCHes to station 0 in one scan (R168). -/
abbrev fetchLimit : Nat := 4
/-- Bytes of one image block (R172). -/
abbrev blockSize : Nat := 256
/-- Blocks of the header (R172). -/
abbrev headerBlocks : Nat := 16
/-- Blocks the part uses (R172). -/
abbrev usedBlocks : Nat := 528
/-- Bytes of the whole image memory (Table 0-2). -/
abbrev imageBytes : Nat := 262144

/-- A value the spec leaves open, one for each use: nothing in the model says what it is (assumption
log 3). State holds the counter it is applied to. -/
opaque freeValue : Nat → Nat

end Sys2Proof.Config
end

