-- ==== Sys2Proof/Word.lean ====
section
/-! DEFINITION. The bytes that frames, answers and image blocks are made of (R160, R172, R182). Every
other quantity of the part is a whole number in the units of Table 0-7 and is a Nat, or an Int where the
spec says signed. -/

namespace Sys2Proof

/-- One byte of a frame or of an image block. -/
abbrev Byte := BitVec 8

/-- The 16-bit check of frames and image blocks (R160, R172). -/
abbrev Check := BitVec 16

end Sys2Proof
end

