-- ==== Sys2Proof/Machine/Table.lean ====
section
/-! DEFINITION. Sparse tables keyed by number, in one canonical form: keys strictly rising. The slots, the map, the
classes, the contexts, the calibrations, the channels and the image memory are kept in it. -/

namespace Sys2Proof.Machine

/-- A sparse table: pairs of a key and what stands there. An absent key is the empty place. -/
abbrev Table (α : Type) := List (Nat × α)

/-- What stands at key `n`. -/
def Table.get? {α : Type} : Table α → Nat → Option α
  | [], _ => none
  | (k, v) :: t, n => if k = n then some v else Table.get? t n

/-- The table with `v` at key `n`. -/
def Table.put {α : Type} : Table α → Nat → α → Table α
  | [], n, v => [(n, v)]
  | (k, w) :: t, n, v =>
    if n < k then (n, v) :: (k, w) :: t
    else if n = k then (n, v) :: t
    else (k, w) :: Table.put t n v

/-- The table with nothing at key `n`. -/
def Table.erase {α : Type} (t : Table α) (n : Nat) : Table α := t.filter (fun p => p.1 ≠ n)

/-- The table with `v?` at key `n`: an absent value empties the place. -/
def Table.set {α : Type} (t : Table α) (n : Nat) (v? : Option α) : Table α :=
  match v? with
  | some v => t.put n v
  | none => t.erase n

/-- The table with `f` applied to every value. -/
def Table.mapValues {α : Type} (t : Table α) (f : α → α) : Table α := t.map (fun p => (p.1, f p.2))

/-- The canonical form: keys strictly rising. -/
abbrev Table.wf {α : Type} (t : Table α) : Prop := t.Pairwise (fun a b => a.1 < b.1)

/-- The image memory's bytes, as the host's cells (R172): addresses strictly rising, no cell holding what an
unlisted address reads as. -/
abbrev Memory := List Host.Cell

/-- What a byte of the image memory that nothing has written reads as. DESIGN CHOICE, unsafe (assumption log 2):
the spec gives no content of a new memory; FFh is an erased cell. -/
def Memory.unlisted : Byte := 255

/-- One byte of the image memory. -/
def Memory.read (m : Memory) (a : Nat) : Byte := (Table.get? m a).getD Memory.unlisted

/-- Write one byte: the value an unlisted address reads as removes the cell. -/
def Memory.write (m : Memory) (a : Nat) (b : Byte) : Memory :=
  Table.set m a (if b = Memory.unlisted then none else some b)

/-- Write bytes from address `a` upward. -/
def Memory.writeBytes (m : Memory) (a : Nat) : List Byte → Memory
  | [] => m
  | b :: bs => Memory.writeBytes (Memory.write m a b) (a + 1) bs

/-- Read `n` bytes from address `a` upward. -/
def Memory.readBytes (m : Memory) (a : Nat) : Nat → List Byte
  | 0 => []
  | n + 1 => Memory.read m a :: Memory.readBytes m (a + 1) n

/-- The canonical form of the image memory. -/
abbrev Memory.wf (m : Memory) : Prop := Table.wf m ∧ ∀ c ∈ m, c.2 ≠ Memory.unlisted

end Sys2Proof.Machine
end

