-- ==== Sys2Proof/Syntax.lean ====
section
/-! DEFINITION. The commands of the part: one constructor of Instr for every row of the opcode table, with
the operands its rule gives, and the names those operands use. A field that arrives on the wire as a number
stays a number here (a kind code, a row, a slot may be out of range: R169 refuses it), a field the request's
layout can only spell one of a few ways is an inductive type. -/

namespace Sys2Proof

/-- The two redundant lines of the works bus (R155). -/
inductive LineId where
  | a | b
deriving DecidableEq, Repr

/-- What a field contact is at its pin (R144). -/
inductive Contact where
  | opened | closed
deriving DecidableEq, Repr

/-- The record states of Table 1-4, in the table's order. -/
inductive RecState where
  | planned | bored | inserting | inserted | grouting | curing | ready | stressing
  | locked | destressing | failed | held | retired | suspect
deriving DecidableEq, Repr

/-- The context kinds of Table 3-2. -/
inductive CtxKind where
  | insert | grout | stress | destress
deriving DecidableEq, Repr

/-- The held reasons of Table 1-2. -/
inductive HeldReason where
  | aborted | lost | restart | power | operator | burst | groutLoss | groutShort
  | insertLength | overload | overrange | noLiftoff
deriving DecidableEq, Repr

/-- The end reasons of a grout result (Table 1-1). -/
inductive EndReason where
  | refusal | volumeCap | operator | accepted
deriving DecidableEq, Repr

/-- The retire reasons of Table 1-1. -/
inductive RetireReason where
  | destressed | abandoned | failed | supervisor
deriving DecidableEq, Repr

/-- The creep windows a verdict used (Table 1-1). -/
inductive Windows where
  | a | aAndB
deriving DecidableEq, Repr

/-- The verdicts of Table 1-1. -/
inductive Verdict where
  | pass | creepFail | lengthFail | lockoffFail
deriving DecidableEq, Repr

/-- The enrolled kinds of R161. -/
inductive StationKind where
  | none | supervisor | winch | grout | jack | monitor
deriving DecidableEq, Repr

/-- The condition kinds of Table 7-1, in priority order. -/
inductive Cond where
  | overload | burst | siteStop | overrange | groutLoss | loadDrift | stationLost
  | imageSuspect | imageWrite | creepFail | lengthFail | lockoffFail | groutShort
  | stationFault | countSetback | overpull | insertLength | noLiftoff | lineFault | lineNoise
deriving DecidableEq, Repr

/-- The subjects of R133: what a condition is raised on. -/
inductive Subject where
  | record (slot : Nat)
  | station (n : Nat)
  | line (l : LineId)
  | site
deriving DecidableEq, Repr

/-- The result codes of Table 9-1, in the table's order. -/
inductive Result where
  | done | noRecord | wrongState | stale | occupied | full | conflict | notReady
  | notPermitted | badValue | reliedOn | stationAbsent | stationBound | wrongKind
  | capacity | limit | lastLine | siteStopped | inUse
deriving DecidableEq, Repr

/-- The run states of Table 3-6. -/
inductive RunState where
  | running | suspended | stopped
deriving DecidableEq, Repr

/-- The orders of Table 11-4; PRESSURE carries its target in kPa. -/
inductive Order where
  | run | hold | pump | stop | idle
  | pressure (target : Nat)
  | seat | lift | free | read
deriving DecidableEq, Repr

/-- The line states of R155. -/
inductive LineState where
  | active | quiet | disabled | testing
deriving DecidableEq, Repr

/-- The errors of R160. -/
inductive FrameError where
  | timeout | check | kind
deriving DecidableEq, Repr

/-- The start-up modes of Table 10-2. -/
inductive StartMode where
  | fresh | restore | commission
deriving DecidableEq, Repr

/-- Functions of a field input (Table 8-1). -/
inductive InputFunction where
  | none | stop | permit | restartKey
deriving DecidableEq, Repr

/-- The head of an ASK as the BMU hands it to the TBC: the sender, the line it came on and the
further-request flag (R168, section 11.3). -/
structure Ask where
  station : Nat
  line : LineId
  further : Bool
deriving DecidableEq, Repr

/-- How FIND names its record (R11). -/
inductive Target where
  | slot (n : Nat)
  | position (row bay : Nat)
deriving DecidableEq, Repr

/-- What AMEND asks of one length override (R17). -/
inductive OverrideAction where
  | keep | set (mm : Nat) | remove
deriving DecidableEq, Repr

/-- One point of a jack calibration table (R89). -/
structure CalPoint where
  pressure : Nat
  load : Nat
deriving DecidableEq, Repr

/-- The first part of a CLASS_WRITE with SET: Table 2-1 from DWL to creep limit B, a field with a default
left out as none (R28, R183). -/
structure ClassPart1 where
  dwl : Nat
  datum : Nat
  stages : Option (List Nat)
  test : Nat
  lockoff : Nat
  lockWindow : Nat
  tolerance : Nat
  stageHold : Nat
  tA0 : Option Nat
  tA1 : Option Nat
  limitA : Option Nat
  tB0 : Option Nat
  tB1 : Option Nat
  limitB : Option Nat
deriving DecidableEq, Repr

/-- The second part of a CLASS_WRITE: Table 2-1 from strand count to destress step hold (R28, R183). -/
structure ClassPart2 where
  strands : Nat
  area : Nat
  modulus : Nat
  freeLen : Nat
  bondLen : Nat
  jacking : Nat
  lower : Option Nat
  upper : Option Nat
  drawIn : Nat
  insTol : Nat
  maxPull : Nat
  theoVol : Nat
  volCap : Nat
  refPress : Nat
  refTime : Nat
  burst : Nat
  cure : Nat
  destStep : Nat
  destHold : Nat
deriving DecidableEq, Repr

/-- A CLASS_WRITE that is whole when it arrives (UNSET) or completes a staged part (R30, R183). -/
inductive ClassForm where
  | unset
  | part2 (f : ClassPart2)
deriving DecidableEq, Repr

/-- The four settings of one field input as SITE_WRITE carries them, in their wire codes (Table 8-1). -/
structure InputCodes where
  enable : Nat
  polarity : Nat
  filter : Nat
  function : Nat
deriving DecidableEq, Repr

/-- The twenty-eight items a SITE_WRITE may carry (R34); an item it does not carry is none. The levels
stand in ascending priority over the seventeen kinds with a programmable level. -/
structure SiteItems where
  span : Option Nat
  levels : Vector (Option Nat) 17
  alarm : Option Nat
  drift : Option Nat
  inputs : Vector (Option InputCodes) 4
  scanMin : Option Nat
  silence : Option Nat
  suspend : Option Nat
  scale : Option Nat
deriving DecidableEq, Repr

/-- The transmitter inhibits of a station, one flag for each line (R161). -/
structure Inhibits where
  a : Bool
  b : Bool
deriving DecidableEq, Repr

/-- Why an ASK is refused BAD_VALUE without being any request of the table (R169): the code is unknown, the
bytes do not fit the request's fields, or a field that selects between forms holds no form's code. `part` is the part number
that an ASK in parts brings, where it brings one (R183). -/
inductive AskDefect where
  | unknownCode
  | misfit (part : Option Nat)
  | selector (part : Option Nat)
deriving DecidableEq, Repr

/-- The telemetry of a REPLY by declared kind (Table 11-5). -/
inductive Telemetry where
  | supervisor
  | winch (count tension : Nat)
  | grout (count pressure : Nat)
  | jack (pressure stroke : Nat) (seated lifted restroking released : Bool)
  | monitor (channels : List (Nat × Bool))
deriving DecidableEq, Repr

/-- A REPLY: its flags and its telemetry (Table 11-5). -/
structure Reply where
  srq : Bool
  busy : Bool
  fault : Bool
  data : Telemetry
deriving DecidableEq, Repr

/-- What the image memory holds of a block whose write was not acknowledged, or was under way when power was
lost (R175): the memory decides it, so the command says it. -/
inductive Remnant where
  | unchanged
  | whole
  | mixed (bytes : List Byte)
deriving DecidableEq, Repr

/-- The commands of the part, one for each row of the opcode table. A request is an ASK taken by the TBC
(R168, R169); the rest are the events of the bus, the clock, the pins and the image memory. -/
inductive Instr where
  | find (h : Ask) (target : Target) (view : Nat)
  | list (h : Ask) (states : List Nat) (first last : Nat) (hasCond : Bool) (start : Nat)
  | create (h : Ask) (row bay cls : Nat) (freeOv bondOv : Option Nat)
  | amend (h : Ask) (slot rev : Nat) (cls : Option Nat) (freeOv bondOv : OverrideAction)
  | bored (h : Ask) (slot rev : Nat)
  | retire (h : Ask) (slot rev reason : Nat)
  | replace (h : Ask) (slot rev : Nat) (cls : Option Nat)
  | purge (h : Ask) (slot : Nat)
  | certify (h : Ask) (slot rev target cls : Nat) (freeOv bondOv cureEnd lockoff reason : Option Nat)
  | start (h : Ask) (kind slot station rev : Nat)
  | begin (h : Ask) (row bay : Nat)
  | abort (h : Ask) (slot : Nat)
  | resume (h : Ask) (slot rev : Nat) (station : Option Nat)
  | closeWithdraw (h : Ask) (slot rev : Nat)
  | closeAccept (h : Ask) (slot rev : Nat)
  | closeRestart (h : Ask) (slot rev : Nat)
  | closeRetest (h : Ask) (slot rev : Nat)
  | closeAbandon (h : Ask) (slot rev : Nat)
  | endWork (h : Ask)
  | restroke (h : Ask)
  | classWrite (h : Ask) (cls : Nat) (form : ClassForm)
  | classWritePart1 (h : Ask) (cls : Nat) (part : ClassPart1)
  | classRead (h : Ask) (cls part : Nat)
  | siteWrite (h : Ask) (items : SiteItems)
  | siteRead (h : Ask)
  | digQuery (h : Ask)
  | digSet (h : Ask) (row : Nat)
  | relieveSet (h : Ask) (row : Nat)
  | relieveClear (h : Ask) (row : Nat)
  | calWrite (h : Ask) (station : Nat) (points : Option (List CalPoint))
  | calRead (h : Ask) (part station : Nat) (probePressure probeLoad : Option Nat)
  | bind (h : Ask) (slot rev station channel : Nat)
  | unbind (h : Ask) (slot rev : Nat)
  | clear (h : Ask) (subjectKind identity cond : Nat)
  | attentionRead (h : Ask) (start : Nat) (reset : Bool)
  | timeSet (h : Ask) (time : Nat)
  | release (h : Ask)
  | inputRead (h : Ask)
  | restart (h : Ask)
  | stationWrite (h : Ask) (station : Nat) (kind retry : Option Nat) (inhibits : Option Inhibits) (param : Option Nat)
  | stationRead (h : Ask) (station : Nat)
  | lineWrite (h : Ask) (line : Nat) (state timeout gap : Option Nat)
  | lineWriteTest (h : Ask) (line : Nat) (pattern : Vector Byte 16) (count : Nat)
  | lineRead (h : Ask) (line : Nat)
  | unknownRequest (h : Ask) (code : Nat) (defect : AskDefect)
  | scanStart
  | call
  | replyReceived (station : Nat) (line : LineId) (reply : Reply)
  | replyWindowTimeout
  | badFrame (error : FrameError)
  | fetch
  | answerEnd
  | noiseReception (line : LineId)
  | allstop (line : LineId)
  | testPatternCopy (line : LineId) (received : List Byte)
  | realSecond
  | suspendLimitReached (ctx : Nat)
  | phaseTimerExpiry (ctx : Nat)
  | refusalCompletion (ctx : Nat)
  | cureExpiry (slot : Nat)
  | keyTimerExpiry
  | filterSample (input : Fin 4)
  | pinChange (input : Fin 4) (level : Contact)
  | rstAssert
  | rstNegate (md1 md0 : Bool)
  | powerOn (md1 md0 : Bool) (remnant : Remnant)
  | headerRestored (undelivered : List Nat)
  | restoreComplete (undelivered : List Nat)
  | writerTakeItem
  | blockWriteAck
  | blockWriteTimeout (remnant : Remnant)
  | writerWaitEnd
deriving DecidableEq, Repr

end Sys2Proof
end

