-- ==== Sys2Proof/Machine/State.lean ====
section
/-! DEFINITION. The whole state of the part as plain data, block by block (Table 0-1), the two reasons a step
can stop, and State.reset: the part right after a FRESH power-on (R176). -/

namespace Sys2Proof.Machine

/-! ## Records (chapter 1) -/

/-- A stamp: the works time of a change and the station it was made for (R5). -/
structure Stamp where
  time : Nat
  station : Nat
deriving DecidableEq, Repr

/-- The grout result of Table 1-1; end reason and end time are absent where Table 4-3 says so. -/
structure GroutResult where
  volume : Nat
  peak : Nat
  reason : Option EndReason
  endTime : Option Nat
deriving DecidableEq, Repr

/-- The stress result of Table 1-1, with the parts Table 6-4 may leave absent as options. -/
structure StressResult where
  datumTarget : Nat
  testTarget : Nat
  residualTarget : Nat
  windows : Windows
  creepA : Int
  creepB : Option Int
  freeLength : Option Nat
  jackLoad : Option Nat
  drawIn : Option Nat
  residual : Option Nat
  makeups : Nat
  restrokes : Nat
  verdict : Verdict
deriving DecidableEq, Repr

/-- A monitor binding (Table 1-1). -/
structure Binding where
  station : Nat
  channel : Nat
deriving DecidableEq, Repr

/-- A last monitored load (Table 1-1). -/
structure MonitoredLoad where
  load : Nat
  time : Nat
deriving DecidableEq, Repr

/-- An anchor record: the fields of Table 1-1 but for the revision, which the slot holds (R1). The condition
set is kept in ascending priority without repeats, so that equal sets are equal lists. -/
structure Record where
  row : Nat
  bay : Nat
  gen : Nat
  cls : Nat
  state : RecState
  stamp : Stamp
  freeOv : Option Nat
  bondOv : Option Nat
  context : Option Nat
  heldKind : Option CtxKind
  heldReason : Option HeldReason
  insertion : Option Nat
  grout : Option GroutResult
  cureEnd : Option Nat
  stress : Option StressResult
  retests : Nat
  lockoffLoad : Option Nat
  liftoffLoad : Option Nat
  binding : Option Binding
  monitored : Option MonitoredLoad
  conds : List Cond
  replaces : Option Nat
  replacedBy : Option Nat
  retireReason : Option RetireReason
deriving DecidableEq, Repr

/-- A slot of the Anchor Table: its slot revision, and its record unless it is FREE (R1). -/
structure Slot where
  rev : Nat
  rec? : Option Record
deriving DecidableEq, Repr

/-- A slot that has never held a record (R1). -/
def Slot.fresh : Slot := { rev := Config.freshRevision, rec? := none }

/-! ## Classes and site settings (chapter 2) -/

/-- A SET entry of the class table: the fields of Table 2-1. -/
structure ClassEntry where
  dwl : Nat
  datum : Nat
  stages : List Nat
  test : Nat
  lockoff : Nat
  lockWindow : Nat
  tolerance : Nat
  stageHold : Nat
  tA0 : Nat
  tA1 : Nat
  limitA : Nat
  tB0 : Nat
  tB1 : Nat
  limitB : Nat
  strands : Nat
  area : Nat
  modulus : Nat
  freeLen : Nat
  bondLen : Nat
  jacking : Nat
  lower : Nat
  upper : Nat
  drawIn : Nat
  insTol : Nat
  maxPull : Nat
  theoVol : Nat
  volCap : Nat
  refPress : Nat
  refTime : Nat
  burst : Nat
  cure : Nat
  destStep : Nat
  destHold : Nat
deriving DecidableEq, Repr

/-- The four settings of one field input (Table 8-1); polarity is the level that asserts. -/
structure InputSettings where
  enabled : Bool
  asserts : Contact
  filter : Nat
  function : InputFunction
deriving DecidableEq, Repr

/-- The site settings of Table 2-2. -/
structure SiteSettings where
  span : Nat
  digRow : Nat
  relieved : Vector Bool 12
  levels : Vector Nat 17
  alarm : Nat
  drift : Nat
  inputs : Vector InputSettings 4
  scanMin : Nat
  silence : Nat
  suspend : Nat
deriving DecidableEq, Repr

/-- The default input settings of Table 8-1. -/
def InputSettings.fi0 : InputSettings := { enabled := true, asserts := .opened, filter := 2, function := .stop }
/-- The default settings of FI1 to FI3 (Table 8-1). -/
def InputSettings.other : InputSettings := { enabled := false, asserts := .opened, filter := 0, function := .none }

/-- The defaults of Table 2-2, Table 7-1 and Table 8-1. -/
def SiteSettings.default : SiteSettings where
  span := 2
  digRow := 0
  relieved := Vector.replicate 12 false
  levels := #v[2, 2, 2, 2, 2, 2, 1, 1, 1, 1, 1, 1, 1, 1, 1, 1, 1]
  alarm := 3
  drift := 100
  inputs := #v[InputSettings.fi0, InputSettings.other, InputSettings.other, InputSettings.other]
  scanMin := 100
  silence := 5
  suspend := 120

/-- What the Table Controller keeps: the Anchor Table (a slot not listed is as fresh), the Position Map by position
number, the SET class entries, the staged first part of a CLASS_WRITE, and the site settings. -/
structure Tbc where
  slots : Table Slot
  map : Table Nat
  classes : Table ClassEntry
  staged : Option (Nat × ClassPart1)
  site : SiteSettings
deriving DecidableEq, Repr

/-! ## Work contexts (chapters 3, 4 and 6) -/

/-- The progress of an INSERT context (Table 3-1, R69, R70, R73). -/
structure InsertProg where
  baseline : Nat
  total : Nat
  scale : Nat
  carried : Nat
  order : Order
deriving DecidableEq, Repr

/-- The progress of a GROUT context (Table 3-1, R62, R70, R78). `due` says that the refusal timer has reached the refusal
time in RUNNING and the completion is to be taken (R82); one reached in STOPPED waits for a used reply and sets none. -/
structure GroutProg where
  baseline : Nat
  total : Nat
  scale : Nat
  carried : Nat
  peak : Nat
  refTimer : Nat
  counting : Bool
  due : Bool
deriving DecidableEq, Repr

/-- The phases of Table 6-2. -/
inductive JackPhase where
  | datum | stage | test | holdA | holdB | unload | verdict | lockoff | seating
  | liftoff | step | free
deriving DecidableEq, Repr

/-- The restroke register of R97. -/
inductive Restroke where
  | closed | opened | underWay
deriving DecidableEq, Repr

/-- A reading of the test hold, or a closing reading: an extension and a load (R115, R117). -/
structure Reading where
  ext : Int
  load : Nat
deriving DecidableEq, Repr

/-- The last used reply of a jack, as the STU took it: its clamped pressure with the load formed from it, its clamped
stroke and its extension (R93, R97, R107, R112, R122). -/
structure LastReply where
  pressure : Nat
  load : Nat
  stroke : Nat
  ext : Int
deriving DecidableEq, Repr

/-- The progress of a STRESS or DESTRESS context (Table 6-2) with its timers (R61). `order` is the order the
phase calls for, which a fault hold overrides (R111); `timer` is absent while the phase timer is stopped. -/
structure JackProg where
  phase : JackPhase
  index : Nat
  holding : Bool
  order : Order
  faultHold : Bool
  timer : Option Nat
  elapsed : Nat
  counting : Bool
  atA0 : Option Reading
  atA1 : Option Reading
  atB0 : Option Reading
  atB1 : Option Reading
  creepA : Option Int
  creepB : Option Int
  closing : Option Reading
  residual : Option Reading
  beforeSeat : Option (Nat × Nat)
  afterSeat : Option Nat
  freeLength : Option Nat
  makeups : Nat
  restrokes : Nat
  acc : Int
  origin : Nat
  register : Restroke
  preLoad : Nat
  openStroke : Nat
  liftoff : Option Nat
  steps : List (Nat × Nat)
  pendingAdv : Bool
  last : Option LastReply
deriving DecidableEq, Repr

/-- The kind-specific part of a context; its constructor is the context kind of R46. -/
inductive Progress where
  | insert (p : InsertProg)
  | grout (p : GroutProg)
  | stress (p : JackProg)
  | destress (p : JackProg)
deriving DecidableEq, Repr

/-- A bound work context (Table 3-1). `limitDue` says that an addition of suspend time has reached the suspend
limit (R59). -/
structure Context where
  slot : Nat
  station : Nat
  run : RunState
  suspend : Nat
  limitDue : Bool
  prog : Progress
deriving DecidableEq, Repr

/-- A parting order with its end condition, a closed range of taken jack pressures (R54, R120). -/
structure Parting where
  order : Order
  until? : Option (Nat × Nat)
deriving DecidableEq, Repr

/-- The Context Pool: the bound contexts by number, a FREE one not listed, and the parting orders by station. -/
structure Cxp where
  contexts : Table Context
  parting : Table Parting
deriving DecidableEq, Repr

/-! ## Attention list (chapter 7) -/

/-- An entry of the attention list (R135). -/
structure Entry where
  subject : Subject
  cond : Cond
  level : Nat
  time : Nat
deriving DecidableEq, Repr

/-- The Attention Unit: the list in order, the overflow count and the alarm output (R135, R141). -/
structure Atu where
  entries : List Entry
  overflow : Nat
  alm : Bool
deriving DecidableEq, Repr

/-! ## Works clock (chapter 3) -/

/-- The clock state of R63. -/
inductive ClockState where
  | running | held
deriving DecidableEq, Repr

/-- The Works Clock (R63). -/
structure Wck where
  time : Nat
  clock : ClockState
  scale : Nat
deriving DecidableEq, Repr

/-! ## Works bus (chapters 9 and 11) -/

/-- One quantity of an answer, by its width (Table 11-1). -/
inductive Field where
  | u8 (n : Nat)
  | u16 (n : Nat)
  | u32 (n : Nat)
  | i32 (z : Int)
deriving DecidableEq, Repr

/-- An ANSWER: the request code it answers, the result and the payload of the request's rule (section 11.3). -/
structure Answer where
  req : Nat
  result : Result
  body : List Field
deriving DecidableEq, Repr

/-- What a CALL carries beside the permissions (Table 11-3): the attention summary, or an order. -/
inductive CallBody where
  | summary (highest entries overflow : Nat)
  | order (o : Order)
deriving DecidableEq, Repr

/-- A frame of the part (Table 11-2). In a CALL, `permA` and `permB` are the transmit permissions. -/
inductive Frame where
  | call (station : Nat) (permA permB : Bool) (body : CallBody)
  | fetch (station : Nat)
  | answer (station : Nat) (a : Answer)
  | time (t : Nat) (clock : ClockState)
  | allstop
deriving DecidableEq, Repr

/-- What the part's transmitter on a line sends: a frame, or a copy of the test pattern (R158). -/
inductive Sent where
  | frame (l : LineId) (f : Frame)
  | pattern (l : LineId) (bytes : Vector Byte 16)
deriving DecidableEq, Repr

/-- How far a line test has come (R158). -/
inductive TestPhase where
  | answering | sending | completed | cutShort
deriving DecidableEq, Repr

/-- A test result with the pattern being sent (R155, R158). -/
structure LineTest where
  asked : Nat
  sent : Nat
  mismatches : Nat
  phase : TestPhase
  pattern : Vector Byte 16
deriving DecidableEq, Repr

/-- The items of one line: those of R155, its marks, the tallies of the scan under way and of the last completed
scan (R159, R163), and whether an ALLSTOP is still to go out on it (R147). The timeout is in steps of 0.5 ms. -/
structure Line where
  state : LineState
  timeout : Nat
  gap : Nat
  noise : Nat
  test : Option LineTest
  faultMark : Bool
  noiseMark : Bool
  tally : Nat
  attempts : Nat
  successes : Nat
  lastTally : Nat
  lastAttempts : Nat
  lastSuccesses : Nat
  allstopDue : Bool
deriving DecidableEq, Repr

/-- A line after power-on (R155). -/
def Line.powered (st : LineState) : Line where
  state := st
  timeout := 3
  gap := 1
  noise := 0
  test := none
  faultMark := false
  noiseMark := false
  tally := 0
  attempts := 0
  successes := 0
  lastTally := 0
  lastAttempts := 0
  lastSuccesses := 0
  allstopDue := false

/-- The state of a station-table entry (R161). -/
inductive StationState where
  | unused | seeking | present
deriving DecidableEq, Repr

/-- An entry of the station table (R161). -/
structure Station where
  kind : StationKind
  state : StationState
  retry : Nat
  inhibits : Inhibits
  preferred : LineId
  failures : Nat
  lastError : Option FrameError
  ctx : Option Nat
  param : Option Nat
  telemetry : Option Telemetry
  faultMark : Bool
deriving DecidableEq, Repr

/-- An entry after power-on with the given enrolment (R161). -/
def Station.powered (kind : StationKind) (retry : Nat) (inhibits : Inhibits) (param : Option Nat) : Station where
  kind := kind
  state := if kind = .none then .unused else .seeking
  retry := retry
  inhibits := inhibits
  preferred := .a
  failures := 0
  lastError := none
  ctx := none
  param := param
  telemetry := none
  faultMark := false

/-- A station that is not enrolled. DESIGN CHOICE (assumption log 4): the spec gives stations 1 to 15 no retry
count and no inhibits before their first STATION_WRITE; the model takes 0 and clear. -/
def Station.unenrolled : Station := Station.powered .none 0 { a := false, b := false } none

/-- Station 0 after a FRESH or COMMISSION power-on (R161). DESIGN CHOICE (assumption log 4): its inhibits, which R161 does not
give, are clear. -/
def Station.supervisor : Station := Station.powered .supervisor 1 { a := false, b := false } none

/-- What follows the end of an ANSWER beside the turn (R151, R158), or waits for it: the ALLSTOP of the site stop that its
request began (R168). -/
inductive AfterAnswer where
  | nothing | restart | test (l : LineId) | allstop
deriving DecidableEq, Repr

/-- The exchange in progress (R160, R164): none, an open reply window of a CALL or a FETCH, or an ANSWER being
sent. -/
inductive Exchange where
  | idle
  | call (station : Nat) (l : LineId)
  | fetch (station : Nat) (l : LineId)
  | answer (h : Ask) (a : Answer) (after : AfterAnswer)
deriving DecidableEq, Repr

/-- The turn under way (R165, R168): the station, the attempts made, the retry count as the call began (R162), the line
last tried, the FETCHes sent, and the line of the FETCH that is due, if one is. With none due and no exchange, a CALL is
due. -/
structure Turn where
  station : Nat
  tries : Nat
  retry : Nat
  lastLine : Option LineId
  fetches : Nat
  fetchLine : Option LineId
deriving DecidableEq, Repr

/-- The Bus Master. `turn` is present exactly while a scan runs; `lastTime` is what the last TIME carried (R164);
`tx` is what the transmitters sent in the last event that sent anything. -/
structure Bmu where
  lineA : Line
  lineB : Line
  stations : Vector Station 16
  turn : Option Turn
  exchange : Exchange
  lastTime : Option (Nat × ClockState)
  tx : List Sent
deriving DecidableEq, Repr

/-! ## Field inputs (chapter 8) -/

/-- One input: the pin's present level, the accepted level and the filter state (R144). -/
structure Input where
  pin : Contact
  accepted : Contact
  pendingChange : Bool
deriving DecidableEq, Repr

/-- The stop origin of R146. -/
structure StopOrigin where
  input : Nat
  time : Nat
deriving DecidableEq, Repr

/-- The key state of R150; TIMING holds the key timer in real milliseconds. -/
inductive KeyState where
  | idle
  | timing (ms : Nat)
  | spent
deriving DecidableEq, Repr

/-- The Input Filter Unit. The site state is STOPPED exactly while a stop origin is held, and the SITE_STOP
mark stands exactly then (R134, R146). -/
structure Ifu where
  inputs : Vector Input 4
  stop : Option StopOrigin
  key : KeyState
deriving DecidableEq, Repr

/-! ## Image store (chapter 10) -/

/-- An item of the write queue (section 10.2). -/
inductive Item where
  | header
  | slot (n : Nat)
deriving DecidableEq, Repr

/-- The writer of R174; WRITING holds the item, the block being written and the snapshot's blocks from that one on. -/
inductive Writer where
  | idle
  | writing (item : Item) (block : Nat) (blocks : List (List Byte))
  | waiting
deriving DecidableEq, Repr

/-- The Image Store Interface and the image memory behind it. `noted` holds the subjects failed attempts
have named (R175), `damaged` the blocks a failed attempt left part-written, and the two flags are the site's
marks that the ISI holds (R134). -/
structure Isi where
  queue : List Item
  writer : Writer
  noted : List (Item × Subject)
  image : Memory
  damaged : List Nat
  suspectMark : Bool
  writeMark : Bool
deriving DecidableEq, Repr

/-! ## Start-up (chapter 10) -/

/-- How far the part's start-up has come: a power-on start held by RST (R151), a restore before and after
its header is read (R177), with the header's works time where its check passed, or running. -/
inductive Phase where
  | awaitRst
  | readHeader
  | readRecords (headerTime : Option Nat)
  | up
deriving DecidableEq, Repr

/-- The start-up mode of the last power-on (R176), the start-up phase, and the RST pin. -/
structure Sys where
  mode : StartMode
  phase : Phase
  rst : Bool
deriving DecidableEq, Repr

/-- The state of the part. `freeNext` counts the free values used (the model's own), `pending` holds the commands
that wait, first in first out. -/
structure State where
  tbc : Tbc
  cxp : Cxp
  cals : Table (List CalPoint)
  channels : Table Nat
  atu : Atu
  wck : Wck
  bmu : Bmu
  ifu : Ifu
  isi : Isi
  sys : Sys
  freeNext : Nat
  pending : List Instr
deriving DecidableEq, Repr

/-- Reasons for a step to end in a fault. There are none: the spec gives the part no state in which it stops, and no
command names an address outside the part's memories (assumption log 5). -/
inductive Fault where
deriving DecidableEq, Repr

/-- Reasons for a step to be refused. -/
inductive Refusal where
  /-- Raised by the dispatch for a command that has no meaning yet; safe, since nothing can be proved of the state
  after it. No arm of this model raises it. -/
  | notModelled (mnemonic : String)
deriving DecidableEq, Repr

/-- The write queue a FRESH or COMMISSION start-up hands the writer (R173): the header, then every slot. -/
def Isi.freshQueue : List Item := Item.header :: (List.range Config.slotCount).map Item.slot

/-- The part right after a FRESH power-on with every contact closed (R1, R9, R27, R33, R46, R63, R89, R128, R134,
R135, R143, R152, R155, R161, R173, R176, R183). DESIGN CHOICE, unsafe (assumption log 1): the mode is FRESH, the
contacts are closed, the image memory lists nothing. -/
def State.reset : State where
  tbc := { slots := [], map := [], classes := [], staged := none, site := SiteSettings.default }
  cxp := { contexts := [], parting := [] }
  cals := []
  channels := []
  atu := { entries := [], overflow := 0, alm := false }
  wck := { time := 0, clock := .running, scale := 1 }
  bmu := {
    lineA := Line.powered .active
    lineB := Line.powered .active
    stations := Vector.ofFn (fun n => if n.val = 0 then Station.supervisor else Station.unenrolled)
    turn := none
    exchange := .idle
    lastTime := none
    tx := [] }
  ifu := {
    inputs := Vector.replicate 4 { pin := .closed, accepted := .closed, pendingChange := false }
    stop := none
    key := .idle }
  isi := {
    queue := Isi.freshQueue
    writer := .idle
    noted := []
    image := []
    damaged := []
    suspectMark := false
    writeMark := false }
  sys := { mode := .fresh, phase := .up, rst := false }
  freeNext := 0
  pending := []

end Sys2Proof.Machine
end

