-- ==== Sys2Proof/Machine/Arith.lean ====
section
/-! DEFINITION. The Load Arithmetic Unit (chapter 5): loads and pressures through a calibration table, targets and
limits of a class, creep, apparent free length, lock-off and destress steps. Quotients are formed exactly and
rounded or floored once, where the formula says so (section 3.3). -/

namespace Sys2Proof.Machine

/-- The quotient rounded to the nearest whole number, halves up (section 3.3). -/
def roundDiv (a b : Nat) : Nat := (2 * a + b) / (2 * b)

/-- A pressure as taken from a reply (R68, R93, R107). -/
def takePressure (p : Nat) : Nat := min p Config.maxPressure
/-- A stroke as taken from a reply (R97, R107). -/
def takeStroke (x : Nat) : Nat := min x Config.maxStroke
/-- A load or line tension as taken from a reply (R68, R131). -/
def takeLoad (l : Nat) : Nat := min l Config.maxLoad

/-! ## Calibration (R93, R94) -/

/-- The rows of Table 5-1 from the point `q` on, for a pressure not below its pressure. -/
def loadFrom (q : CalPoint) (rest : List CalPoint) (p : Nat) : Nat × Bool :=
  match rest with
  | [] => (q.load, decide (q.pressure < p))
  | q' :: rest' =>
    if p < q'.pressure then
      (q.load + roundDiv ((p - q.pressure) * (q'.load - q.load)) (q'.pressure - q.pressure), false)
    else loadFrom q' rest' p

/-- Load and overrange flag of a reported pressure (R93). A SET table has points; a table of none gives 0. -/
def loadOf (cal : List CalPoint) (reported : Nat) : Nat × Bool :=
  match cal with
  | [] => (0, false)
  | q :: rest =>
    if takePressure reported < q.pressure then (roundDiv (takePressure reported * q.load) q.pressure, false)
    else loadFrom q rest (takePressure reported)

/-- The segments of R94 from the point `q` on, for a target not below its load. -/
def pressureFrom (q : CalPoint) (rest : List CalPoint) (t : Nat) : Nat × Bool :=
  match rest with
  | [] => (q.pressure, decide (q.load < t))
  | q' :: rest' =>
    if t ≤ q'.load then
      (q.pressure + roundDiv ((t - q.load) * (q'.pressure - q.pressure)) (q'.load - q.load), false)
    else pressureFrom q' rest' t

/-- Target pressure and above-capacity flag of a target load (R94). -/
def pressureOf (cal : List CalPoint) (t : Nat) : Nat × Bool :=
  match cal with
  | [] => (0, false)
  | q :: rest =>
    if t = 0 then (0, false)
    else if t < q.load then (roundDiv (t * q.pressure) q.load, false)
    else pressureFrom q rest t

/-- The last calibration load of a table (R89). -/
def lastCalLoad (cal : List CalPoint) : Nat := (cal.getLast?.map CalPoint.load).getD 0

/-! ## Targets and limits (R95, R96) -/

/-- A target load (R95). -/
def targetLoad (c : ClassEntry) (percent : Nat) : Nat := roundDiv (c.dwl * percent) 100
/-- The datum target (Table 5-2). -/
def datumTarget (c : ClassEntry) : Nat := targetLoad c c.datum
/-- The stage k target, k from 1 (Table 5-2). -/
def stageTarget (c : ClassEntry) (k : Nat) : Nat := targetLoad c (c.stages[k - 1]?.getD 0)
/-- The test load (Table 5-2). -/
def testLoad (c : ClassEntry) : Nat := targetLoad c c.test
/-- The residual target (Table 5-2). -/
def residualTarget (c : ClassEntry) : Nat := targetLoad c c.lockoff
/-- The band (R96). -/
def band (c : ClassEntry) : Nat := max 1 (c.dwl * c.tolerance / 1000)
/-- The overload limit (R96). -/
def overloadLimit (c : ClassEntry) : Nat := roundDiv (testLoad c * 105) 100
/-- The lift-off search limit (R96). -/
def searchLimit (lockoffLoad : Nat) : Nat := roundDiv (lockoffLoad * 120) 100
/-- Within the band around a target (R96). -/
def inBand (c : ClassEntry) (target load : Nat) : Bool := load ≤ target + band c ∧ target ≤ load + band c
/-- Below the band (R96). -/
def belowBand (c : ClassEntry) (target load : Nat) : Bool := load + band c < target
/-- Above the band (R96). -/
def aboveBand (c : ClassEntry) (target load : Nat) : Bool := target + band c < load

/-! ## Lengths (R3, R100, R101) -/

/-- The effective free length (R3). -/
def effFree (c : ClassEntry) (r : Record) : Nat := r.freeOv.getD c.freeLen
/-- The effective bond length (R3). -/
def effBond (c : ClassEntry) (r : Record) : Nat := r.bondOv.getD c.bondLen
/-- The tendon length (R3). -/
def tendonLength (c : ClassEntry) (r : Record) : Nat := effFree c r + effBond c r + c.jacking
/-- E × A (R100). -/
def stiffness (c : ClassEntry) : Nat := c.modulus * (c.strands * c.area)

/-- The apparent free length from the closing and the residual reading (R100). -/
def apparentLength (c : ClassEntry) (fin res : Reading) : Nat :=
  let d : Int := fin.ext - res.ext
  if d ≤ 0 ∨ fin.load ≤ res.load then 0
  else min 999999 (roundDiv (stiffness c * d.toNat) ((fin.load - res.load) * 10000))

/-- The window test of R101. -/
def lengthPasses (c : ClassEntry) (r : Record) (l : Nat) : Bool :=
  roundDiv (effFree c r * c.lower) 100 ≤ l ∧ l ≤ effFree c r + roundDiv (effBond c r * c.upper) 100

/-! ## Lock-off (R102, R103) -/

/-- The expected loss (R102). -/
def expectedLoss (c : ClassEntry) (r : Record) : Nat :=
  roundDiv (stiffness c * c.drawIn) (effFree c r * 10000)
/-- The jack lock-off load (R102). -/
def jackLockoff (c : ClassEntry) (r : Record) : Nat := min (residualTarget c + expectedLoss c r) (testLoad c)
/-- The draw-in (R103). -/
def drawIn (before after : Nat) : Nat := before - after
/-- The residual lock-off load (R103). -/
def residualLoad (c : ClassEntry) (loadBefore drawn length : Nat) : Nat :=
  loadBefore - roundDiv (stiffness c * drawn) (length * 10000)
/-- The lock-off window (R103). -/
def lockWindow (c : ClassEntry) : Nat := residualTarget c * c.lockWindow / 1000
/-- The lock-off test of R103. -/
def lockoffPasses (c : ClassEntry) (residual : Nat) : Bool :=
  residual ≤ residualTarget c + lockWindow c ∧ residualTarget c ≤ residual + lockWindow c

/-! ## Destress steps (R104) -/

/-- The candidates of R104 from the `k`-th on, each below `last`; a step of at least 10 % ends within ten. -/
def stepsFrom (lift step : Nat) : (fuel k last : Nat) → List Nat
  | 0, _, _ => []
  | fuel + 1, k, last =>
    if 100 ≤ k * step then []
    else
      let cand := roundDiv (lift * (100 - k * step)) 100
      if cand = 0 then []
      else if cand < last then cand :: stepsFrom lift step fuel (k + 1) cand
      else stepsFrom lift step fuel (k + 1) last

/-- The step targets of a lift-off load (R104). -/
def stepTargets (lift step : Nat) : List Nat := stepsFrom lift step 10 1 lift

/-! ## Counts (R71, R73, R78, R132) -/

/-- The counter delta (R71). -/
def counterDelta (count baseline : Nat) : Nat := (count + 65536 - baseline % 65536) % 65536
/-- A growth of the pulse total (R72). -/
def grow (total delta : Nat) : Nat := min Config.max32 (total + delta)
/-- The payout of an INSERT context (R73). -/
def payout (p : InsertProg) : Nat := min Config.max32 (p.carried + p.total * p.scale / 10)
/-- The volume of a GROUT context (R78). -/
def volume (p : GroutProg) : Nat := min Config.max32 (p.carried + min Config.max32 (p.total * p.scale))
/-- The cap of R78. -/
def volumeCap (c : ClassEntry) : Nat := c.theoVol * c.volCap / 100
/-- The release level of R74. -/
def releaseLevel (c : ClassEntry) : Nat := c.maxPull * 9 / 10
/-- The cure end of R85. -/
def cureEndOf (c : ClassEntry) (groutEnd : Nat) : Nat := min Config.max32 (groutEnd + c.cure)
/-- The drift limit of R132. -/
def driftLimit (lockoffLoad permille : Nat) : Nat := lockoffLoad * permille / 1000
/-- The distance of two counts. -/
def distance (a b : Nat) : Nat := (a - b) + (b - a)

end Sys2Proof.Machine
end

