-- ==== Sys2Proof/Machine/Codes.lean ====
section
/-! DEFINITION. The codes of R182 and chapter 11: enumerated values by their position, counted from 1, in the
list that first gives them; orders, frame kinds and requests by the codes of chapter 11; numbers most
significant byte first. -/

namespace Sys2Proof

/-! ## Enumerations -/

/-- The value whose code is `n` in a list that counts from 1 (R182). -/
def ofCode {α : Type} (all : List α) (n : Nat) : Option α := if n = 0 then none else all[n - 1]?

/-- The code of a value in a list that counts from 1 (R182). -/
def codeIn {α : Type} [DecidableEq α] (all : List α) (x : α) : Nat := all.idxOf x + 1

/-- Table 1-4. -/
def RecState.all : List RecState :=
  [.planned, .bored, .inserting, .inserted, .grouting, .curing, .ready, .stressing, .locked, .destressing,
    .failed, .held, .retired, .suspect]

/-- Table 3-2. -/
def CtxKind.all : List CtxKind := [.insert, .grout, .stress, .destress]

/-- Table 1-2, in the order the reasons stand there. -/
def HeldReason.all : List HeldReason :=
  [.aborted, .lost, .restart, .power, .operator, .burst, .groutLoss, .groutShort, .insertLength, .overload,
    .overrange, .noLiftoff]

/-- Table 1-1, grout result. -/
def EndReason.all : List EndReason := [.refusal, .volumeCap, .operator, .accepted]

/-- Table 1-1, retire reason. -/
def RetireReason.all : List RetireReason := [.destressed, .abandoned, .failed, .supervisor]

/-- Table 1-1, creep windows used. -/
def Windows.all : List Windows := [.a, .aAndB]

/-- Table 1-1, verdict. -/
def Verdict.all : List Verdict := [.pass, .creepFail, .lengthFail, .lockoffFail]

/-- R161. -/
def StationKind.all : List StationKind := [.none, .supervisor, .winch, .grout, .jack, .monitor]

/-- Table 7-1. -/
def Cond.all : List Cond :=
  [.overload, .burst, .siteStop, .overrange, .groutLoss, .loadDrift, .stationLost, .imageSuspect, .imageWrite,
    .creepFail, .lengthFail, .lockoffFail, .groutShort, .stationFault, .countSetback, .overpull, .insertLength,
    .noLiftoff, .lineFault, .lineNoise]

/-- Table 9-1. -/
def Result.all : List Result :=
  [.done, .noRecord, .wrongState, .stale, .occupied, .full, .conflict, .notReady, .notPermitted, .badValue,
    .reliedOn, .stationAbsent, .stationBound, .wrongKind, .capacity, .limit, .lastLine, .siteStopped, .inUse]

/-- Table 3-1. -/
def RunState.all : List RunState := [.running, .suspended, .stopped]

/-- R155. -/
def LineState.all : List LineState := [.active, .quiet, .disabled, .testing]

/-- R160. -/
def FrameError.all : List FrameError := [.timeout, .check, .kind]

/-- R155: Line A, then Line B. -/
def LineId.all : List LineId := [.a, .b]

/-- Table 10-2. -/
def StartMode.all : List StartMode := [.fresh, .restore, .commission]

/-- Table 8-1. -/
def InputFunction.all : List InputFunction := [.none, .stop, .permit, .restartKey]

/-- R144: OPEN, then CLOSED; Table 8-1 gives the polarities in the same order. -/
def Contact.all : List Contact := [.opened, .closed]

/-- The code of an order (Table 11-4). -/
def Order.code : Order → Nat
  | .run => 1 | .hold => 2 | .pump => 3 | .stop => 4 | .idle => 5
  | .pressure _ => 6 | .seat => 7 | .lift => 8 | .free => 9 | .read => 10

/-- The priority of a condition kind (Table 7-1). -/
def Cond.priority (c : Cond) : Nat := codeIn Cond.all c

/-- The fixed level of a kind that has one (R133). -/
def Cond.fixedLevel : Cond → Option Nat
  | .overload | .burst | .siteStop => some 3
  | _ => none

/-- The kinds with a programmable level, in ascending priority (R34). -/
def Cond.programmable : List Cond := Cond.all.filter (fun c => c.fixedLevel.isNone)

/-- The code of a subject kind: record, station, line, site, as R139 lists them. -/
def Subject.kindCode : Subject → Nat
  | .record _ => 1 | .station _ => 2 | .line _ => 3 | .site => 4

/-- The number that identifies a subject within its kind; the site's is 0. -/
def Subject.ident : Subject → Nat
  | .record n => n
  | .station n => n
  | .line l => codeIn LineId.all l
  | .site => 0

/-- Whether Table 7-1 gives the condition for the subject's kind. -/
def Cond.allowedOn (c : Cond) : Subject → Bool
  | .record _ => c ≠ .siteStop ∧ c ≠ .lineFault ∧ c ≠ .lineNoise
  | .station _ => c = .stationFault
  | .line _ => c = .lineFault ∨ c = .lineNoise
  | .site => c = .siteStop ∨ c = .imageSuspect ∨ c = .imageWrite

/-- The work state of a context kind (Table 3-2). -/
def CtxKind.workState : CtxKind → RecState
  | .insert => .inserting
  | .grout => .grouting
  | .stress => .stressing
  | .destress => .destressing

/-- The station kind a context kind needs (Table 3-2). -/
def CtxKind.stationKind : CtxKind → StationKind
  | .insert => .winch
  | .grout => .grout
  | .stress => .jack
  | .destress => .jack

/-- The record state a context kind needs to bind (Table 3-2). -/
def CtxKind.neededState : CtxKind → RecState
  | .insert => .bored
  | .grout => .inserted
  | .stress => .ready
  | .destress => .locked

/-- The context kind whose work state a record state is (Table 3-2). -/
def RecState.workKind : RecState → Option CtxKind
  | .inserting => some .insert
  | .grouting => some .grout
  | .stressing => some .stress
  | .destressing => some .destress
  | _ => none

/-- The work states of Table 1-4. -/
def RecState.isWork (st : RecState) : Bool := st.workKind.isSome

end Sys2Proof

namespace Sys2Proof.Machine

/-- R161. -/
def StationState.all : List StationState := [.unused, .seeking, .present]

/-- Table 6-2: the STRESS phases, then the DESTRESS phases. DESIGN CHOICE (assumption log 15): one numbering runs
through both lists. -/
def JackPhase.all : List JackPhase :=
  [.datum, .stage, .test, .holdA, .holdB, .unload, .verdict, .lockoff, .seating, .liftoff, .step, .free]

/-- The code of a clock state (section 11.2). -/
def ClockState.code : ClockState → Nat
  | .running => 1
  | .held => 2

/-- The request codes of Table 11-6. -/
inductive Req where
  | find | list | create | amend | bored | retire | replace | purge | certify
  | start | begin | abort | resume | close | endWork | restroke
  | classWrite | classRead | siteWrite | siteRead | digQuery | digSet | relieve
  | calWrite | calRead | bind | unbind | clear | attentionRead
  | timeSet | release | inputRead | restart
  | stationWrite | stationRead | lineWrite | lineRead
deriving DecidableEq, Repr

/-- Table 11-6, in order of code. -/
def Req.all : List Req :=
  [.find, .list, .create, .amend, .bored, .retire, .replace, .purge, .certify, .start, .begin, .abort, .resume,
    .close, .endWork, .restroke, .classWrite, .classRead, .siteWrite, .siteRead, .digQuery, .digSet, .relieve,
    .calWrite, .calRead, .bind, .unbind, .clear, .attentionRead, .timeSet, .release, .inputRead, .restart,
    .stationWrite, .stationRead, .lineWrite, .lineRead]

/-- The code of a request (Table 11-6). -/
def Req.code (r : Req) : Nat := codeIn Req.all r

/-- The requests that are carried in parts (Table 11-8). -/
def Req.inParts : Req → Bool
  | .classWrite | .classRead | .calRead => true
  | _ => false

/-- The context kind of a context's progress (R46). -/
def Progress.kind : Progress → CtxKind
  | .insert _ => .insert
  | .grout _ => .grout
  | .stress _ => .stress
  | .destress _ => .destress

/-! ## Bytes -/

/-- `w` bytes of a number, most significant first (R182). -/
def beBytes (w n : Nat) : List Byte :=
  match w with
  | 0 => []
  | w + 1 => beBytes w (n / 256) ++ [BitVec.ofNat 8 n]

/-- The number that bytes spell, most significant first (R182). -/
def beNat (bs : List Byte) : Nat := bs.foldl (fun acc b => acc * 256 + b.toNat) 0

/-- The bytes of one quantity (R182): signed quantities in two's complement. -/
def Field.bytes : Field → List Byte
  | .u8 n => beBytes 1 n
  | .u16 n => beBytes 2 n
  | .u32 n => beBytes 4 n
  | .i32 z => beBytes 4 (z % 4294967296).toNat

/-- The bytes of a payload. -/
def fieldBytes (fs : List Field) : List Byte := fs.flatMap Field.bytes

/-- One quantity for a flag byte: bit `n` is the `n`-th flag (R182). -/
def flags (bs : List Bool) : Nat := bs.foldr (fun b acc => (if b then 1 else 0) + 2 * acc) 0

/-- Items that may be absent behind a mask of their own width (R182). -/
def maskedWith (mask : Nat → Field) (items : List (Option (List Field))) : List Field :=
  mask (flags (items.map Option.isSome)) :: (items.filterMap id).flatten

/-- A selection of items behind its 4-byte presence mask (R182). -/
def masked (items : List (Option (List Field))) : List Field := maskedWith .u32 items

/-- The parts of one field behind its one-byte mask (R182). -/
def masked8 (items : List (Option (List Field))) : List Field := maskedWith .u8 items

/-- A list of varying length behind its one-byte count (R182). -/
def counted (items : List (List Field)) : List Field := .u8 items.length :: items.flatten

/-- The code of an enumerated value as a one-byte quantity. -/
def enum8 {α : Type} [DecidableEq α] (all : List α) (x : α) : Field := .u8 (codeIn all x)

/-- A Boolean as a flag byte with its bit 0 (R182). -/
def flag8 (b : Bool) : Field := .u8 (if b then 1 else 0)

/-- One step of the check: the byte's bits enter most significant first, polynomial x^16 + x^12 + x^5 + 1
(R160). -/
def crcBit (c : Check) : Check := if c.msb then (c <<< 1) ^^^ 0x1021#16 else c <<< 1

/-- One byte of the check (R160). -/
def crcByte (c : Check) (b : Byte) : Check :=
  crcBit (crcBit (crcBit (crcBit (crcBit (crcBit (crcBit (crcBit (c ^^^ (b.setWidth 16 <<< 8)))))))))

/-- The check of R160 and R172: initial value all ones, no reflection, no final inversion. -/
def crc (bs : List Byte) : Check := bs.foldl crcByte 0xFFFF#16

/-- The two bytes of a check, most significant first (R182). -/
def crcBytes (bs : List Byte) : List Byte := beBytes 2 (crc bs).toNat

/-- The bytes of an ANSWER's payload (section 11.3). -/
def Answer.bytes (a : Answer) : List Byte :=
  beBytes 1 a.req ++ beBytes 1 (codeIn Result.all a.result) ++ fieldBytes a.body

/-- The order part of a CALL payload (Table 11-3). -/
def CallBody.fields : CallBody → List Field
  | .summary hi n ov => [.u8 hi, .u8 n, .u8 ov]
  | .order (.pressure p) => [.u8 6, .u32 p]
  | .order o => [.u8 o.code]

/-- Address, kind and payload of a frame (Tables 11-2 and 11-3); 31 is the broadcast address. -/
def Frame.parts : Frame → Nat × Nat × List Byte
  | .call st pa pb body => (st, 1, fieldBytes (.u8 (flags [pa, pb]) :: body.fields))
  | .fetch st => (st, 3, [])
  | .answer st a => (st, 5, a.bytes)
  | .time t c => (31, 6, fieldBytes [.u32 t, .u8 c.code])
  | .allstop => (31, 7, [])

/-- The bytes of a frame: address, kind, length, payload, check (Table 11-2). -/
def Frame.bytes (f : Frame) : List Byte :=
  match f.parts with
  | (addr, kind, payload) =>
    let body := beBytes 1 addr ++ beBytes 1 kind ++ beBytes 1 payload.length ++ payload
    body ++ crcBytes body

end Sys2Proof.Machine
end

