-- ==== Sys2Proof/Machine/Flags.lean ====
section
/-! DEFINITION. Every flag the part computes: condition sets and levels (R6, R133), the attention list with its order
and the alarm (R135, R136, R138, R141), the three signals of the field inputs (R145), and the marks of each
subject (R134). -/

namespace Sys2Proof.Machine

/-! ## Condition sets -/

/-- A condition set with `c` in it, in ascending priority. -/
def addCond (c : Cond) : List Cond → List Cond
  | [] => [c]
  | d :: ds => if c = d then d :: ds else if c.priority < d.priority then c :: d :: ds else d :: addCond c ds

/-- A condition set with every kind of `cs` in it. -/
def addConds (cs set : List Cond) : List Cond := cs.foldl (fun acc c => addCond c acc) set

/-- A condition set without `c`. -/
def dropCond (c : Cond) (set : List Cond) : List Cond := set.filter (fun d => d ≠ c)

/-- The level of a condition kind (R133): fixed, or the site setting. -/
def levelOf (site : SiteSettings) (c : Cond) : Nat :=
  c.fixedLevel.getD ((site.levels[Cond.programmable.idxOf c]?).getD 0)

/-! ## The attention list -/

/-- The rank of a subject (R133): the site, Line A, Line B, the stations, the records. -/
def subjectRank : Subject → Nat
  | .site => 0
  | .line .a => 1
  | .line .b => 2
  | .station n => 3 + n
  | .record n => 19 + n

/-- Whether `x` stands before `y` in the order of R135. -/
def Entry.before (x y : Entry) : Bool :=
  y.level < x.level ∨ y.level = x.level ∧
    (x.cond.priority < y.cond.priority ∨ x.cond.priority = y.cond.priority ∧
      (x.time < y.time ∨ x.time = y.time ∧ subjectRank x.subject < subjectRank y.subject))

/-- Put an entry into its place in the order of R135. -/
def insertEntry (e : Entry) : List Entry → List Entry
  | [] => [e]
  | x :: xs => if e.before x then e :: x :: xs else x :: insertEntry e xs

/-- The lowest level present in a list of entries; 0 when there is none. -/
def lowestLevel (l : List Entry) : Nat :=
  match l with
  | [] => 0
  | x :: xs => xs.foldl (fun m e => min m e.level) x.level

/-- The highest level present, 0 when the list is empty (R140, R141). -/
def highestLevel (l : List Entry) : Nat := l.foldl (fun m e => max m e.level) 0

/-- The newest entry of a level: the latest raised time, and among equal times the latest in the order (R136). -/
def newestOf (level : Nat) (l : List Entry) : Option Entry :=
  l.foldl (fun best e =>
    if e.level = level ∧ (best.map Entry.time).getD 0 ≤ e.time then some e else best) none

/-- The overflow count one higher, saturating at 255 (R135). -/
def bump255 (n : Nat) : Nat := min 255 (n + 1)

/-- List an entry: place it, displace the newest entry of the lowest level, or count it as overflow (R136). -/
def Atu.place (a : Atu) (e : Entry) : Atu :=
  if a.entries.length < Config.attentionSize then { a with entries := insertEntry e a.entries }
  else if lowestLevel a.entries < e.level then
    match newestOf (lowestLevel a.entries) a.entries with
    | some old => { a with entries := insertEntry e (a.entries.erase old), overflow := bump255 a.overflow }
    | none => { a with overflow := bump255 a.overflow }
  else { a with overflow := bump255 a.overflow }

/-- ALM follows the list against the alarm threshold (R141). -/
def Atu.sound (a : Atu) (alarm : Nat) : Atu := { a with alm := a.entries.any (fun e => alarm ≤ e.level) }

/-- Remove the entries `p` holds of; the overflow count stays (R137). -/
def Atu.drop (a : Atu) (p : Entry → Bool) : Atu := { a with entries := a.entries.filter (fun e => !p e) }

/-- Whether the list holds an entry for a condition of a subject. -/
def Atu.lists (a : Atu) (subj : Subject) (c : Cond) : Bool :=
  a.entries.any (fun e => e.subject = subj ∧ e.cond = c)

/-- The entries of a re-levelled kind take the new level and move to their places; at level 0 they leave (R138). -/
def relevelEntries (l : List Entry) (c : Cond) (level : Nat) : List Entry :=
  let others := l.filter (fun e => e.cond ≠ c)
  if level = 0 then others
  else (l.filter (fun e => e.cond = c)).foldl (fun acc e => insertEntry { e with level := level } acc) others

/-! ## The field inputs -/

/-- Whether an input is asserted (R145). -/
def inputAsserted (set : InputSettings) (inp : Input) : Bool := set.enabled ∧ inp.accepted = set.asserts

/-- Whether input `i` is asserted. -/
def asserted (site : SiteSettings) (ifu : Ifu) (i : Fin 4) : Bool := inputAsserted site.inputs[i] ifu.inputs[i]

/-- The four inputs in order. -/
def inputNumbers : List (Fin 4) := [0, 1, 2, 3]

/-- The inputs with function STOP that are asserted, lowest first (R145, R146). -/
def stopInputs (site : SiteSettings) (ifu : Ifu) : List (Fin 4) :=
  inputNumbers.filter (fun i => site.inputs[i].function = .stop ∧ asserted site ifu i)

/-- Stop demand (R145). -/
def stopDemand (site : SiteSettings) (ifu : Ifu) : Bool := !(stopInputs site ifu).isEmpty

/-- Permit present (R145). -/
def permitPresent (site : SiteSettings) (ifu : Ifu) : Bool :=
  inputNumbers.any (fun i => site.inputs[i].function = .permit ∧ asserted site ifu i)

/-- The enabled inputs with function RESTART_KEY. -/
def keyInputs (site : SiteSettings) : List (Fin 4) :=
  inputNumbers.filter (fun i => site.inputs[i].enabled ∧ site.inputs[i].function = .restartKey)

/-- Key combination (R145). -/
def keyCombination (site : SiteSettings) (ifu : Ifu) : Bool :=
  !(keyInputs site).isEmpty ∧ (keyInputs site).all (asserted site ifu)

/-- The key state after a change of the key combination (R150). -/
def KeyState.follow (k : KeyState) (combination : Bool) : KeyState :=
  match k, combination with
  | .idle, true => .timing 0
  | .timing _, false => .idle
  | .spent, false => .idle
  | k, _ => k

/-- An input whose filter restarts: the accepted level is the pin's, the filter STEADY (R149, R152). -/
def Input.restart (inp : Input) : Input := { inp with accepted := inp.pin, pendingChange := false }

/-- One sample of a filtered input (R144). -/
def Input.sample (inp : Input) : Input :=
  if inp.pin = inp.accepted then { inp with pendingChange := false }
  else if inp.pendingChange then { inp with accepted := inp.pin, pendingChange := false }
  else { inp with pendingChange := true }

end Sys2Proof.Machine
end

