-- ==== Sys2Proof/Machine/Ops.lean ====
section
/-! DEFINITION. The named operations every meaning is made of: slots, the record update (R5), conditions and the
attention list (R6, R136, R137), the Position Map (R10), entry to RETIRED and to LOCKED (R8, R10), contexts and
stations, the write queue (R173). -/

namespace Sys2Proof.Machine

/-! ## Reading and writing one place -/

/-- A slot of the Anchor Table (R1). -/
def State.slotAt (s : State) (n : Nat) : Slot := (s.tbc.slots.get? n).getD Slot.fresh

/-- The record of a slot, absent while the slot is FREE. -/
def State.recAt (s : State) (n : Nat) : Option Record := (s.slotAt n).rec?

/-- The revision of a slot (R1). -/
def State.revAt (s : State) (n : Nat) : Nat := (s.slotAt n).rev

/-- Write a slot; one that is as fresh is not listed. -/
def State.putSlot (s : State) (n : Nat) (x : Slot) : State :=
  { s with tbc := { s.tbc with slots := s.tbc.slots.set n (if x = Slot.fresh then none else some x) } }

/-- A SET class entry (R27). -/
def State.classAt (s : State) (c : Nat) : Option ClassEntry := s.tbc.classes.get? c

/-- The class of a record. -/
def State.classOf (s : State) (r : Record) : Option ClassEntry := s.classAt r.cls

/-- A bound context (R46). -/
def State.ctxAt (s : State) (c : Nat) : Option Context := s.cxp.contexts.get? c

/-- Write a bound context. -/
def State.putCtx (s : State) (c : Nat) (x : Context) : State :=
  { s with cxp := { s.cxp with contexts := s.cxp.contexts.put c x } }

/-- A station-table entry (R161). -/
def State.stationAt (s : State) (n : Nat) : Station := (s.bmu.stations[n]?).getD Station.unenrolled

/-- Write a station-table entry. -/
def State.putStation (s : State) (n : Nat) (x : Station) : State :=
  { s with bmu := { s.bmu with stations := s.bmu.stations.setIfInBounds n x } }

/-- The items of a line (R155). -/
def State.lineAt (s : State) : LineId → Line
  | .a => s.bmu.lineA
  | .b => s.bmu.lineB

/-- Write the items of a line. -/
def State.putLine (s : State) (l : LineId) (x : Line) : State :=
  match l with
  | .a => { s with bmu := { s.bmu with lineA := x } }
  | .b => { s with bmu := { s.bmu with lineB := x } }

/-- The other line. -/
def otherLine : LineId → LineId
  | .a => .b
  | .b => .a

/-- A SET calibration table (R89). -/
def State.calAt (s : State) (n : Nat) : Option (List CalPoint) := s.cals.get? n

/-- The key of a monitor channel in the channel map (R128). -/
def channelKey (b : Binding) : Nat := b.station * 8 + b.channel

/-- The number of a position, 0 to 4799 (R9). -/
def posKey (row bay : Nat) : Nat := (row - 1) * Config.bayCount + (bay - 1)

/-- The row of a position number. -/
def posRow (key : Nat) : Nat := key / Config.bayCount + 1

/-- The slot of the live record of a position (R9). -/
def State.liveAt (s : State) (row bay : Nat) : Option Nat := s.tbc.map.get? (posKey row bay)

/-- Whether slot `n`, holding `r`, is the live record of its position (R9). -/
def State.isLive (s : State) (n : Nat) (r : Record) : Bool := s.liveAt r.row r.bay = some n

/-- The slots that hold a record, in ascending order. -/
def State.usedSlots (s : State) : List Nat :=
  s.tbc.slots.filterMap (fun p => if p.2.rec?.isSome then some p.1 else none)

/-- The lowest FREE slot (R1). -/
def State.lowestFree (s : State) : Option Nat :=
  (List.range Config.slotCount).find? (fun n => (s.recAt n).isNone)

/-! ## Write queue (R173) -/

/-- Hand an item to the ISI: it joins the tail unless it is queued (R173). -/
def State.hand (s : State) (i : Item) : State :=
  if i ∈ s.isi.queue then s else { s with isi := { s.isi with queue := s.isi.queue ++ [i] } }

/-! ## Attention list -/

/-- Tell the ATU that a condition has been raised, at a given raised time (R136). -/
def State.tellAt (s : State) (subj : Subject) (c : Cond) (time : Nat) : State :=
  if levelOf s.tbc.site c = 0 then s
  else
    { s with
      atu := (s.atu.place { subject := subj, cond := c, level := levelOf s.tbc.site c, time := time }).sound
        s.tbc.site.alarm }

/-- Tell the ATU that a condition has been raised now (R134, R136). -/
def State.tell (s : State) (subj : Subject) (c : Cond) : State := s.tellAt subj c s.wck.time

/-- Have the ATU remove entries (R137); ALM follows (R141). -/
def State.untell (s : State) (p : Entry → Bool) : State :=
  { s with atu := (s.atu.drop p).sound s.tbc.site.alarm }

/-- Have the ATU remove the entry of one condition of one subject. -/
def State.untellOne (s : State) (subj : Subject) (c : Cond) : State :=
  s.untell (fun e => e.subject = subj ∧ e.cond = c)

/-! ## The record update (R5, R6) -/

/-- The record update: `f` gives the fields handed in, `st` is the station the change is made for. An update that
changes no field changes nothing; any other steps the revision, sets the stamp and hands the slot (R5). -/
def State.update (s : State) (n st : Nat) (f : Record → Record) : State :=
  match s.recAt n with
  | none => s
  | some r =>
    if f r = r then s
    else
      (s.putSlot n {
        rev := (s.revAt n + 1) % Config.revisionModulus
        rec? := some { f r with stamp := { time := s.wck.time, station := st } } }).hand (.slot n)

/-- The kinds of `cs` that the record of slot `n` does not hold. -/
def State.newConds (s : State) (n : Nat) (cs : List Cond) : List Cond :=
  match s.recAt n with
  | none => []
  | some r => cs.filter (fun c => c ∉ r.conds)

/-- A record update that also raises conditions: the update adds them, and the ATU is told of those that are new
(R6). -/
def State.updateRaising (s : State) (n st : Nat) (cs : List Cond) (f : Record → Record) : State :=
  (s.newConds n cs).foldl (fun t c => t.tell (.record n) c)
    (s.update n st (fun r => { f r with conds := addConds cs (f r).conds }))

/-- Raise one condition on a record (R6). -/
def State.raise (s : State) (n st : Nat) (c : Cond) : State := s.updateRaising n st [c] id

/-- Remove one condition from a record, and its entry from the list (R6, R137). -/
def State.unraise (s : State) (n st : Nat) (c : Cond) : State :=
  match s.recAt n with
  | none => s
  | some r =>
    if c ∈ r.conds then
      (s.update n st (fun r => { r with conds := dropCond c r.conds })).untellOne (.record n) c
    else s

/-! ## Marks of stations, lines and the site (R134) -/

/-- Whether a condition is marked on a subject (R134). -/
def State.marked (s : State) (subj : Subject) (c : Cond) : Bool :=
  match subj with
  | .record n => match s.recAt n with
    | some r => c ∈ r.conds
    | none => false
  | .station n => c = .stationFault ∧ (s.stationAt n).faultMark
  | .line l => c = .lineFault ∧ (s.lineAt l).faultMark ∨ c = .lineNoise ∧ (s.lineAt l).noiseMark
  | .site => c = .siteStop ∧ s.ifu.stop.isSome ∨ c = .imageSuspect ∧ s.isi.suspectMark ∨
      c = .imageWrite ∧ s.isi.writeMark

/-- Set or clear the mark that a station, a line or the ISI holds. -/
def State.setMark (s : State) (subj : Subject) (c : Cond) (on : Bool) : State :=
  match subj, c with
  | .station n, .stationFault => s.putStation n { s.stationAt n with faultMark := on }
  | .line l, .lineFault => s.putLine l { s.lineAt l with faultMark := on }
  | .line l, .lineNoise => s.putLine l { s.lineAt l with noiseMark := on }
  | .site, .imageSuspect => { s with isi := { s.isi with suspectMark := on } }
  | .site, .imageWrite => { s with isi := { s.isi with writeMark := on } }
  | _, _ => s

/-- Raise a condition on a station, a line or the site (R134). -/
def State.raiseMark (s : State) (subj : Subject) (c : Cond) : State :=
  if s.marked subj c then s else (s.setMark subj c true).tell subj c

/-- Remove a condition from a station, a line or the site, with its entry (R134, R137). -/
def State.clearMark (s : State) (subj : Subject) (c : Cond) : State :=
  if s.marked subj c then (s.setMark subj c false).untellOne subj c else s

/-! ## Position Map and channel map -/

/-- Change a map entry; the slot it stops naming and the slot it comes to name are handed to the write queue
(R9). -/
def State.setMap (s : State) (key : Nat) (v? : Option Nat) : State :=
  let old := s.tbc.map.get? key
  if old = v? then s
  else
    let s1 := { s with tbc := { s.tbc with map := s.tbc.map.set key v? } }
    let s2 := match old with
      | some n => s1.hand (.slot n)
      | none => s1
    match v? with
    | some n => s2.hand (.slot n)
    | none => s2

/-- Empty the channel-map entry of a binding (R128, R130). -/
def State.freeChannel (s : State) (b? : Option Binding) : State :=
  match b? with
  | some b => { s with channels := s.channels.erase (channelKey b) }
  | none => s

/-- Where the map entry goes when the live record `r` retires (R10). -/
def State.successor (s : State) (r : Record) : Option Nat :=
  match r.replacedBy with
  | none => none
  | some m =>
    match s.recAt m with
    | some q => if q.state = .retired then none else some m
    | none => none

/-- The pending replacement's old record loses its "replaced by" link (R8, fourth item). -/
def State.unlinkOld (s : State) (n st : Nat) (r : Record) : State :=
  match r.replaces with
  | none => s
  | some m =>
    match s.recAt m with
    | none => s
    | some old =>
      if old.replacedBy = some n ∧ s.isLive m old then s.update m st (fun q => { q with replacedBy := none }) else s

/-- The fields entry to RETIRED sets and removes (R8). -/
def retireFields (reason : RetireReason) (r : Record) : Record :=
  { r with
    state := .retired, retireReason := some reason, context := none, heldKind := none, heldReason := none,
    binding := none, conds := [] }

/-- Entry to RETIRED with all that R8 and R10 give; `f` gives the other fields of the same update. -/
def State.retireRecord (s : State) (n st : Nat) (reason : RetireReason) (f : Record → Record) : State :=
  match s.recAt n with
  | none => s
  | some r =>
    let s1 := ((s.update n st (fun q => retireFields reason (f q))).freeChannel r.binding).untell
      (fun e => e.subject = .record n)
    let s2 := s1.unlinkOld n st r
    if s.isLive n r then s2.setMap (posKey r.row r.bay) (s2.successor r) else s2

/-- Entry to LOCKED: the record update, and the map switch to a replacement of the live record (R10). -/
def State.lockRecord (s : State) (n st : Nat) (f : Record → Record) : State :=
  match s.recAt n with
  | none => s
  | some r =>
    let s1 := s.update n st (fun q => { f q with state := .locked })
    match r.replaces with
    | none => s1
    | some m => if s.liveAt r.row r.bay = some m then s1.setMap (posKey r.row r.bay) (some n) else s1

/-! ## Rows (R39, R40) -/

/-- Whether a row's relieved flag is set. -/
def State.isRelieved (s : State) (row : Nat) : Bool := (s.tbc.site.relieved[row - 1]?).getD false

/-- Whether a row is relied (R39). -/
def State.isRelied (s : State) (row : Nat) : Bool :=
  1 ≤ row ∧ row ≤ s.tbc.site.digRow ∧ s.isRelieved row = false

/-- The slots of the live records of a row. -/
def State.liveInRow (s : State) (row : Nat) : List Nat :=
  s.tbc.map.filterMap (fun p => if posRow p.1 = row then some p.2 else none)

/-- The live records of a row that do not hold: not LOCKED, and not SUSPECT where that counts as LOCKED
(R40, R179). -/
def State.notHolding (s : State) (suspectHolds : Bool) (row : Nat) : List Nat :=
  (s.liveInRow row).filter (fun n =>
    match s.recAt n with
    | some r => !(r.state = .locked ∨ suspectHolds ∧ r.state = .suspect)
    | none => false)

/-- Whether a row passes the query (R40). -/
def State.rowPasses (s : State) (suspectHolds : Bool) (row : Nat) : Bool :=
  s.isRelieved row ∨ (s.notHolding suspectHolds row).isEmpty

/-- The deepest row such that every row down to it passes (R40), searched from `row` with `fuel` rows left. -/
def State.deepest (s : State) (suspectHolds : Bool) : (fuel row : Nat) → Nat
  | 0, row => row
  | fuel + 1, row => if s.rowPasses suspectHolds (row + 1) then s.deepest suspectHolds fuel (row + 1) else row

/-- The query value of DIG_QUERY (R40), or the value of R179 with SUSPECT counted as LOCKED. -/
def State.digValue (s : State) (suspectHolds : Bool) : Nat := s.deepest suspectHolds Config.rowCount 0

/-! ## Nearness and exclusion (R36, R37) -/

/-- The conflicting pairs of Table 2-3. -/
def kindsConflict : CtxKind → CtxKind → Bool
  | .grout, .stress | .grout, .destress | .stress, .grout | .destress, .grout => true
  | .stress, .stress | .stress, .destress | .destress, .stress | .destress, .destress => true
  | _, _ => false

/-- Nearness at a span (R36). -/
def near (span : Nat) (x y : Record) : Bool := distance x.row y.row ≤ 1 ∧ distance x.bay y.bay ≤ span

/-- Whether a bound context forms a near conflicting pair with work of kind `k` on `r` (R37). -/
def State.excludes (s : State) (span : Nat) (k : CtxKind) (r : Record) (x : Context) : Bool :=
  match s.recAt x.slot with
  | some q => kindsConflict k x.prog.kind && near span r q
  | none => false

/-- The lowest-numbered bound context that excludes work of kind `k` on `r` (R37, R50). -/
def State.excluder (s : State) (k : CtxKind) (r : Record) : Option Nat :=
  (s.cxp.contexts.find? (fun p => s.excludes s.tbc.site.span k r p.2)).map Prod.fst

/-- Whether a span would make two bound contexts a near conflicting pair (R38). -/
def State.spanConflicts (s : State) (span : Nat) : Bool :=
  s.cxp.contexts.any (fun p =>
    match s.recAt p.2.slot with
    | none => false
    | some r => s.cxp.contexts.any (fun q => p.1 ≠ q.1 ∧ s.excludes span p.2.prog.kind r q.2))

/-! ## Free values -/

/-- A value the spec leaves open, and the state with the next one in line (assumption log 3). -/
def State.takeFree (s : State) : Nat × State :=
  (Config.freeValue s.freeNext, { s with freeNext := s.freeNext + 1 })

/-! ## Lines and stations -/

/-- Whether a line state carries calls to a station (R156). -/
def carriesCalls (st : LineState) (station : Nat) : Bool := st = .active ∨ station = 0 ∧ st = .quiet

/-- Whether a station's transmitter is inhibited on a line (R161). -/
def inhibitedOn (i : Inhibits) : LineId → Bool
  | .a => i.a
  | .b => i.b

/-- Whether a line is usable for a station (R156). -/
def State.usable (s : State) (station : Nat) (l : LineId) : Bool :=
  carriesCalls (s.lineAt l).state station ∧ !(inhibitedOn (s.stationAt station).inhibits l)

end Sys2Proof.Machine
end

