-- ==== Sys2Proof/Machine/Image.lean ====
section
/-! DEFINITION. The blocks of the image memory (R172, section 11.4): record blocks, empty-marked blocks and the header,
written and read back, with their checks. -/

namespace Sys2Proof.Machine

/-! ## Reading bytes back -/

/-- A reader: takes what it needs from the front of the bytes, or fails. -/
abbrev Rd := StateT (List Byte) Option

/-- A number of `w` bytes. -/
def rdNat (w : Nat) : Rd Nat := fun bs =>
  if bs.length < w then none else some (beNat (bs.take w), bs.drop w)

/-- A signed number of four bytes, in two's complement (R182). -/
def rdInt : Rd Int := do
  let n ← rdNat 4
  pure (if n < 2147483648 then (n : Int) else (n : Int) - 4294967296)

/-- A flag byte's bit 0; the other bits are ignored on receipt (R182). -/
def rdFlag : Rd Bool := do
  let n ← rdNat 1
  pure (n % 2 = 1)

/-- An enumerated value by its code (R182). -/
def rdEnum {α : Type} (all : List α) : Rd α := do
  let n ← rdNat 1
  match ofCode all n with
  | some x => pure x
  | none => failure

/-- A status byte (`status8`): UNSET 1, SET 2; no other byte reads. -/
def rdStatus : Rd Bool := rdEnum [false, true]

/-- An item that bit `bit` of the mask says is present. -/
def rdOpt {α : Type} (mask bit : Nat) (r : Rd α) : Rd (Option α) :=
  if mask.testBit bit then do
    let x ← r
    pure (some x)
  else pure none

/-- `n` elements. -/
def rdTimes {α : Type} (r : Rd α) : Nat → Rd (List α)
  | 0 => pure []
  | n + 1 => do
    let x ← r
    let xs ← rdTimes r n
    pure (x :: xs)

/-- A list behind its one-byte count (R182). -/
def rdList {α : Type} (r : Rd α) : Rd (List α) := do
  let n ← rdNat 1
  rdTimes r n

/-! ## Record blocks (Table 11-9) -/

/-- The grout result behind its one-byte mask (R182). -/
def GroutResult.fields (g : GroutResult) : List Field :=
  [.u8 (flags [g.reason.isSome, g.endTime.isSome]), .u32 g.volume, .u32 g.peak] ++
    (g.reason.map (fun x => [enum8 EndReason.all x])).getD [] ++ (g.endTime.map (fun t => [.u32 t])).getD []

/-- The stress result behind its one-byte mask (R182). -/
def StressResult.fields (x : StressResult) : List Field :=
  [.u8 (flags [x.creepB.isSome, x.freeLength.isSome, x.jackLoad.isSome, x.drawIn.isSome, x.residual.isSome]),
    .u16 x.datumTarget, .u16 x.testTarget, .u16 x.residualTarget, enum8 Windows.all x.windows, .i32 x.creepA] ++
    (x.creepB.map (fun z => [.i32 z])).getD [] ++ (x.freeLength.map (fun n => [.u32 n])).getD [] ++
    (x.jackLoad.map (fun n => [.u16 n])).getD [] ++ (x.drawIn.map (fun n => [.u16 n])).getD [] ++
    (x.residual.map (fun n => [.u16 n])).getD [] ++
    [.u8 x.makeups, .u8 x.restrokes, enum8 Verdict.all x.verdict]

/-- The optional fields of Table 1-1 in table order, each as it stands in the block. -/
def optFields (r : Record) : List (Option (List Field)) :=
  [ r.freeOv.map (fun n => [.u16 n]),
    r.bondOv.map (fun n => [.u16 n]),
    r.context.map (fun n => [.u8 n]),
    r.heldKind.map (fun k => [enum8 CtxKind.all k]),
    r.heldReason.map (fun k => [enum8 HeldReason.all k]),
    r.insertion.map (fun n => [.u32 n]),
    r.grout.map GroutResult.fields,
    r.cureEnd.map (fun n => [.u32 n]),
    r.stress.map StressResult.fields,
    r.lockoffLoad.map (fun n => [.u16 n]),
    r.liftoffLoad.map (fun n => [.u16 n]),
    r.binding.map (fun b => [.u8 b.station, .u8 b.channel]),
    r.monitored.map (fun m => [.u16 m.load, .u32 m.time]),
    r.replaces.map (fun n => [.u16 n]),
    r.replacedBy.map (fun n => [.u16 n]),
    r.retireReason.map (fun x => [enum8 RetireReason.all x]) ]

/-- The fields from offset 12 on, in table order (Table 11-9): the always-present ones between the optional. -/
def recordBody (r : Record) : List Field :=
  let opt (n : Nat) : List Field := ((optFields r)[n]?.bind id).getD []
  [.u8 r.cls, enum8 RecState.all r.state, .u32 r.stamp.time, .u8 r.stamp.station] ++
    opt 0 ++ opt 1 ++ opt 2 ++ opt 3 ++ opt 4 ++ opt 5 ++ opt 6 ++ opt 7 ++ opt 8 ++
    [.u8 r.retests] ++ opt 9 ++ opt 10 ++ opt 11 ++ opt 12 ++
    counted (r.conds.map (fun c => [enum8 Cond.all c])) ++ opt 13 ++ opt 14 ++ opt 15

/-- Bytes filled up with 0 to `n`. -/
def padTo (n : Nat) (bs : List Byte) : List Byte := (bs ++ List.replicate (n - bs.length) 0).take n

/-- A block of 254 bytes of content and its check. -/
def checkedBlock (content : List Byte) : List Byte := padTo 254 content ++ crcBytes (padTo 254 content)

/-- A record block (Table 11-9). -/
def recordBlock (rev : Nat) (r : Record) (live : Bool) : List Byte :=
  checkedBlock (fieldBytes ([.u8 1, .u16 rev, .u8 r.row, .u16 r.bay, .u8 r.gen,
    .u32 (flags ((optFields r).map Option.isSome)), flag8 live] ++ recordBody r))

/-- An empty-marked block (Table 11-9). -/
def emptyBlock (rev : Nat) : List Byte := checkedBlock (fieldBytes [.u8 2, .u16 rev])

/-- A grout result (Table 1-1, R182). -/
def rdGrout : Rd GroutResult := do
  let m ← rdNat 1
  let volume ← rdNat 4
  let peak ← rdNat 4
  let reason ← rdOpt m 0 (rdEnum EndReason.all)
  let endTime ← rdOpt m 1 (rdNat 4)
  pure { volume, peak, reason, endTime }

/-- A stress result (Table 1-1, R182). -/
def rdStress : Rd StressResult := do
  let m ← rdNat 1
  let datumTarget ← rdNat 2
  let testTarget ← rdNat 2
  let residualTarget ← rdNat 2
  let windows ← rdEnum Windows.all
  let creepA ← rdInt
  let creepB ← rdOpt m 0 rdInt
  let freeLength ← rdOpt m 1 (rdNat 4)
  let jackLoad ← rdOpt m 2 (rdNat 2)
  let drawIn ← rdOpt m 3 (rdNat 2)
  let residual ← rdOpt m 4 (rdNat 2)
  let makeups ← rdNat 1
  let restrokes ← rdNat 1
  let verdict ← rdEnum Verdict.all
  pure { datumTarget, testTarget, residualTarget, windows, creepA, creepB, freeLength, jackLoad, drawIn, residual,
         makeups, restrokes, verdict }

/-- The revision, the record and the live flag that a record block's content holds (Table 11-9). -/
def rdRecord : Rd (Nat × Record × Bool) := do
  let rev ← rdNat 2
  let row ← rdNat 1
  let bay ← rdNat 2
  let gen ← rdNat 1
  let m ← rdNat 4
  let live ← rdFlag
  let cls ← rdNat 1
  let state ← rdEnum RecState.all
  let time ← rdNat 4
  let station ← rdNat 1
  let freeOv ← rdOpt m 0 (rdNat 2)
  let bondOv ← rdOpt m 1 (rdNat 2)
  let context ← rdOpt m 2 (rdNat 1)
  let heldKind ← rdOpt m 3 (rdEnum CtxKind.all)
  let heldReason ← rdOpt m 4 (rdEnum HeldReason.all)
  let insertion ← rdOpt m 5 (rdNat 4)
  let grout ← rdOpt m 6 rdGrout
  let cureEnd ← rdOpt m 7 (rdNat 4)
  let stress ← rdOpt m 8 rdStress
  let retests ← rdNat 1
  let lockoffLoad ← rdOpt m 9 (rdNat 2)
  let liftoffLoad ← rdOpt m 10 (rdNat 2)
  let binding ← rdOpt m 11 (do
    let st ← rdNat 1
    let ch ← rdNat 1
    pure ({ station := st, channel := ch } : Binding))
  let monitored ← rdOpt m 12 (do
    let load ← rdNat 2
    let time ← rdNat 4
    pure ({ load, time } : MonitoredLoad))
  let conds ← rdList (rdEnum Cond.all)
  let replaces ← rdOpt m 13 (rdNat 2)
  let replacedBy ← rdOpt m 14 (rdNat 2)
  let retireReason ← rdOpt m 15 (rdEnum RetireReason.all)
  pure (rev, { row, bay, gen, cls, state, stamp := { time, station }, freeOv, bondOv, context, heldKind, heldReason,
               insertion, grout, cureEnd, stress, retests, lockoffLoad, liftoffLoad, binding, monitored, conds,
               replaces, replacedBy, retireReason }, live)

/-! ## What makes a record sound (R178) -/

/-- A key within its ranges (R1). -/
def keyOk (row bay gen : Nat) : Bool :=
  1 ≤ row ∧ row ≤ Config.rowCount ∧ 1 ≤ bay ∧ bay ≤ Config.bayCount ∧ gen ≤ Config.maxGeneration

/-- A free length override within its range (Table 1-1). -/
def freeOvOk (n : Nat) : Bool := 3000 ≤ n ∧ n ≤ 60000
/-- A bond length override within its range (Table 1-1). -/
def bondOvOk (n : Nat) : Bool := 3000 ≤ n ∧ n ≤ 20000

/-- An absent value, or one that a test holds of. -/
def optOk {α : Type} (o : Option α) (p : α → Bool) : Bool := o.all p

/-- The ranges of a stress result, and the parts its verdict leaves absent (Tables 1-1 and 6-4). -/
def StressResult.ok (x : StressResult) : Bool :=
  x.datumTarget ≤ Config.maxLoad ∧ x.testTarget ≤ Config.maxLoad ∧ x.residualTarget ≤ Config.maxLoad ∧
    x.restrokes ≤ 8 ∧ optOk x.jackLoad (· ≤ Config.maxLoad) ∧ optOk x.drawIn (· ≤ Config.maxStroke) ∧
    optOk x.residual (· ≤ Config.maxLoad) ∧ (x.creepB.isSome ↔ x.windows = .aAndB) ∧
    (x.freeLength.isSome ↔ x.verdict ≠ .creepFail) ∧
    (x.jackLoad.isSome ↔ x.verdict = .pass ∨ x.verdict = .lockoffFail) ∧
    (x.drawIn.isSome ↔ x.verdict = .pass ∨ x.verdict = .lockoffFail) ∧
    (x.residual.isSome ↔ x.verdict = .pass ∨ x.verdict = .lockoffFail) ∧
    (x.verdict = .creepFail → x.windows = .aAndB)

/-- The held kinds a held reason occurs with (Table 1-2). -/
def heldReasonFits : HeldReason → CtxKind → Bool
  | .aborted, _ | .lost, _ | .restart, _ | .power, _ => true
  | .operator, k | .overload, k | .overrange, k => k = .stress ∨ k = .destress
  | .burst, k | .groutLoss, k | .groutShort, k => k = .grout
  | .insertLength, k => k = .insert
  | .noLiftoff, k => k = .destress

/-- The ranges of Table 1-1, with the held kinds of Table 1-2. DESIGN CHOICE (assumption log 39): a condition set is listed in
ascending priority. -/
def Record.inRange (r : Record) : Bool :=
  keyOk r.row r.bay r.gen ∧ r.cls < Config.classCount ∧ (r.stamp.station < 16 ∨ r.stamp.station = Config.partStation) ∧
    optOk r.heldReason (fun x => optOk r.heldKind (heldReasonFits x)) ∧ optOk r.freeOv freeOvOk ∧
    optOk r.bondOv bondOvOk ∧ optOk r.context (· < Config.contextCount) ∧
    optOk r.grout (fun g => g.peak ≤ Config.maxPressure) ∧ optOk r.stress StressResult.ok ∧ r.retests ≤ 2 ∧
    optOk r.lockoffLoad (· ≤ Config.maxLoad) ∧ optOk r.liftoffLoad (· ≤ Config.maxLoad) ∧
    optOk r.binding (fun b => 1 ≤ b.station ∧ b.station < 16 ∧ b.channel < 8) ∧
    optOk r.monitored (fun m => m.load ≤ Config.maxLoad) ∧ r.conds.Pairwise (fun c d => c.priority < d.priority) ∧
    r.conds.all (fun c => c.allowedOn (.record 0)) ∧ optOk r.replaces (· < Config.slotCount) ∧
    optOk r.replacedBy (· < Config.slotCount)

/-- How far along the life cycle a record is, read through a hold: 0 before the insertion, 1 in it, 2 from INSERTED
to the end of the grouting, 3 CURING, 4 from READY to the verdict, 5 from LOCKED on, 6 RETIRED. A SUSPECT record holds
nothing of the life cycle (R23). -/
def Record.stage (r : Record) : Nat :=
  match r.state, r.heldKind with
  | .planned, _ | .bored, _ | .suspect, _ => 0
  | .inserting, _ | .held, some .insert => 1
  | .inserted, _ | .grouting, _ | .held, some .grout => 2
  | .curing, _ => 3
  | .ready, _ | .stressing, _ | .failed, _ | .held, some .stress => 4
  | .locked, _ | .destressing, _ | .held, some .destress => 5
  | .retired, _ | .held, none => 6

/-- Whether the end reason of a grout result is one that the last ending of its record can have written (Table 4-3): the
ending that held the record; or, beside a cure end, one that leads to CURING (R85); or else one that holds (R84, R179). -/
def Record.groutEnding (r : Record) (reason : Option EndReason) : Bool :=
  match r.heldKind, r.heldReason with
  | some .grout, some .groutShort => reason = some .operator
  | some .grout, some .groutLoss => reason = some .volumeCap
  | some .grout, some .aborted | some .grout, some .lost | some .grout, some .restart | some .grout, some .burst =>
    reason = none
  | _, _ =>
    if r.cureEnd.isSome then reason = some .refusal ∨ reason = some .operator ∨ reason = some .accepted
    else reason = none ∨ reason = some .volumeCap ∨ reason = some .operator

/-- Whether a record is held by an ending that wrote its results (R53): any but the loss of power, which leaves them as the
block holds them (R179). -/
def Record.heldByEnding (r : Record) (k : CtxKind) : Bool :=
  r.state = .held ∧ r.heldKind = some k ∧ r.heldReason ≠ some .power

/-- Whether a record shows that it has been READY: by its state, its stress result or its lock-off load. -/
def Record.wasReady (r : Record) : Bool := r.stage = 4 ∨ r.stage = 5 ∨ r.stress.isSome ∨ r.lockoffLoad.isSome

/-- Whether a record holds nothing that a life before it gave it: no result, load or link. A SUSPECT record has none, and a
CERTIFY to RETIRED gives it none (R23, R25). -/
def Record.bare (r : Record) : Bool :=
  r.insertion.isNone ∧ r.grout.isNone ∧ r.cureEnd.isNone ∧ r.stress.isNone ∧ r.lockoffLoad.isNone ∧ r.replaces.isNone ∧
    r.replacedBy.isNone

/-- What the retire reasons that only one ending gives call for, where no CERTIFY gave them: FAILED comes from the state
FAILED, which holds a stress result and no lock-off load (R56, R120), and DESTRESSED from a destressing, which has both its
loads (R124, R126). -/
def Record.retiredAs (r : Record) : Bool :=
  match r.retireReason with
  | some .failed => r.lockoffLoad.isNone ∧ (r.bare ∨ r.stress.isSome)
  | some .destressed => r.bare ∨ r.liftoffLoad.isSome
  | _ => true

/-- Whether a record holds every result on the way to its state and to the furthest field it holds: the insertion result from
INSERTED on, the grout result from CURING on, the cure end from READY on and the stress result from LOCKED on (R76, R84, R85,
R119). -/
def Record.unbroken (r : Record) : Bool :=
  (2 ≤ r.stage ∧ r.stage ≤ 5 ∨ r.grout.isSome → r.insertion.isSome) ∧
    (3 ≤ r.stage ∧ r.stage ≤ 5 ∨ r.cureEnd.isSome → r.grout.isSome) ∧
    (4 ≤ r.stage ∧ r.stage ≤ 5 ∨ r.stress.isSome → r.cureEnd.isSome) ∧
    (r.stage = 5 ∨ r.lockoffLoad.isSome → r.stress.isSome)

/-- Whether the fields of a record that come after one another in its life stand together, in every state. A CERTIFY begins
that life at its target without results (R25), so each field calls for the next before a later one, and never for an earlier:
an insertion result for a grout result from CURING on (R84), a grout result for its cure end from READY on (R85), a cure end
for the stress result of the PASS before a lock-off load (R119). A PASS and a lock-off load stand together in a record with
a stress result (R119, R120), a retest follows a failing verdict, and a record that goes on with a stress result has been
retested (R56, R121), and a lift-off load and a monitored load follow entry to LOCKED (R124, R131). A REPLACE gives no
generation 0, and none is made of generation 3 (R4, R21, R22); no CERTIFY moves the record it makes, so that one is unbroken
(R23). DEDUCED (assumption log 22). -/
def Record.coherent (r : Record) : Bool :=
  (r.insertion.isSome → (r.cureEnd.isSome ∨ r.wasReady) → r.grout.isSome) ∧
    (r.grout.isSome → r.wasReady → r.cureEnd.isSome) ∧ (r.cureEnd.isSome → r.lockoffLoad.isSome → r.stress.isSome) ∧
    optOk r.stress (fun x => decide (x.verdict = .pass) == r.lockoffLoad.isSome) ∧ (0 < r.retests → r.stress.isSome) ∧
    (r.stage = 4 → r.state ≠ .failed → r.stress.isSome → 0 < r.retests) ∧
    (r.liftoffLoad.isSome → r.lockoffLoad.isSome) ∧ (r.monitored.isSome → r.lockoffLoad.isSome) ∧ r.retiredAs ∧
    (r.replaces.isSome → 0 < r.gen ∧ r.unbroken) ∧ (r.replacedBy.isSome → r.gen < Config.maxGeneration)

/-- The presence conditions of Table 1-1 (R2): what a record's state rules out, and what it calls for. A record that
CERTIFY moved holds no results (R25), so results are called for only where no CERTIFY leads: in FAILED (R120, R121) and
in a hold that an ending made (R53, R77, R84). A SUSPECT one, and no other, holds IMAGE_SUSPECT, with class 0 and without links and
overrides (R23, R25). DEDUCED (assumption log 22). -/
def Record.presence (r : Record) : Bool :=
  r.coherent ∧
  (r.context.isSome ↔ r.state.isWork = true) ∧ (r.heldKind.isSome ↔ r.state = .held) ∧
    (r.heldReason.isSome ↔ r.state = .held) ∧ (r.retireReason.isSome ↔ r.state = .retired) ∧
    (r.insertion.isSome → 1 ≤ r.stage) ∧ (r.grout.isSome → 2 ≤ r.stage ∧ r.state ≠ .inserted) ∧
    (r.cureEnd.isSome → 3 ≤ r.stage) ∧ (r.state = .curing → r.cureEnd.isSome) ∧ (r.stress.isSome → 4 ≤ r.stage) ∧
    (r.lockoffLoad.isSome → 5 ≤ r.stage) ∧ (r.stage = 5 → r.lockoffLoad.isSome) ∧
    (r.liftoffLoad.isSome → 5 ≤ r.stage ∧ r.state ≠ .locked) ∧ (r.monitored.isSome → 5 ≤ r.stage) ∧
    (r.binding.isSome → r.state = .locked) ∧ (r.state = .failed → r.stress.isSome) ∧
    (r.heldByEnding .insert → r.insertion.isSome) ∧ (r.heldByEnding .grout → r.grout.isSome) ∧
    optOk r.grout (fun g => decide (g.reason.isSome = g.endTime.isSome) && r.groutEnding g.reason) ∧
    (.imageSuspect ∈ r.conds ↔ r.state = .suspect) ∧
    (r.state = .suspect → r.cls = 0 ∧ r.freeOv.isNone ∧ r.bondOv.isNone ∧ r.replaces.isNone ∧ r.replacedBy.isNone)

/-! ## Header (Table 11-10) -/

/-- A status byte: UNSET 1, SET 2 (R27, R89, R182). -/
def status8 (set : Bool) : Field := .u8 (if set then 2 else 1)

/-- The four settings of an input, by their codes (Table 8-1). -/
def InputSettings.fields (x : InputSettings) : List Field :=
  [.u8 (if x.enabled then 1 else 2), enum8 Contact.all x.asserts, .u8 x.filter, enum8 InputFunction.all x.function]

/-- The site settings in the order of Table 2-2. -/
def SiteSettings.fields (x : SiteSettings) : List Field :=
  [.u8 x.span, .u8 x.digRow] ++ x.relieved.toList.map flag8 ++ x.levels.toList.map Field.u8 ++
    [.u8 x.alarm, .u16 x.drift] ++ x.inputs.toList.flatMap InputSettings.fields ++
    [.u16 x.scanMin, .u8 x.silence, .u16 x.suspend]

/-- The fields of Table 2-1 from DWL to creep limit B. -/
def ClassEntry.fields1 (c : ClassEntry) : List Field :=
  [.u16 c.dwl, .u8 c.datum] ++ counted (c.stages.map (fun n => [.u8 n])) ++
    [.u8 c.test, .u8 c.lockoff, .u16 c.lockWindow, .u16 c.tolerance, .u16 c.stageHold, .u16 c.tA0, .u16 c.tA1,
      .u16 c.limitA, .u16 c.tB0, .u16 c.tB1, .u16 c.limitB]

/-- The fields of Table 2-1 from strand count to destress step hold. -/
def ClassEntry.fields2 (c : ClassEntry) : List Field :=
  [.u8 c.strands, .u16 c.area, .u32 c.modulus, .u16 c.freeLen, .u16 c.bondLen, .u16 c.jacking, .u8 c.lower, .u8 c.upper,
    .u16 c.drawIn, .u16 c.insTol, .u16 c.maxPull, .u32 c.theoVol, .u16 c.volCap, .u16 c.refPress, .u16 c.refTime,
    .u16 c.burst, .u32 c.cure, .u8 c.destStep, .u16 c.destHold]

/-- A calibration point. -/
def CalPoint.fields (p : CalPoint) : List Field := [.u32 p.pressure, .u16 p.load]

/-- A class entry in its 128 bytes. -/
def classBytes (c : Option ClassEntry) : List Byte :=
  padTo 128 (fieldBytes (match c with
    | some e => status8 true :: (e.fields1 ++ e.fields2)
    | none => [status8 false]))

/-- A calibration table in its 64 bytes. -/
def calBytes (t : Option (List CalPoint)) : List Byte :=
  padTo 64 (fieldBytes (match t with
    | some ps => status8 true :: counted (ps.map CalPoint.fields)
    | none => [status8 false]))

/-- The enrolment of one station. DESIGN CHOICE (assumption log 39): the two bytes of the kind parameter hold 0 where the
station has none, and the inhibits share one flag byte, Line A bit 0 and Line B bit 1. -/
def Station.enrolment (x : Station) : List Field :=
  [enum8 StationKind.all x.kind, .u8 x.retry, .u8 (flags [x.inhibits.a, x.inhibits.b]), .u16 (x.param.getD 0)]

/-- The header's content: blocks 0 to 14 whole and 254 bytes of block 15 (Table 11-10). -/
def State.headerContent (s : State) : List Byte :=
  padTo 256 (fieldBytes (.u32 s.wck.time :: s.tbc.site.fields)) ++
    (List.range 16).flatMap (fun n => classBytes (s.classAt n)) ++
    (List.range 15).flatMap (fun n => calBytes (s.calAt (n + 1))) ++ List.replicate 64 0 ++
    padTo 256 (fieldBytes ((List.range 16).flatMap (fun n => (s.stationAt n).enrolment))) ++
    List.replicate 510 0

/-- Cut bytes into blocks of 256. -/
def toBlocks : (fuel : Nat) → List Byte → List (List Byte)
  | 0, _ => []
  | fuel + 1, bs => if bs.isEmpty then [] else bs.take Config.blockSize :: toBlocks fuel (bs.drop Config.blockSize)

/-- The blocks an item's snapshot holds (R174). -/
def State.snapshot (s : State) : Item → List (List Byte)
  | .header => toBlocks Config.headerBlocks (s.headerContent ++ crcBytes s.headerContent)
  | .slot n =>
    match s.slotAt n with
    | { rev, rec? := some r } => [recordBlock rev r (s.isLive n r)]
    | { rev, rec? := none } => [emptyBlock rev]

/-- The first image block of an item (Table 10-1). -/
def Item.firstBlock : Item → Nat
  | .header => 0
  | .slot n => Config.headerBlocks + n

/-- What a sound header gives a restore (R177). -/
structure Header where
  time : Nat
  site : SiteSettings
  classes : Table ClassEntry
  cals : Table (List CalPoint)
  stations : Vector Station 16
deriving DecidableEq, Repr

/-- The first `n` values of a list as a vector, missing ones filled with `d`. -/
def vectorOf {α : Type} (n : Nat) (d : α) (l : List α) : Vector α n := Vector.ofFn (fun i : Fin n => (l[i.val]?).getD d)

/-- The four settings of an input (Table 8-1). DEDUCED (assumption log 22): an enable byte that is neither ENABLED 1 nor
DISABLED 2 does not read. -/
def rdInput : Rd InputSettings := do
  let enabled ← rdEnum [true, false]
  let asserts ← rdEnum Contact.all
  let filter ← rdNat 1
  let function ← rdEnum InputFunction.all
  pure { enabled, asserts, filter, function }

/-- The site settings in the order of Table 2-2. -/
def rdSite : Rd SiteSettings := do
  let span ← rdNat 1
  let digRow ← rdNat 1
  let relieved ← rdTimes rdFlag 12
  let levels ← rdTimes (rdNat 1) 17
  let alarm ← rdNat 1
  let drift ← rdNat 2
  let inputs ← rdTimes rdInput 4
  let scanMin ← rdNat 2
  let silence ← rdNat 1
  let suspend ← rdNat 2
  pure { span, digRow, relieved := vectorOf 12 false relieved, levels := vectorOf 17 0 levels, alarm, drift,
         inputs := vectorOf 4 InputSettings.other inputs, scanMin, silence, suspend }

/-- A class entry (Table 2-1). DEDUCED (assumption log 22): a status byte that is neither UNSET nor SET does not read. -/
def rdClass : Rd (Option ClassEntry) := do
  let set ← rdStatus
  if set then do
    let dwl ← rdNat 2
    let datum ← rdNat 1
    let stages ← rdList (rdNat 1)
    let test ← rdNat 1
    let lockoff ← rdNat 1
    let lockWindow ← rdNat 2
    let tolerance ← rdNat 2
    let stageHold ← rdNat 2
    let tA0 ← rdNat 2
    let tA1 ← rdNat 2
    let limitA ← rdNat 2
    let tB0 ← rdNat 2
    let tB1 ← rdNat 2
    let limitB ← rdNat 2
    let strands ← rdNat 1
    let area ← rdNat 2
    let modulus ← rdNat 4
    let freeLen ← rdNat 2
    let bondLen ← rdNat 2
    let jacking ← rdNat 2
    let lower ← rdNat 1
    let upper ← rdNat 1
    let drawIn ← rdNat 2
    let insTol ← rdNat 2
    let maxPull ← rdNat 2
    let theoVol ← rdNat 4
    let volCap ← rdNat 2
    let refPress ← rdNat 2
    let refTime ← rdNat 2
    let burst ← rdNat 2
    let cure ← rdNat 4
    let destStep ← rdNat 1
    let destHold ← rdNat 2
    pure (some { dwl, datum, stages, test, lockoff, lockWindow, tolerance, stageHold, tA0, tA1, limitA, tB0, tB1,
                 limitB, strands, area, modulus, freeLen, bondLen, jacking, lower, upper, drawIn, insTol, maxPull,
                 theoVol, volCap, refPress, refTime, burst, cure, destStep, destHold })
  else pure none

/-- A calibration table. DEDUCED (assumption log 22): a status byte that is neither UNSET nor SET does not read. -/
def rdCal : Rd (Option (List CalPoint)) := do
  let set ← rdStatus
  if set then do
    let ps ← rdList (do
      let pressure ← rdNat 4
      let load ← rdNat 2
      pure ({ pressure, load } : CalPoint))
    pure (some ps)
  else pure none

/-- The enrolment of one station; a kind without a parameter holds none (R161). -/
def rdStation : Rd Station := do
  let kind ← rdEnum StationKind.all
  let retry ← rdNat 1
  let inh ← rdNat 1
  let param ← rdNat 2
  pure (Station.powered kind retry { a := inh.testBit 0, b := inh.testBit 1 }
    (match kind with
      | .winch | .grout | .monitor => some param
      | _ => none))

/-- One reader's value from the front of bytes. -/
def readFront {α : Type} (r : Rd α) (bs : List Byte) : Option α := (r bs).map Prod.fst

/-- A table of the values present in a list, keyed from `n` upward. -/
def tableFrom {α : Type} (n : Nat) : List (Option α) → Table α
  | [] => []
  | some x :: xs => (n, x) :: tableFrom (n + 1) xs
  | none :: xs => tableFrom (n + 1) xs

/-- Values read at regular distances, `w` bytes apart; none when one does not read. -/
def readEvery {α : Type} (r : Rd α) (w : Nat) : (count : Nat) → List Byte → Option (List α)
  | 0, _ => some []
  | count + 1, bs =>
    match readFront r bs, readEvery r w count (bs.drop w) with
    | some x, some xs => some (x :: xs)
    | _, _ => none

/-- The header's bytes read back (Table 11-10); none when its check fails or its fields do not read. -/
def readHeader (bs : List Byte) : Option Header :=
  if crcBytes (bs.take 4094) ≠ (bs.drop 4094).take 2 then none
  else
    match readFront (do
        let t ← rdNat 4
        let x ← rdSite
        pure (t, x)) bs,
      readEvery rdClass 128 16 (bs.drop 256), readEvery rdCal 64 15 (bs.drop 2304),
      readEvery rdStation 5 16 (bs.drop 3328) with
    | some (time, site), some classes, some cals, some stations =>
      some { time := time, site := site, classes := tableFrom 0 classes, cals := tableFrom 1 cals,
             stations := vectorOf 16 Station.unenrolled stations }
    | _, _, _, _ => none

/-! ## Taking a record block (R178) -/

/-- What a restore takes a record block to be (R178). -/
inductive Taken where
  | free (rev : Nat)
  | sound (rev : Nat) (r : Record) (live : Bool)
  | suspect (row bay gen : Nat)
deriving DecidableEq, Repr

/-- A block whose check fails: SUSPECT by its key field, or FREE (R178). -/
def takeFailed (bs : List Byte) : Taken :=
  let row := beNat ((bs.drop 3).take 1)
  let bay := beNat ((bs.drop 4).take 2)
  let gen := beNat ((bs.drop 6).take 1)
  if keyOk row bay gen then .suspect row bay gen else .free Config.freshRevision

/-- A record block with a passing check: sound, or taken as failed (R178). -/
def takePassed (bs : List Byte) : Taken :=
  match beNat (bs.take 1) with
  | 1 =>
    match readFront rdRecord (bs.drop 1) with
    | some (rev, r, live) => if r.inRange ∧ r.presence then .sound rev r live else takeFailed bs
    | none => takeFailed bs
  | 2 => .free (beNat ((bs.drop 1).take 2))
  | _ => takeFailed bs

/-- Take a record block as read; `broken` says it was not delivered or stands part-written (R175, R178). -/
def takeBlock (bs : List Byte) (broken : Bool) : Taken :=
  if broken ∨ crcBytes (bs.take 254) ≠ (bs.drop 254).take 2 then takeFailed bs else takePassed bs

end Sys2Proof.Machine
end

