-- ==== Sys2Proof/Decode.lean ====
section
/-! DEFINITION. From bits to commands. The opcode table gives no row any bits, so no word spells a command and
Sys2Proof.decodeTableWord answers none. What the spec does give bytes are the frames of the works bus: this file reads a
received frame (R160), a REPLY (Table 11-5) and an ASK (section 11.3, R182, R183) into the command it is. Where the spec
gives the items of an ASK but not their bytes, the layout is the model's (assumption log 12). -/

namespace Sys2Proof

/-- The command that a word spells by the table's bits: the table gives its rows none (assumption log 10). -/
def decodeTableWord (_nbits _w : Nat) : Option Instr := none

end Sys2Proof

namespace Sys2Proof.Machine

/-! ## Frames (R160, Table 11-2) -/

/-- A received frame taken apart, when its length is consistent and its check passes: address, kind, payload (R160). -/
def readFrame (bs : List Byte) : Option (Nat × Nat × List Byte) :=
  let n := beNat ((bs.drop 2).take 1)
  if bs.length = n + 5 ∧ n ≤ 64 ∧ crcBytes (bs.take (n + 3)) = bs.drop (n + 3) then
    some (beNat (bs.take 1), beNat ((bs.drop 1).take 1), (bs.drop 3).take n)
  else none

/-- A value that the bytes hold exactly: none when they are too few or too many. -/
def readAll {α : Type} (r : Rd α) (bs : List Byte) : Option α :=
  match r bs with
  | some (x, []) => some x
  | _ => none

/-! ## Replies (Table 11-5) -/

/-- The telemetry of a declared kind; the kind flags are a jack's alone. -/
def rdTelemetry (kind : StationKind) (kindFlags channels : Nat) : Rd Telemetry :=
  match kind with
  | .supervisor => pure .supervisor
  | .winch => do
    let c ← rdNat 2
    let t ← rdNat 2
    pure (.winch c t)
  | .grout => do
    let c ← rdNat 2
    let p ← rdNat 4
    pure (.grout c p)
  | .jack => do
    let p ← rdNat 4
    let x ← rdNat 2
    pure (.jack p x (kindFlags.testBit 0) (kindFlags.testBit 1) (kindFlags.testBit 2) (kindFlags.testBit 3))
  | .monitor => do
    let chs ← rdTimes (do
      let l ← rdNat 2
      let v ← rdFlag
      pure (l, v)) channels
    pure (.monitor chs)
  | .none => failure

/-- The telemetry after the three head bytes of a REPLY that declares kind `k`; none when the head is not whole or the
bytes do not fill the kind's length (Table 11-5). -/
def replyData (k : StationKind) (channels : Nat) (payload : List Byte) : Option Telemetry :=
  if payload.length < 3 then none
  else readAll (rdTelemetry k (beNat ((payload.drop 2).take 1)) channels) (payload.drop 3)

/-- The payload of a REPLY, for a station enrolled with `kind` and a channel count (R160, section 11.2). The length
its declared kind gives is judged before the kind (CHECK, then KIND), but for a MONITOR the kind first; a code that
is no kind, or NONE, gives no length. -/
def readReply (kind : StationKind) (channels : Nat) (payload : List Byte) : Except FrameError Reply :=
  let fl := beNat ((payload.drop 1).take 1)
  match payload, readFront (rdEnum StationKind.all) payload with
  | [], _ => .error .check
  | _, none | _, some .none => .error .kind
  | _, some k =>
    if k = .monitor ∧ kind ≠ .monitor then .error .kind
    else
      match replyData k channels payload with
      | none => .error .check
      | some d =>
        if k ≠ kind then .error .kind
        else .ok { srq := fl.testBit 0, busy := fl.testBit 1, fault := fl.testBit 2, data := d }

/-! ## Requests (section 11.3) -/

/-- A request read from its fields; none where a field that selects a form holds no form's code. -/
abbrev RdAsk := Rd (Option Instr)

/-- An optional item of `w` bytes. -/
def rdItem (mask bit w : Nat) : Rd (Option Nat) := rdOpt mask bit (rdNat w)

/-- A mask of the 4 bytes of R182 that names items below `n` alone. -/
def rdMask (n : Nat) : Rd Nat := do
  let m ← rdNat 4
  if m < 2 ^ n then pure m else failure

/-- FIND: the target by its mask (slot, or row and bay), then the view. -/
def rdFind (h : Ask) : RdAsk := do
  let m ← rdMask 2
  let slot ← rdItem m 0 2
  let pos ← rdOpt m 1 (do
    let row ← rdNat 1
    let bay ← rdNat 2
    pure (row, bay))
  let view ← rdNat 1
  match slot, pos with
  | some n, none => pure (some (.find h (.slot n) view))
  | none, some (row, bay) => pure (some (.find h (.position row bay) view))
  | _, _ => pure none

/-- LIST: the states behind their count, the row range, the flag, the start slot. -/
def rdListAsk (h : Ask) : RdAsk := do
  let states ← rdList (rdNat 1)
  let first ← rdNat 1
  let last ← rdNat 1
  let hasCond ← rdFlag
  let start ← rdNat 2
  pure (some (.list h states first last hasCond start))

/-- CREATE: row, bay, class, and the overrides behind their mask. -/
def rdCreate (h : Ask) : RdAsk := do
  let row ← rdNat 1
  let bay ← rdNat 2
  let cls ← rdNat 1
  let m ← rdMask 2
  let freeOv ← rdItem m 0 2
  let bondOv ← rdItem m 1 2
  pure (some (.create h row bay cls freeOv bondOv))

/-- An override action by its code: keep 1, set 2 with its value, remove 3. -/
def rdAction : Rd (Option OverrideAction) := do
  let code ← rdNat 1
  match code with
  | 1 => pure (some .keep)
  | 2 => do
    let mm ← rdNat 2
    pure (some (.set mm))
  | 3 => pure (some .remove)
  | _ => pure none

/-- The class action by its code: keep 1, set 2 with its value. -/
def rdClassAction : Rd (Option (Option Nat)) := do
  let code ← rdNat 1
  match code with
  | 1 => pure (some none)
  | 2 => do
    let c ← rdNat 1
    pure (some (some c))
  | _ => pure none

/-- AMEND: slot, revision, and the three actions. -/
def rdAmend (h : Ask) : RdAsk := do
  let slot ← rdNat 2
  let rev ← rdNat 2
  let cls ← rdClassAction
  let freeOv ← rdAction
  let bondOv ← rdAction
  match cls, freeOv, bondOv with
  | some c, some f, some b => pure (some (.amend h slot rev c f b))
  | _, _, _ => pure none

/-- A request of a slot and a revision. -/
def rdSlotRev (f : Nat → Nat → Instr) : RdAsk := do
  let slot ← rdNat 2
  let rev ← rdNat 2
  pure (some (f slot rev))

/-- REPLACE: slot, revision, and the class behind its mask. -/
def rdReplace (h : Ask) : RdAsk := do
  let slot ← rdNat 2
  let rev ← rdNat 2
  let m ← rdMask 1
  let cls ← rdItem m 0 1
  pure (some (.replace h slot rev cls))

/-- CERTIFY: slot, revision, target, class, and the optional items behind their mask. -/
def rdCertify (h : Ask) : RdAsk := do
  let slot ← rdNat 2
  let rev ← rdNat 2
  let target ← rdNat 1
  let cls ← rdNat 1
  let m ← rdMask 5
  let freeOv ← rdItem m 0 2
  let bondOv ← rdItem m 1 2
  let cureEnd ← rdItem m 2 4
  let lockoff ← rdItem m 3 2
  let reason ← rdItem m 4 1
  pure (some (.certify h slot rev target cls freeOv bondOv cureEnd lockoff reason))

/-- START: kind, slot, station, revision. -/
def rdStart (h : Ask) : RdAsk := do
  let kind ← rdNat 1
  let slot ← rdNat 2
  let station ← rdNat 1
  let rev ← rdNat 2
  pure (some (.start h kind slot station rev))

/-- RESUME: slot, revision, and the station. DESIGN CHOICE (assumption log 12): R52 refuses "a missing station", so the station
is read as an item that may be absent, behind a mask of its own, and not as a fixed field. -/
def rdResume (h : Ask) : RdAsk := do
  let slot ← rdNat 2
  let rev ← rdNat 2
  let m ← rdMask 1
  let station ← rdItem m 0 1
  pure (some (.resume h slot rev station))

/-- CLOSE: slot, revision, decision in the order of R56. -/
def rdClose (h : Ask) : RdAsk := do
  let slot ← rdNat 2
  let rev ← rdNat 2
  let decision ← rdNat 1
  match decision with
  | 1 => pure (some (.closeWithdraw h slot rev))
  | 2 => pure (some (.closeAccept h slot rev))
  | 3 => pure (some (.closeRestart h slot rev))
  | 4 => pure (some (.closeRetest h slot rev))
  | 5 => pure (some (.closeAbandon h slot rev))
  | _ => pure none

/-- The first part of a CLASS_WRITE with SET: the mask names the seven fields that may be left out. -/
def rdPart1 : Rd ClassPart1 := do
  let m ← rdMask 7
  let dwl ← rdNat 2
  let datum ← rdNat 1
  let stages ← rdOpt m 0 (rdList (rdNat 1))
  let test ← rdNat 1
  let lockoff ← rdNat 1
  let lockWindow ← rdNat 2
  let tolerance ← rdNat 2
  let stageHold ← rdNat 2
  let tA0 ← rdItem m 1 2
  let tA1 ← rdItem m 2 2
  let limitA ← rdItem m 3 2
  let tB0 ← rdItem m 4 2
  let tB1 ← rdItem m 5 2
  let limitB ← rdItem m 6 2
  pure { dwl, datum, stages, test, lockoff, lockWindow, tolerance, stageHold, tA0, tA1, limitA, tB0, tB1, limitB }

/-- The second part of a CLASS_WRITE: the mask names the two bounds. -/
def rdPart2 : Rd ClassPart2 := do
  let m ← rdMask 2
  let strands ← rdNat 1
  let area ← rdNat 2
  let modulus ← rdNat 4
  let freeLen ← rdNat 2
  let bondLen ← rdNat 2
  let jacking ← rdNat 2
  let lower ← rdItem m 0 1
  let upper ← rdItem m 1 1
  let drawIn ← rdNat 2
  let insTol ← rdNat 2
  let maxPull ← rdNat 2
  let theoVol ← rdNat 4
  let volCap ← rdNat 2
  let refPress ← rdNat 2
  let refTime ← rdNat 2
  let burst ← rdNat 2
  let cure ← rdNat 4
  let destStep ← rdNat 1
  let destHold ← rdNat 2
  pure { strands, area, modulus, freeLen, bondLen, jacking, lower, upper, drawIn, insTol, maxPull, theoVol, volCap,
         refPress, refTime, burst, cure, destStep, destHold }

/-- CLASS_WRITE: part, class, and in part 1 the word UNSET (1) or SET (2), then the fields (R183). -/
def rdClassWrite (h : Ask) : RdAsk := do
  let part ← rdNat 1
  let cls ← rdNat 1
  match part with
  | 1 => do
    let word ← rdNat 1
    match word with
    | 1 => pure (some (.classWrite h cls .unset))
    | 2 => do
      let p ← rdPart1
      pure (some (.classWritePart1 h cls p))
    | _ => pure none
  | 2 => do
    let q ← rdPart2
    pure (some (.classWrite h cls (.part2 q)))
  | _ => pure none

/-- The four settings of one input. -/
def rdInputCodes : Rd InputCodes := do
  let enable ← rdNat 1
  let polarity ← rdNat 1
  let filter ← rdNat 1
  let function ← rdNat 1
  pure { enable, polarity, filter, function }

/-- `n` optional items from bit `bit` of a mask on. -/
def rdOpts {α : Type} (mask bit : Nat) (r : Rd α) : Nat → Rd (List (Option α))
  | 0 => pure []
  | n + 1 => do
    let x ← rdOpt mask bit r
    let xs ← rdOpts mask (bit + 1) r n
    pure (x :: xs)

/-- SITE_WRITE: the 28 items of R34 behind their mask. -/
def rdSiteWrite (h : Ask) : RdAsk := do
  let m ← rdMask 28
  let span ← rdItem m 0 1
  let levels ← rdOpts m 1 (rdNat 1) 17
  let alarm ← rdItem m 18 1
  let drift ← rdItem m 19 2
  let inputs ← rdOpts m 20 rdInputCodes 4
  let scanMin ← rdItem m 24 2
  let silence ← rdItem m 25 1
  let suspend ← rdItem m 26 2
  let scale ← rdItem m 27 1
  pure (some (.siteWrite h { span, levels := vectorOf 17 none levels, alarm, drift, inputs := vectorOf 4 none inputs,
                             scanMin, silence, suspend, scale }))

/-- RELIEVE: row, and the action SET 1 or CLEAR 2. -/
def rdRelieve (h : Ask) : RdAsk := do
  let row ← rdNat 1
  let action ← rdNat 1
  match action with
  | 1 => pure (some (.relieveSet h row))
  | 2 => pure (some (.relieveClear h row))
  | _ => pure none

/-- A calibration point. -/
def rdPoint : Rd CalPoint := do
  let pressure ← rdNat 4
  let load ← rdNat 2
  pure { pressure, load }

/-- CAL_WRITE: station, then the word UNSET (1) or SET (2) with the points behind their count. -/
def rdCalWrite (h : Ask) : RdAsk := do
  let station ← rdNat 1
  let word ← rdNat 1
  match word with
  | 1 => pure (some (.calWrite h station none))
  | 2 => do
    let ps ← rdList rdPoint
    pure (some (.calWrite h station (some ps)))
  | _ => pure none

/-- CAL_READ: part, station, and in part 2 the probes behind their mask (R183). -/
def rdCalRead (h : Ask) : RdAsk := do
  let part ← rdNat 1
  let station ← rdNat 1
  if part = 2 then do
    let m ← rdMask 2
    let p ← rdItem m 0 4
    let t ← rdItem m 1 2
    pure (some (.calRead h part station p t))
  else pure (some (.calRead h part station none none))

/-- STATION_WRITE: station, and the selection behind its mask; the inhibits are one flag byte, Line A bit 0 and Line B bit 1
(DESIGN CHOICE, assumption log 12). -/
def rdStationWrite (h : Ask) : RdAsk := do
  let station ← rdNat 1
  let m ← rdMask 4
  let kind ← rdItem m 0 1
  let retry ← rdItem m 1 1
  let inh ← rdItem m 2 1
  let param ← rdItem m 3 2
  pure (some (.stationWrite h station kind retry (inh.map (fun b => { a := b.testBit 0, b := b.testBit 1 })) param))

/-- LINE_WRITE: line, and the selection behind its mask: state, timeout, gap, TEST with its pattern and count. TEST
carries no other item (R157, R158), so one that does is no form, once its bytes fill every item the mask names (R182). -/
def rdLineWrite (h : Ask) : RdAsk := do
  let line ← rdNat 1
  let m ← rdMask 4
  let state ← rdItem m 0 1
  let timeout ← rdItem m 1 1
  let gap ← rdItem m 2 1
  let test ← rdOpt m 3 (do
    let pattern ← rdTimes (rdNat 1) 16
    let count ← rdNat 1
    pure (pattern, count))
  match test with
  | none => pure (some (.lineWrite h line state timeout gap))
  | some (pattern, count) =>
    if m = 8 then pure (some (.lineWriteTest h line (vectorOf 16 0 (pattern.map (BitVec.ofNat 8))) count))
    else pure none

/-- The fields of a request by its code (Table 11-6), in the order its rule names them. DESIGN CHOICE (assumption log 12):
the identity of a CLEAR's subject has two bytes. -/
def rdRequest (h : Ask) : Req → RdAsk
  | .find => rdFind h
  | .list => rdListAsk h
  | .create => rdCreate h
  | .amend => rdAmend h
  | .bored => rdSlotRev (.bored h)
  | .retire => do
    let slot ← rdNat 2
    let rev ← rdNat 2
    let reason ← rdNat 1
    pure (some (.retire h slot rev reason))
  | .replace => rdReplace h
  | .purge => do
    let slot ← rdNat 2
    pure (some (.purge h slot))
  | .certify => rdCertify h
  | .start => rdStart h
  | .begin => do
    let row ← rdNat 1
    let bay ← rdNat 2
    pure (some (.begin h row bay))
  | .abort => do
    let slot ← rdNat 2
    pure (some (.abort h slot))
  | .resume => rdResume h
  | .close => rdClose h
  | .endWork => pure (some (.endWork h))
  | .restroke => pure (some (.restroke h))
  | .classWrite => rdClassWrite h
  | .classRead => do
    let part ← rdNat 1
    let cls ← rdNat 1
    pure (some (.classRead h cls part))
  | .siteWrite => rdSiteWrite h
  | .siteRead => pure (some (.siteRead h))
  | .digQuery => pure (some (.digQuery h))
  | .digSet => do
    let row ← rdNat 1
    pure (some (.digSet h row))
  | .relieve => rdRelieve h
  | .calWrite => rdCalWrite h
  | .calRead => rdCalRead h
  | .bind => do
    let slot ← rdNat 2
    let rev ← rdNat 2
    let station ← rdNat 1
    let channel ← rdNat 1
    pure (some (.bind h slot rev station channel))
  | .unbind => rdSlotRev (.unbind h)
  | .clear => do
    let kind ← rdNat 1
    let ident ← rdNat 2
    let cond ← rdNat 1
    pure (some (.clear h kind ident cond))
  | .attentionRead => do
    let start ← rdNat 1
    let reset ← rdFlag
    pure (some (.attentionRead h start reset))
  | .timeSet => do
    let time ← rdNat 4
    pure (some (.timeSet h time))
  | .release => pure (some (.release h))
  | .inputRead => pure (some (.inputRead h))
  | .restart => pure (some (.restart h))
  | .stationWrite => rdStationWrite h
  | .stationRead => do
    let station ← rdNat 1
    pure (some (.stationRead h station))
  | .lineWrite => rdLineWrite h
  | .lineRead => do
    let line ← rdNat 1
    pure (some (.lineRead h line))

/-- The part number of an ASK in parts: the first field after its head, where it has one (R183). -/
def askPart (q : Req) (payload : List Byte) : Option Nat :=
  if q.inParts then (payload[2]?).map BitVec.toNat else none

/-- The command that the payload of an ASK is: code, further-request flag, fields (section 11.3); one that is no request
of the table is UNKNOWN_REQUEST with the reason, and the part number that its ANSWER echoes (R169, R183). An ASK too short
for its head has code 0. -/
def readAsk (station : Nat) (line : LineId) (payload : List Byte) : Instr :=
  let code := beNat (payload.take 1)
  let h : Ask := { station := station, line := line, further := (beNat ((payload.drop 1).take 1)).testBit 0 }
  match ofCode Req.all code with
  | none => .unknownRequest h code .unknownCode
  | some q =>
    match (if payload.length < 2 then none else readAll (rdRequest h q) (payload.drop 2)) with
    | some (some i) => i
    | some none => .unknownRequest h code (.selector (askPart q payload))
    | none => .unknownRequest h code (.misfit (askPart q payload))

/-! ## What a received frame is (R160, R168) -/

/-- The command that a frame received on a line is in the present exchange: a reply, a request, a bad frame, or noise
where no window is open (R159, R160, R168). -/
def State.received (s : State) (line : LineId) (bs : List Byte) : Instr :=
  match s.bmu.exchange, readFrame bs with
  | .call st l, some (addr, kind, payload) =>
    if l ≠ line then .noiseReception line
    else if addr ≠ st ∨ kind ≠ 2 then .badFrame .check
    else
      match readReply (s.stationAt st).kind ((s.stationAt st).param.getD 0) payload with
      | .ok r => .replyReceived st line r
      | .error e => .badFrame e
  | .fetch st l, some (addr, kind, payload) =>
    if l ≠ line then .noiseReception line
    else if addr ≠ st ∨ kind ≠ 4 then .badFrame .check
    else readAsk st line payload
  | .call _ l, none | .fetch _ l, none => if l = line then .badFrame .check else .noiseReception line
  | _, _ => .noiseReception line

end Sys2Proof.Machine
end

