-- ==== Sys2Proof/Machine/Contexts.lean ====
section
/-! DEFINITION. Work contexts (chapter 3): orders, binding (R51, R52), release (R53, R54), run states (R57, R58) and
the advance of a context's timers (R59, R61, R62). -/

namespace Sys2Proof.Machine

/-! ## Orders (Table 3-4, R60) -/

/-- The stop order of a station kind (Table 3-4). -/
def stopOrder : StationKind → Order
  | .grout => .stop
  | _ => .hold

/-- The unbound order of a station kind (Table 3-4). -/
def unboundOrder : StationKind → Order
  | .winch => .hold
  | .grout => .stop
  | _ => .idle

/-- Whether the CXP keeps a parting order for stations of a kind (R54). -/
def keepsParting : StationKind → Bool
  | .winch | .grout | .jack => true
  | _ => false

/-- The phase order of a context: a fault hold makes it HOLD (R69, R111). -/
def Progress.phaseOrder : Progress → Order
  | .insert p => p.order
  | .grout _ => .pump
  | .stress p => if p.faultHold then .hold else p.order
  | .destress p => if p.faultHold then .hold else p.order

/-- The order of a bound station (R60). -/
def Context.callOrder (x : Context) : Order :=
  match x.run with
  | .running => x.prog.phaseOrder
  | _ => stopOrder x.prog.kind.stationKind

/-- The order the next CALL to a rig station carries (R54, R60, R165). -/
def State.orderFor (s : State) (n : Nat) : Order :=
  match (s.stationAt n).kind with
  | .monitor => .read
  | k =>
    match (s.stationAt n).ctx.bind s.ctxAt with
    | some x => x.callOrder
    | none => ((s.cxp.parting.get? n).map Parting.order).getD (unboundOrder k)

/-! ## Binding (R51, R52) -/

/-- The latest count a station has reported (R51). A PRESENT station has reported one; otherwise the value is free
(assumption log 3). -/
def State.latestCount (s : State) (n : Nat) : Nat :=
  match (s.stationAt n).telemetry with
  | some (.winch c _) => c
  | some (.grout c _) => c
  | _ => Config.freeValue s.freeNext % 65536

/-- The latest reported stroke as clamped (R97); free when none was reported (assumption log 3). -/
def State.latestStroke (s : State) (n : Nat) : Nat :=
  match (s.stationAt n).telemetry with
  | some (.jack _ x _ _ _ _) => takeStroke x
  | _ => Config.freeValue s.freeNext % (Config.maxStroke + 1)

/-- The progress of a jack context at binding (Table 6-2, R97). DESIGN CHOICE (assumption log 38): the pre-restroke load and
the opening stroke, for which R97 gives no start value, are 0. -/
def JackProg.start (phase : JackPhase) (order : Order) (origin : Nat) : JackProg where
  phase := phase
  index := 0
  holding := false
  order := order
  faultHold := false
  timer := none
  elapsed := 0
  counting := false
  atA0 := none
  atA1 := none
  atB0 := none
  atB1 := none
  creepA := none
  creepB := none
  closing := none
  residual := none
  beforeSeat := none
  afterSeat := none
  freeLength := none
  makeups := 0
  restrokes := 0
  acc := 0
  origin := origin
  register := .closed
  preLoad := 0
  openStroke := 0
  liftoff := none
  steps := []
  pendingAdv := false
  last := none

/-- The progress a binding starts with; `resumed` carries the record's earlier payout, or volume and peak (R51,
R52, R69, R70). -/
def State.startProg (s : State) (k : CtxKind) (station : Nat) (r : Record) (resumed : Bool) : Progress :=
  let scale := (s.stationAt station).param.getD 0
  match k with
  | .insert => .insert {
      baseline := s.latestCount station, total := 0, scale := scale,
      carried := if resumed then r.insertion.getD 0 else 0, order := .run }
  | .grout => .grout {
      baseline := s.latestCount station, total := 0, scale := scale,
      carried := if resumed then (r.grout.map GroutResult.volume).getD 0 else 0,
      peak := if resumed then (r.grout.map GroutResult.peak).getD 0 else 0,
      refTimer := 0, counting := false, due := false }
  | .stress =>
    let datum := ((s.classOf r).map datumTarget).getD 0
    .stress (JackProg.start .datum (.pressure (pressureOf ((s.calAt station).getD []) datum).1) (s.latestStroke station))
  | .destress => .destress (JackProg.start .liftoff .lift (s.latestStroke station))

/-- The fields of the record that a binding sets and removes (R51, R124). -/
def bindFields (k : CtxKind) (c : Nat) (r : Record) : Record :=
  { r with
    state := k.workState, context := some c, heldKind := none, heldReason := none,
    binding := if k = .destress then none else r.binding }

/-- Bind context `c` of kind `k` between slot `n`, holding `r`, and a station; the sender stamps the record (R51,
R52, R124). The binding takes the place of the station's parting order (R54). -/
def State.bindCtx (s : State) (c : Nat) (k : CtxKind) (n station sender : Nat) (r : Record) (resumed : Bool) : State :=
  let s1 := s.putCtx c {
    slot := n, station := station, run := .running, suspend := 0, limitDue := false,
    prog := s.startProg k station r resumed }
  let s2 := s1.putStation station { s.stationAt station with ctx := some c }
  let s3 := { s2 with cxp := { s2.cxp with parting := s2.cxp.parting.erase station } }
  let s4 := s3.update n sender (bindFields k c)
  if k = .destress then s4.freeChannel r.binding else s4

/-! ## Release (R53, R54) -/

/-- Free a context: its fields are discarded, the station is unbound and has its parting order (R53). -/
def State.freeCtx (s : State) (c : Nat) (x : Context) (p : Parting) : State :=
  let s1 := { s with cxp := { contexts := s.cxp.contexts.erase c, parting := s.cxp.parting.put x.station p } }
  s1.putStation x.station { s1.stationAt x.station with ctx := none }

/-- The parting order without an end condition. -/
def Parting.plain (o : Order) : Parting := { order := o, until? := none }

/-- The partial result that a release into HELD writes (R53, R77, R84). -/
def heldResult (prog : Progress) (ending : Option (EndReason × Nat)) (r : Record) : Record :=
  match prog with
  | .insert p => { r with insertion := some (payout p) }
  | .grout p => { r with grout := some {
      volume := volume p, peak := p.peak, reason := ending.map Prod.fst, endTime := ending.map Prod.snd } }
  | _ => r

/-- The fields of a record that is released into HELD (R53). -/
def heldFields (prog : Progress) (reason : HeldReason) (ending : Option (EndReason × Nat)) (r : Record) : Record :=
  { heldResult prog ending r with
    state := .held, context := none, heldKind := some prog.kind, heldReason := some reason }

/-- Release a context into HELD with the stop order of its station's kind, raising `cs` in the same update (R53,
R54). `ending` is the grout end reason and time where Table 4-3 gives them. -/
def State.releaseHeld (s : State) (c : Nat) (x : Context) (reason : HeldReason) (stamp : Nat) (cs : List Cond)
    (ending : Option (EndReason × Nat)) : State :=
  (s.freeCtx c x (Parting.plain (stopOrder x.prog.kind.stationKind))).updateRaising x.slot stamp cs
    (heldFields x.prog reason ending)

/-- Release every bound context, in ascending order, into HELD with reason RESTART (R66). -/
def State.releaseAll (s : State) : State :=
  s.cxp.contexts.foldl (fun t p => t.releaseHeld p.1 p.2 .restart Config.partStation [] none) s

/-! ## Run states (R57, R58) -/

/-- A completion that was due, as the context leaves RUNNING: it waits for a used reply (R62, R82). -/
def Progress.waits : Progress → Progress
  | .grout p => .grout { p with due := false }
  | p => p

/-- Put a context into SUSPENDED (R57). -/
def Context.suspended (x : Context) : Context :=
  match x.run with
  | .suspended => x
  | _ => { x with run := .suspended, suspend := 0, limitDue := false, prog := x.prog.waits }

/-- A reply without BUSY (R57). -/
def Context.answered (x : Context) (siteStopped : Bool) : Context :=
  match x.run with
  | .suspended => { x with run := if siteStopped then .stopped else .running, suspend := 0, limitDue := false }
  | _ => x

/-- A site stop begins (R58). -/
def Context.stop (x : Context) : Context :=
  match x.run with
  | .running => { x with run := .stopped, prog := x.prog.waits }
  | _ => x

/-- RELEASE ends a site stop (R58). -/
def Context.goOn (x : Context) : Context :=
  match x.run with
  | .stopped => { x with run := .running }
  | _ => x

/-- Apply a change to every bound context. -/
def State.eachCtx (s : State) (f : Context → Context) : State :=
  { s with cxp := { s.cxp with contexts := s.cxp.contexts.mapValues f } }

/-! ## Timers (R59, R61, R62) -/

/-- A jack context's timers advance by `d` works seconds, in every run state (R61). -/
def JackProg.advance (p : JackProg) (d : Nat) : JackProg :=
  { p with
    timer := p.timer.map (fun t => t - d)
    elapsed := if p.counting then min Config.max32 (p.elapsed + d) else p.elapsed }

/-- A counting refusal timer advances by `d` works seconds (R62); reaching the refusal time `lim` in RUNNING is the
refusal completion, which is then due (R82). -/
def GroutProg.advance (p : GroutProg) (d : Nat) (lim : Option Nat) (running : Bool) : GroutProg :=
  let t := min Config.max32 (p.refTimer + d)
  { p with refTimer := t, due := p.due || running && lim.any (fun n => decide (p.refTimer < n) && decide (n ≤ t)) }

/-- A context's process timers advance by `d` works seconds; `lim` is the refusal time of the record's class (R61,
R62). -/
def Context.advance (x : Context) (d : Nat) (lim : Option Nat) : Context :=
  match x.prog with
  | .insert _ => x
  | .grout p =>
    if p.counting ∧ x.run ≠ .suspended then { x with prog := .grout (p.advance d lim (x.run = .running)) } else x
  | .stress p => { x with prog := .stress (p.advance d) }
  | .destress p => { x with prog := .destress (p.advance d) }

/-- One real second of suspend time: none while a site stop is in force, and none once the limit has been reached
(R59). -/
def Context.addSuspend (x : Context) (siteStopped : Bool) (limit : Nat) : Context :=
  if x.run = .suspended ∧ siteStopped = false ∧ x.limitDue = false then
    { x with suspend := x.suspend + 1, limitDue := limit ≤ x.suspend + 1 }
  else x

end Sys2Proof.Machine
end

