-- ==== Sys2Proof/Machine/Inputs.lean ====
section
/-! DEFINITION. The Input Filter Unit's operations (chapter 8): the site stop beginning and ending, and the key state
following the key combination. The site is STOPPED exactly while a stop origin is held, and CLEAR has no stop
demand, so a stop begins whenever an event leaves stop demand true with the site CLEAR. -/

namespace Sys2Proof.Machine

/-- Mark the ALLSTOP that a line which is ACTIVE owes (R147). -/
def Line.oweAllstop (x : Line) : Line := { x with allstopDue := decide (x.state = .active) }

/-- No ALLSTOP is owed any more (R148). -/
def Line.freeAllstop (x : Line) : Line := { x with allstopDue := false }

/-- Apply a change to both lines. -/
def State.eachLine (s : State) (f : Line → Line) : State :=
  { s with bmu := { s.bmu with lineA := f s.bmu.lineA, lineB := f s.bmu.lineB } }

/-- The stop reaches the contexts and the lines (R58, R147). -/
def State.spreadStop (s : State) : State := (s.eachCtx Context.stop).eachLine Line.oweAllstop

/-- A site stop begins at input `i` (R146, R147). During a restore the ATU lists the mark in its rebuild
(R152). DESIGN CHOICE (assumption log 28): so it does with a stop of a later sample than the first. -/
def State.beginStop (s : State) (i : Fin 4) : State :=
  let s1 := ({ s with ifu := { s.ifu with stop := some { input := i.val, time := s.wck.time } } }).spreadStop
  if s.sys.phase = .up then s1.tell .site .siteStop else s1

/-- Act on stop demand (R146): with the site CLEAR it begins a stop at the lowest input that demands it. -/
def State.followStop (s : State) : State :=
  match s.ifu.stop, stopInputs s.tbc.site s.ifu with
  | none, i :: _ => s.beginStop i
  | _, _ => s

/-- Act on the key combination (R150). -/
def State.followKey (s : State) : State :=
  { s with ifu := { s.ifu with key := s.ifu.key.follow (keyCombination s.tbc.site s.ifu) } }

/-- Act on the signals of R145 after an accepted level or an input setting may have changed. -/
def State.followInputs (s : State) : State := s.followStop.followKey

/-- The end of a site stop (R58, R137, R148). -/
def State.endStop (s : State) : State :=
  ((({ s with ifu := { s.ifu with stop := none } }).untellOne .site .siteStop).eachCtx Context.goOn).eachLine
    Line.freeAllstop

/-- Change the inputs, then act on the signals. -/
def State.changeInputs (s : State) (inputs : Vector Input 4) : State :=
  ({ s with ifu := { s.ifu with inputs := inputs } }).followInputs

end Sys2Proof.Machine
end

