-- ==== Sys2Proof/Machine/Insertion.lean ====
section
/-! DEFINITION. The Insertion and Grout Unit (chapter 4): used replies of winches and pumps, the endings of a
grouting, and the entry to CURING. -/

namespace Sys2Proof.Machine

/-- Whether a delta is a setback (Table 4-2). -/
def isSetback (delta : Nat) : Bool := 32768 ≤ delta

/-- The pulse total after a delta (Table 4-2). -/
def totalAfter (total delta : Nat) : Nat := if isSetback delta then total else grow total delta

/-- The winch's phase order after a line tension (R74). -/
def winchOrder (cls : ClassEntry) (tension : Nat) (o : Order) : Order :=
  if cls.maxPull < tension then .hold
  else if tension ≤ releaseLevel cls then .run
  else o

/-- An INSERT context's progress after a used reply (R71, R74). -/
def InsertProg.read (p : InsertProg) (cls : ClassEntry) (count tension : Nat) : InsertProg :=
  { p with
    baseline := count
    total := totalAfter p.total (counterDelta count p.baseline)
    order := winchOrder cls (takeLoad tension) p.order }

/-- A used reply of a winch (R68, R71, R74). -/
def State.winchReply (s : State) (c : Nat) (x : Context) (p : InsertProg) (count tension : Nat) : State :=
  match (s.recAt x.slot).bind s.classOf with
  | none => s
  | some cls =>
    let s1 := s.putCtx c { x with prog := .insert (p.read cls count tension) }
    let s2 := if isSetback (counterDelta count p.baseline) then s1.raise x.slot x.station .countSetback else s1
    if cls.maxPull < takeLoad tension then s2.raise x.slot x.station .overpull else s2

/-- Release a grouting into CURING: the grout result, and the cure end in the same update (R82, R83, R85). -/
def State.toCuring (s : State) (c : Nat) (x : Context) (p : GroutProg) (cls : ClassEntry) (reason : EndReason) : State :=
  (s.freeCtx c x (Parting.plain .stop)).update x.slot x.station (fun r => { r with
    state := .curing, context := none
    grout := some { volume := volume p, peak := p.peak, reason := some reason, endTime := some s.wck.time }
    cureEnd := some (cureEndOf cls s.wck.time) })

/-- A GROUT context's progress after steps 1, 2 and 5 of a used reply (R79), which decides on a completion itself. -/
def GroutProg.read (p : GroutProg) (cls : ClassEntry) (count pressure : Nat) : GroutProg :=
  { p with
    baseline := count
    total := totalAfter p.total (counterDelta count p.baseline)
    peak := max p.peak pressure
    refTimer := if cls.refPress ≤ pressure then p.refTimer else 0
    counting := decide (cls.refPress ≤ pressure)
    due := false }

/-- A used reply of a pump: the steps of R79, and a refusal completion that waited (R82). -/
def State.pumpReply (s : State) (c : Nat) (x : Context) (p : GroutProg) (count reported : Nat) : State :=
  match (s.recAt x.slot).bind s.classOf with
  | none => s
  | some cls =>
    let pressure := takePressure reported
    let p1 := p.read cls count pressure
    let x1 := { x with prog := .grout p1 }
    let s1 := s.putCtx c x1
    let s2 := if isSetback (counterDelta count p.baseline) then s1.raise x.slot x.station .countSetback else s1
    if cls.burst ≤ pressure then s2.releaseHeld c x1 .burst x.station [.burst] none
    else if volumeCap cls ≤ volume p1 then
      s2.releaseHeld c x1 .groutLoss x.station [.groutLoss] (some (.volumeCap, s.wck.time))
    else if x.run = .running ∧ p1.counting ∧ cls.refTime ≤ p1.refTimer then s2.toCuring c x1 p1 cls .refusal
    else s2

/-- A winch END (R76). -/
def State.winchEnd (s : State) (c : Nat) (x : Context) (p : InsertProg) : State :=
  match s.recAt x.slot with
  | none => s
  | some r =>
    match s.classOf r with
    | none => s
    | some cls =>
      if distance (payout p) (tendonLength cls r) ≤ cls.insTol then
        (s.freeCtx c x (Parting.plain .hold)).update x.slot x.station (fun q => { q with
          state := .inserted, context := none, insertion := some (payout p) })
      else s.releaseHeld c x .insertLength x.station [.insertLength] none

/-- A grout END (R83). -/
def State.groutEnd (s : State) (c : Nat) (x : Context) (p : GroutProg) : State :=
  match (s.recAt x.slot).bind s.classOf with
  | none => s
  | some cls =>
    if cls.theoVol ≤ volume p then s.toCuring c x p cls .operator
    else s.releaseHeld c x .groutShort x.station [.groutShort] (some (.operator, s.wck.time))

/-- Cure expiry of one record: a CURING record whose cure end works time has reached becomes READY (R86). -/
def State.expireCure (s : State) (n : Nat) : State :=
  match s.recAt n with
  | none => s
  | some r =>
    if r.state = .curing ∧ r.cureEnd.any (fun e => decide (e ≤ s.wck.time)) then
      s.update n Config.partStation (fun q => { q with state := .ready })
    else s

end Sys2Proof.Machine
end

