-- ==== Sys2Proof/Machine/Turns.lean ====
section
/-! DEFINITION. The turns of a scan (chapter 9): which station has one and on which line it is called, the end of a scan,
and what a failed attempt, a failed call or a failed FETCH does. -/

namespace Sys2Proof.Machine

/-! ## Scan and turns (R159, R164, R165) -/

/-- Whether LINE_FAULT shows on a line in the scan that ends, the other line beside it (R159). -/
def lineFaulty (x other : Line) : Bool := 1 ≤ x.attempts ∧ x.successes = 0 ∧ 1 ≤ other.successes

/-- Raise a line condition when its cause shows. -/
def State.raiseIf (s : State) (l : LineId) (c : Cond) (shows : Bool) : State :=
  if shows then s.raiseMark (.line l) c else s

/-- The figures of a line's scan become those of the last completed scan (R163). -/
def Line.completeScan (x : Line) : Line :=
  { x with lastTally := x.tally, lastAttempts := x.attempts, lastSuccesses := x.successes }

/-- The end of a scan: LINE_NOISE and LINE_FAULT are judged on both lines (R159, R164). -/
def State.endScan (s : State) : State :=
  let a := s.bmu.lineA
  let b := s.bmu.lineB
  let s1 := ({ s with bmu := { s.bmu with turn := none } }).eachLine Line.completeScan
  (((s1.raiseIf .a .lineNoise (8 ≤ a.tally)).raiseIf .b .lineNoise (8 ≤ b.tally)).raiseIf .a .lineFault
    (lineFaulty a b)).raiseIf .b .lineFault (lineFaulty b a)

/-- Whether the part may exchange with a station on a line: it is enrolled, and the line is usable for it (R156, R164). -/
def State.mayCall (s : State) (n : Nat) (l : LineId) : Bool := (s.stationAt n).state ≠ .unused ∧ s.usable n l

/-- Whether a station has a turn: it is enrolled and has a usable line (R164). -/
def State.hasTurn (s : State) (n : Nat) : Bool := s.mayCall n .a ∨ s.mayCall n .b

/-- A station's turn as it begins. -/
def Turn.first (n : Nat) : Turn :=
  { station := n, tries := 0, retry := 0, lastLine := none, fetches := 0, fetchLine := none }

/-- The turn of the first station from `n` on that has one; with none left the scan ends (R164). -/
def State.turnFrom (s : State) (n : Nat) : State :=
  match (List.range Config.stationCount).find? (fun m => n ≤ m ∧ s.hasTurn m) with
  | some m => { s with bmu := { s.bmu with turn := some (Turn.first m) } }
  | none => s.endScan

/-- The turn under way ends, and the next one begins or the scan ends (R164, R168). -/
def State.moveTurn (s : State) : State :=
  match s.bmu.turn with
  | some t => s.turnFrom (t.station + 1)
  | none => s

/-- The turn goes on as `t`. -/
def State.setTurn (s : State) (t : Turn) : State := { s with bmu := { s.bmu with turn := some t } }

/-- The line of the next attempt: the preferred line first, and the other of two usable lines at each retry (R165); none
where the station is no longer enrolled or has no usable line left (R164). -/
def State.pickLine (s : State) (t : Turn) : Option LineId :=
  let first := match t.lastLine with
    | some l => otherLine l
    | none => (s.stationAt t.station).preferred
  if s.mayCall t.station first then some first
  else if s.mayCall t.station (otherLine first) then some (otherLine first)
  else none

/-! ## Failures (R160, R167) -/

/-- The CXP puts the context of a station that is lost into SUSPENDED (R57). -/
def State.suspendBound (s : State) (n : Nat) : State :=
  match (s.stationAt n).ctx with
  | none => s
  | some c =>
    match s.ctxAt c with
    | some x => s.putCtx c x.suspended
    | none => s

/-- A failed call (R167). -/
def State.callFailed (s : State) (n : Nat) (e : FrameError) : State :=
  let x := s.stationAt n
  let y := { x with failures := bump255 x.failures, lastError := some e }
  if x.state = .present ∧ s.tbc.site.silence ≤ y.failures then
    (s.putStation n { y with state := .seeking }).suspendBound n
  else s.putStation n y

/-- A failed attempt: the call is retried while attempts are left by the retry count it began with, and has failed when
none is (R162, R165). DEDUCED (assumption log 33): with attempts left but no line to make one on, every attempt that can be
made has failed, so the call has failed. -/
def State.attemptFailed (s : State) (t : Turn) (e : FrameError) : State :=
  if t.tries ≤ t.retry ∧ (s.pickLine t).isSome then s
  else (s.callFailed t.station e).moveTurn

/-- Set the exchange in progress. -/
def State.setExchange (s : State) (x : Exchange) : State := { s with bmu := { s.bmu with exchange := x } }

/-- The frame of the open window fails, or none begins (R160, R168): an attempt of the turn, or a FETCH, which ends the
turn. -/
def State.windowFailed (s : State) (e : FrameError) : State :=
  match s.bmu.exchange, s.bmu.turn with
  | .call _ _, some t => (s.setExchange .idle).attemptFailed t e
  | .fetch _ _, some _ => (s.setExchange .idle).moveTurn
  | .call _ _, none | .fetch _ _, none => s.setExchange .idle
  | _, _ => s

end Sys2Proof.Machine
end

