-- ==== Sys2Proof/Machine/Operands.lean ====
section
/-! DEFINITION. How a request reaches the TBC and is answered (R7, R168, R169), and the range checks of the fields
requests carry. -/

namespace Sys2Proof.Machine

/-- What becomes of a request: the state, the result, the answer's payload, and what follows the ANSWER. -/
structure Ruling where
  st : State
  result : Result
  body : List Field
  after : AfterAnswer := .nothing
deriving DecidableEq, Repr

/-- A refusal changes no state (R7). -/
def refuseWith (s : State) (r : Result) (body : List Field) : Ruling := { st := s, result := r, body := body }

/-- A refusal without further figures. -/
def refuse (s : State) (r : Result) : Ruling := refuseWith s r []

/-- DONE in a state, with a payload. -/
def done (s : State) (body : List Field) : Ruling := { st := s, result := .done, body := body }

/-- Whether the bus works: the start-up has ended and RST is negated (R151, R164, R176). -/
def State.busUp (s : State) : Bool := s.sys.phase = .up ∧ s.sys.rst = false

/-- Whether an ASK is taken: the bus works and the FETCH window of its sender is open on its line (R168); while no
exchange is in progress the command stands for an ASK drawn by a FETCH of its own, on a line that carries one (R156;
assumption log 6). -/
def State.takesAsk (s : State) (h : Ask) : Bool :=
  s.busUp ∧ (s.bmu.exchange = .fetch h.station h.line ∨ s.bmu.exchange = .idle ∧ s.mayCall h.station h.line)

/-- Record what the transmitters send. -/
def State.transmit (s : State) (l : List Sent) : State := { s with bmu := { s.bmu with tx := l } }

/-- The ANSWER of a request goes out, once, on the line of its ASK (R168). -/
def State.answer (s : State) (h : Ask) (a : Answer) (after : AfterAnswer) : State :=
  (s.setExchange (.answer h a after)).transmit [.frame h.line (.answer h.station a)]

/-- An ASK that is not taken: in the window of a CALL, or of another station's FETCH, on its line it is the frame that
fails with CHECK (R160); elsewhere it changes nothing (assumption log 7). -/
def State.missAsk (s : State) (h : Ask) : State :=
  match s.bmu.exchange with
  | .call _ l | .fetch _ l => if s.busUp ∧ l = h.line then s.windowFailed .check else s
  | .idle | .answer _ _ _ => s

/-- Take a request whole and answer it (R7, R168), or miss its ASK. -/
def State.take (s : State) (h : Ask) (code : Nat) (v : Ruling) : Host.Outcome State Fault Refusal :=
  if s.takesAsk h then .next (v.st.answer h { req := code, result := v.result, body := v.body } v.after)
  else .next (s.missAsk h)

/-- The requests a sender other than station 0 may send (R169). -/
def mayAsk (k : StationKind) (q : Req) : Bool :=
  match k with
  | .winch | .grout | .monitor => q = .find ∨ q = .begin ∨ q = .endWork
  | .jack => q = .find ∨ q = .begin ∨ q = .endWork ∨ q = .restroke
  | .none | .supervisor => false

/-- Whether a sender has authority for a request (R169). -/
def State.permits (s : State) (station : Nat) (q : Req) : Bool :=
  station = 0 ∨ mayAsk (s.stationAt station).kind q

/-- Steps 2 and 3 of the general refusal order, then the rest (R169). -/
def State.screen (s : State) (h : Ask) (q : Req) (inRange : Bool) (rest : Ruling) : Ruling :=
  if s.permits h.station q = false then refuse s .notPermitted
  else if inRange = false then refuse s .badValue
  else rest

/-- Steps 4 and 5 of the general refusal order: the named slot holds a record, and the carried revision is its
revision; a STALE answer carries the present revision and state (R7, R169). -/
def State.named (s : State) (n : Nat) (rev? : Option Nat) (own : Record → Ruling) : Ruling :=
  match s.recAt n with
  | none => refuse s .noRecord
  | some r =>
    if rev?.all (fun v => v = s.revAt n) then own r
    else refuseWith s .stale [.u16 (s.revAt n), enum8 RecState.all r.state]

/-- The general refusal order for a request that names no record (R169). -/
def State.request (s : State) (h : Ask) (q : Req) (inRange : Bool) (own : Ruling) :
    Host.Outcome State Fault Refusal :=
  s.take h q.code (s.screen h q inRange own)

/-- The general refusal order for a request that names a record, with the revision it carries if it carries one
(R169). -/
def State.requestOn (s : State) (h : Ask) (q : Req) (inRange : Bool) (n : Nat) (rev? : Option Nat)
    (own : Record → Ruling) : Host.Outcome State Fault Refusal :=
  s.take h q.code (s.screen h q inRange (s.named n rev? own))

/-- DONE with the revision a record now has. -/
def doneRev (s : State) (n : Nat) : Ruling := done s [.u16 (s.revAt n)]

/-! ## Ranges (R169 step 3) -/

/-- A slot number (R1). -/
def slotOk (n : Nat) : Bool := n < Config.slotCount
/-- A row (R1). -/
def rowOk (n : Nat) : Bool := 1 ≤ n ∧ n ≤ Config.rowCount
/-- A bay (R1). -/
def bayOk (n : Nat) : Bool := 1 ≤ n ∧ n ≤ Config.bayCount
/-- A class number (R27). -/
def classOk (n : Nat) : Bool := n < Config.classCount
/-- A rig station (R48). -/
def rigOk (n : Nat) : Bool := 1 ≤ n ∧ n < Config.stationCount
/-- A station (R162). -/
def stationOk (n : Nat) : Bool := n < Config.stationCount
/-- A value between two bounds. -/
def within (lo hi n : Nat) : Bool := lo ≤ n ∧ n ≤ hi
/-- A value, or none, between two bounds. -/
def withinOpt (lo hi : Nat) (o : Option Nat) : Bool := o.all (within lo hi)
/-- A free length override (Table 1-1). -/
def freeLenOk (o : Option Nat) : Bool := withinOpt 3000 60000 o
/-- A bond length override (Table 1-1). -/
def bondLenOk (o : Option Nat) : Bool := withinOpt 3000 20000 o
/-- A code of an enumeration. -/
def codeOk {α : Type} (all : List α) (n : Nat) : Bool := (ofCode all n).isSome

end Sys2Proof.Machine
end

