-- ==== Sys2Proof/Machine/AttentionRequests.lean ====
section
/-! DEFINITION. The requests on monitor bindings, conditions, the clock and the inputs (chapters 3, 7 and 8): BIND, UNBIND,
CLEAR, ATTENTION_READ, TIME_SET, RELEASE, INPUT_READ and RESTART. -/

namespace Sys2Proof.Machine

/-! ## BIND and UNBIND (R129, R130) -/

/-- Set a record's monitor binding, with the channel map (R128, R129). -/
def State.setBinding (s : State) (n stamp : Nat) (b : Binding) (r : Record) : State :=
  let s1 := (s.update n stamp (fun q => { q with binding := some b })).freeChannel r.binding
  { s1 with channels := s1.channels.put (channelKey b) n }

/-- Remove a record's monitor binding, with the channel map (R128, R130). -/
def State.dropBinding (s : State) (n stamp : Nat) (r : Record) : State :=
  (s.update n stamp (fun q => { q with binding := none })).freeChannel r.binding

/-- BIND (R129). -/
def execBind (h : Ask) (slot rev station channel : Nat) (s : State) : Host.Outcome State Fault Refusal :=
  s.requestOn h .bind (slotOk slot ∧ rigOk station ∧ channel ≤ 7) slot (some rev) (fun r =>
    let b : Binding := { station := station, channel := channel }
    if r.state ≠ .locked then refuse s .wrongState
    else if (s.stationAt station).kind ≠ .monitor then refuse s .wrongKind
    else if ((s.stationAt station).param.getD 0) ≤ channel then refuse s .badValue
    else if (s.channels.get? (channelKey b)).any (fun m => m ≠ slot) then refuse s .occupied
    else if r.binding = some b then doneRev s slot
    else doneRev (s.setBinding slot h.station b r) slot)

/-- UNBIND (R130). -/
def execUnbind (h : Ask) (slot rev : Nat) (s : State) : Host.Outcome State Fault Refusal :=
  s.requestOn h .unbind (slotOk slot) slot (some rev) (fun r =>
    if r.state ≠ .locked then refuse s .wrongState
    else doneRev (s.dropBinding slot h.station r) slot)

/-! ## CLEAR (R139) -/

/-- The subject a kind code and an identity name (R133, R139); the site's identity is 0. -/
def subjectOf (kind ident : Nat) : Option Subject :=
  match kind with
  | 1 => if ident < Config.slotCount then some (.record ident) else none
  | 2 => if ident < Config.stationCount then some (.station ident) else none
  | 3 => (ofCode LineId.all ident).map Subject.line
  | 4 => if ident = 0 then some .site else none
  | _ => none

/-- The condition a CLEAR names, where Table 7-1 gives it for the subject (R139). -/
def clearTarget (kind ident cond : Nat) : Option (Subject × Cond) :=
  match subjectOf kind ident, ofCode Cond.all cond with
  | some subj, some c => if Cond.allowedOn c subj then some (subj, c) else none
  | _, _ => none

/-- CLEAR on a record (R139). -/
def State.clearRecord (s : State) (n sender : Nat) (c : Cond) (r : Record) : Ruling :=
  if c = .imageSuspect ∧ r.state = .suspect then refuse s .wrongState
  else doneRev (s.unraise n sender c) n

/-- CLEAR on a subject in range (R139). DESIGN CHOICE (assumption log 13): the ANSWER has no presence mask, and a revision for a
record alone. -/
def State.clearOwn (s : State) (sender : Nat) : Subject → Cond → Ruling
  | .record n, c => s.named n none (s.clearRecord n sender c)
  | .site, .siteStop => if s.ifu.stop.isSome then refuse s .wrongState else done s []
  | subj, c => done (s.clearMark subj c) []

/-- CLEAR (R139). -/
def execClear (h : Ask) (subjectKind identity cond : Nat) (s : State) : Host.Outcome State Fault Refusal :=
  s.request h .clear (clearTarget subjectKind identity cond).isSome
    (match clearTarget subjectKind identity cond with
      | some (subj, c) => s.clearOwn h.station subj c
      | none => refuse s .badValue)

/-! ## ATTENTION_READ (R140) -/

/-- An entry as an answer gives it. DESIGN CHOICE (assumption log 13): the identity of a subject of any kind has two bytes. -/
def Entry.fields (e : Entry) : List Field :=
  [.u8 (Subject.kindCode e.subject), .u16 (Subject.ident e.subject), enum8 Cond.all e.cond, .u8 e.level, .u32 e.time]

/-- The answer of ATTENTION_READ from a start position (R140). -/
def Atu.page (a : Atu) (start : Nat) : List Field :=
  counted (((a.entries.drop start).take 6).map Entry.fields) ++
    [.u8 a.entries.length, .u8 (highestLevel a.entries), .u8 a.overflow]

/-- ATTENTION_READ (R140). -/
def execAttentionRead (h : Ask) (start : Nat) (reset : Bool) (s : State) : Host.Outcome State Fault Refusal :=
  s.request h .attentionRead (start < Config.attentionSize)
    (done (if reset then { s with atu := { s.atu with overflow := 0 } } else s) (s.atu.page start))

/-! ## TIME_SET (R64) -/

/-- The cure expiry check on every record, each in its own update (R86). -/
def State.expireCures (s : State) : State := s.usedSlots.foldl (fun t n => t.expireCure n) s

/-- Set the works time and start the clock (R64). -/
def State.setTime (s : State) (time : Nat) : State :=
  (({ s with wck := { s.wck with time := time, clock := .running } }).hand .header).expireCures

/-- TIME_SET (R64). DESIGN CHOICE (assumption log 42): one equal to the present works time with the clock running changes
nothing (R64), so it makes no expiry check of R86. -/
def execTimeSet (h : Ask) (time : Nat) (s : State) : Host.Outcome State Fault Refusal :=
  s.request h .timeSet (time ≤ Config.max32)
    (if time < s.wck.time then refuseWith s .badValue [.u32 s.wck.time, .u8 s.wck.clock.code]
    else if time = s.wck.time ∧ s.wck.clock = .running then done s [.u32 time]
    else done (s.setTime time) [.u32 time])

/-! ## RELEASE, INPUT_READ and RESTART (R148, R151, R153) -/

/-- The readings of the four inputs, one bit each. -/
def State.readings (s : State) : Field := .u8 (flags (inputNumbers.map (asserted s.tbc.site s.ifu)))

/-- The own checks of RELEASE, and what a taken one does (R148). -/
def State.releaseOwn (s : State) : Ruling :=
  if s.ifu.stop.isNone then done s []
  else if stopDemand s.tbc.site s.ifu then refuse s .wrongState
  else if s.tbc.site.inputs.toList.any (fun x => x.function = .permit) ∧ permitPresent s.tbc.site s.ifu = false then
    refuse s .notPermitted
  else done s.endStop []

/-- RELEASE: every answer carries the readings as they stood when it was taken (R148). -/
def execRelease (h : Ask) (s : State) : Host.Outcome State Fault Refusal :=
  s.take h Req.release.code { s.screen h .release true s.releaseOwn with body := [s.readings] }

/-- One input as INPUT_READ gives it: settings, pin, accepted level, filter state (STEADY 1, PENDING 2), asserted. -/
def inputFields (set : InputSettings) (inp : Input) : List Field :=
  set.fields ++ [enum8 Contact.all inp.pin, enum8 Contact.all inp.accepted, .u8 (if inp.pendingChange then 2 else 1),
    flag8 (inputAsserted set inp)]

/-- The code of a key state: IDLE 1, TIMING 2, SPENT 3 (R150, R182). -/
def KeyState.code : KeyState → Nat
  | .idle => 1
  | .timing _ => 2
  | .spent => 3

/-- The key timer while it runs. -/
def KeyState.timer : KeyState → Option Nat
  | .timing ms => some ms
  | _ => none

/-- The answer of INPUT_READ (R153): the stop origin and the key timer may be absent. DESIGN CHOICE (assumption log 13): the
key timer has two bytes. -/
def State.inputBody (s : State) : List Field :=
  inputNumbers.flatMap (fun i => inputFields s.tbc.site.inputs[i] s.ifu.inputs[i]) ++
    [.u8 (flags [stopDemand s.tbc.site s.ifu, permitPresent s.tbc.site s.ifu, keyCombination s.tbc.site s.ifu]),
      .u8 (if s.ifu.stop.isSome then 2 else 1), .u8 s.ifu.key.code] ++
    masked [ s.ifu.stop.map (fun o => [.u8 o.input, .u32 o.time]),
      s.ifu.key.timer.map (fun ms => [.u16 ms]) ]

/-- INPUT_READ (R153). -/
def execInputRead (h : Ask) (s : State) : Host.Outcome State Fault Refusal :=
  s.request h .inputRead true (done s s.inputBody)

/-- RESTART: the restart is made when the sending of the ANSWER ends (R151). -/
def execRestart (h : Ask) (s : State) : Host.Outcome State Fault Refusal :=
  s.request h .restart true { st := s, result := .done, body := [], after := .restart }

end Sys2Proof.Machine
end

