-- ==== Sys2Proof/Machine/Monitor.lean ====
section
/-! DEFINITION. The Monitor Unit's readings and drift check (R131, R132). -/

namespace Sys2Proof.Machine

/-- Whether a reading of `load` drifts from the lock-off load (R132). -/
def drifts (site : SiteSettings) (r : Record) (load : Nat) : Bool :=
  r.lockoffLoad.any (fun l => driftLimit l site.drift < distance load l)

/-- The last monitored load after a reading: kept when the load equals the one held (R131). -/
def monitoredAfter (r : Record) (load now : Nat) : Option MonitoredLoad :=
  if r.monitored.any (fun m => m.load = load) then r.monitored else some { load := load, time := now }

/-- A valid reading on the record of slot `n`: one update with the drift check (R131, R132). -/
def State.reading (s : State) (n station reported : Nat) : State :=
  match s.recAt n with
  | none => s
  | some r =>
    s.updateRaising n station (if drifts s.tbc.site r (takeLoad reported) then [.loadDrift] else [])
      (fun q => { q with monitored := monitoredAfter q (takeLoad reported) s.wck.time })

/-- The channels of a monitor reply from channel `c` on, in ascending order (R131). -/
def State.takeChannels (s : State) (station c : Nat) : List (Nat × Bool) → State
  | [] => s
  | (load, valid) :: rest =>
    let t := match s.channels.get? (channelKey { station := station, channel := c }), valid with
      | some n, true => s.reading n station load
      | _, _ => s
    t.takeChannels station (c + 1) rest

end Sys2Proof.Machine
end

