-- ==== Sys2Proof/Machine/Restart.lean ====
section
/-! DEFINITION. The cabinet restart (R66, R151, R152, R170, R183): what it does at its cause, and what the input filters
do, which waits for the negation when the cause is RST. -/

namespace Sys2Proof.Machine

/-- A test result that a restart cuts short (R158). -/
def LineTest.cut (t : LineTest) : LineTest := { t with phase := .cutShort }

/-- A line at a restart: TESTING ends in QUIET, its result cut short (R158, R170). -/
def Line.restart (x : Line) : Line :=
  if x.state = .testing then { x with state := .quiet, test := x.test.map LineTest.cut } else x

/-- A station at a restart (R161, R170). -/
def Station.restart (x : Station) : Station :=
  if x.kind = .none then x else { x with state := .seeking, failures := 0, lastError := none }

/-- The works bus at a restart (R170). -/
def Bmu.restart (b : Bmu) : Bmu :=
  { b with
    lineA := b.lineA.restart, lineB := b.lineB.restart, stations := b.stations.map Station.restart, turn := none
    exchange := .idle, lastTime := none, tx := [] }

/-- A cabinet restart but for the input filters (R66, R151, R170, R183). -/
def State.restartCore (s : State) : State :=
  let s1 := s.releaseAll
  { s1 with bmu := s1.bmu.restart, tbc := { s1.tbc with staged := none } }

/-- The key state once the filters have restarted or taken their first samples (R150, R152). -/
def State.settleKey (s : State) : State :=
  { s with ifu := { s.ifu with key := if keyCombination s.tbc.site s.ifu then .spent else .idle } }

/-- Every filter takes its pin's present level, and a stop demand with the site CLEAR begins a stop (R150, R152). -/
def State.restartInputs (s : State) : State :=
  (({ s with ifu := { s.ifu with inputs := s.ifu.inputs.map Input.restart } }).followStop).settleKey

/-- A cabinet restart by the key or by a RESTART request (R151). -/
def State.cabinetRestart (s : State) : State := s.restartCore.restartInputs

end Sys2Proof.Machine
end

