-- ==== Sys2Proof/Machine/Stressing.lean ====
section
/-! DEFINITION. The Stressing Unit (chapter 6): the steps of a used reply (R109), band holds (R112), the test hold
(R114 to R116), verdicts (R117 to R121), restrokes (R98, R122) and destressing (R124 to R126). The phase logic
is made on the context's progress alone; what ends a context is handed back and applied to the state. -/

namespace Sys2Proof.Machine

/-- What the phase logic of one context reads: the class, the jack's table and the record (R95, R102). -/
structure JackEnv where
  cls : ClassEntry
  cal : List CalPoint
  rcd : Record
deriving DecidableEq, Repr

/-- A used reply as the STU takes it (R107). -/
structure JackReading where
  pressure : Nat
  stroke : Nat
  load : Nat
  overrange : Bool
  seated : Bool
  lifted : Bool
  restroking : Bool
  released : Bool
deriving DecidableEq, Repr

/-- Whether the phase logic ends the context, and how (R119, R120, R126). -/
inductive JackEnd where
  | goesOn
  | fails (v : Verdict)
  | passes (residual : Nat)
  | released
deriving DecidableEq, Repr

/-- Take the telemetry of a jack's reply (R93, R107). -/
def takeReading (cal : List CalPoint) (pressure stroke : Nat) (seated lifted restroking released : Bool) : JackReading :=
  { pressure := takePressure pressure, stroke := takeStroke stroke, load := (loadOf cal pressure).1,
    overrange := (loadOf cal pressure).2, seated := seated, lifted := lifted, restroking := restroking,
    released := released }

/-! ## Phases and their orders -/

/-- The PRESSURE order to a target load (R94, R106). -/
def pressOrder (env : JackEnv) (target : Nat) : Order := .pressure (pressureOf env.cal target).1

/-- The target load of a band hold phase (Table 6-3), and the test load in the test phases (R114). -/
def phaseTarget (env : JackEnv) (p : JackProg) : Nat :=
  match p.phase with
  | .datum | .unload => datumTarget env.cls
  | .stage => stageTarget env.cls p.index
  | .lockoff => jackLockoff env.cls env.rcd
  | .step => ((p.steps[p.index - 1]?).map Prod.fst).getD 0
  | _ => testLoad env.cls

/-- The hold duration of a band hold phase (Table 6-3). -/
def holdTime (env : JackEnv) (p : JackProg) : Nat :=
  match p.phase with
  | .step => env.cls.destHold
  | _ => env.cls.stageHold

/-- The order of a phase as it is entered (R106, R112, R114, R118, R126). -/
def entryOrder (env : JackEnv) (p : JackProg) : Order :=
  match p.phase with
  | .seating => .seat
  | .liftoff => .lift
  | .free => .free
  | .step => .pressure (((p.steps[p.index - 1]?).map Prod.snd).getD 0)
  | _ => pressOrder env (phaseTarget env p)

/-- Stop the timers and begin in APPROACH (R112, R113). -/
def JackProg.approach (p : JackProg) : JackProg :=
  { p with holding := false, timer := none, elapsed := 0, counting := false, pendingAdv := false }

/-- Enter a phase with its own order (R113, R116 to R118, R124, R125). -/
def JackProg.enter (p : JackProg) (env : JackEnv) (phase : JackPhase) (index : Nat) : JackProg :=
  let q := { p.approach with phase := phase, index := index }
  { q with order := entryOrder env q }

/-! ## Restroke and extension (R97, R98) -/

/-- The restroke tests of a used reply (R98); a recapture gives back the phase's PRESSURE order (R122). -/
def JackProg.restrokeTests (p : JackProg) (env : JackEnv) (t : JackReading) : JackProg :=
  match p.register with
  | .closed => p
  | _ =>
    let reg := if t.restroking ∨ t.stroke < p.openStroke then Restroke.underWay else p.register
    if t.restroking = false ∧ reg = .underWay ∧ distance t.load p.preLoad ≤ p.preLoad * 2 / 100 then
      { p with register := .closed, origin := t.stroke, order := pressOrder env (phaseTarget env p) }
    else { p with register := reg }

/-- The extension of a used reply (R97). -/
def JackProg.extension (p : JackProg) (stroke : Nat) : Int :=
  match p.register with
  | .closed => p.acc + ((stroke : Int) - (p.origin : Int))
  | _ => p.acc

/-- A reading as the last used reply of a context (R93, R97, R107). -/
def JackReading.used (t : JackReading) (p : JackProg) : LastReply where
  pressure := t.pressure
  load := t.load
  stroke := t.stroke
  ext := p.extension t.stroke

/-- Keep the reply as the last used one. -/
def JackProg.keep (p : JackProg) (t : JackReading) : JackProg :=
  { p with last := some (t.used p) }

/-! ## The test hold (R114 to R116) -/

/-- Whether the reading at time `t` is late (R115). -/
def readingLate (elapsed t : Nat) (r : Option Reading) : Bool := r = none ∧ t + 20 < elapsed

/-- The reading at time `t`: the first used reply at or after it (R115). -/
def readingAt (elapsed t : Nat) (r : Option Reading) (now : Reading) : Option Reading :=
  match r with
  | some x => some x
  | none => if t ≤ elapsed then some now else none

/-- Start, or start again, the test hold on a reply (R114, R115). -/
def JackProg.startTest (p : JackProg) (cls : ClassEntry) (now : Reading) : JackProg :=
  { p with
    phase := .holdA, elapsed := 0, counting := true, pendingAdv := false
    atA0 := readingAt 0 cls.tA0 none now, atA1 := readingAt 0 cls.tA1 none now
    atB0 := readingAt 0 cls.tB0 none now, atB1 := readingAt 0 cls.tB1 none now
    creepA := none, creepB := none, closing := none }

/-- Creep A at the tA1 reading: it closes the test hold or leads to HOLD_B (R99, R116). -/
def JackProg.closeA (p : JackProg) (cls : ClassEntry) : JackProg :=
  match p.creepA, p.atA0, p.atA1 with
  | none, some r0, some r1 =>
    if r1.ext - r0.ext ≤ (cls.limitA : Int) then { p with creepA := some (r1.ext - r0.ext), closing := some r1 }
    else { p with creepA := some (r1.ext - r0.ext), phase := .holdB }
  | _, _, _ => p

/-- Creep B at the tB1 reading, in HOLD_B (R99, R116). -/
def JackProg.closeB (p : JackProg) (cls : ClassEntry) : JackProg :=
  match p.phase, p.creepB, p.atB0, p.atB1 with
  | .holdB, none, some r0, some r1 =>
    if r1.ext - r0.ext ≤ (cls.limitB : Int) then { p with creepB := some (r1.ext - r0.ext), closing := some r1 }
    else { p with creepB := some (r1.ext - r0.ext) }
  | _, _, _, _ => p

/-- The test hold readings of a used reply, with lateness and the closing of the windows (R115, R116). -/
def JackProg.testReadings (p : JackProg) (cls : ClassEntry) (now : Reading) : JackProg :=
  if readingLate p.elapsed cls.tA0 p.atA0 ∨ readingLate p.elapsed cls.tA1 p.atA1 ∨
      readingLate p.elapsed cls.tB0 p.atB0 ∨ readingLate p.elapsed cls.tB1 p.atB1 then p.startTest cls now
  else
    (({ p with
        atA0 := readingAt p.elapsed cls.tA0 p.atA0 now, atA1 := readingAt p.elapsed cls.tA1 p.atA1 now
        atB0 := readingAt p.elapsed cls.tB0 p.atB0 now, atB1 := readingAt p.elapsed cls.tB1 p.atB1 now }).closeA
      cls).closeB cls

/-- Whether the test hold is decided: closed, or failed in window B (R116). -/
def JackProg.testDecided (p : JackProg) : Bool := p.closing.isSome ∨ p.creepB.isSome

/-- The order of a running test hold follows the load (R114). -/
def JackProg.followLoad (p : JackProg) (env : JackEnv) (load : Nat) : JackProg :=
  let press := pressOrder env (testLoad env.cls)
  if belowBand env.cls (testLoad env.cls) load then
    if p.order = .hold then { p with order := press, makeups := bump255 p.makeups } else p
  else if aboveBand env.cls (testLoad env.cls) load then { p with order := .hold }
  else if p.order ≠ .hold ∧ testLoad env.cls ≤ load then { p with order := .hold }
  else p

/-! ## Readings of step 5 (R109) -/

/-- The readings a used reply gives in its phase: test hold readings, the stroke after seating, the lift-off load
with its steps (R103, R104, R115, R119, R124). -/
def JackProg.takeReadings (p : JackProg) (env : JackEnv) (t : JackReading) : JackProg :=
  match p.phase with
  | .holdA | .holdB => p.testReadings env.cls { ext := p.extension t.stroke, load := t.load }
  | .seating => if t.seated ∧ p.afterSeat = none then { p with afterSeat := some t.stroke } else p
  | .liftoff =>
    if t.lifted ∧ p.liftoff = none then
      { p with
        liftoff := some t.load
        steps := (stepTargets t.load env.cls.destStep).map (fun l => (l, (pressureOf env.cal l).1)) }
    else p
  | _ => p

/-- Whether a used reply in LIFTOFF ends the search without a lift-off (R124). -/
def noLiftoff (p : JackProg) (env : JackEnv) (t : JackReading) : Bool :=
  p.phase = .liftoff ∧ p.liftoff = none ∧ t.lifted = false ∧
    searchLimit (env.rcd.lockoffLoad.getD 0) < t.load

/-! ## Phase logic of step 6 (R109) -/

/-- The completion of a band hold with its closing reply (Table 6-3, R113, R117, R118, R125). -/
def JackProg.completeHold (p : JackProg) (env : JackEnv) (r : LastReply) : JackProg × JackEnd :=
  match p.phase with
  | .datum =>
    let q := { p with acc := 0, origin := r.stroke, last := some { r with ext := 0 } }
    if env.cls.stages.isEmpty then (q.enter env .test 0, .goesOn) else (q.enter env .stage 1, .goesOn)
  | .stage =>
    if p.index < env.cls.stages.length then (p.enter env .stage (p.index + 1), .goesOn)
    else (p.enter env .test 0, .goesOn)
  | .unload =>
    let res : Reading := { ext := r.ext, load := r.load }
    let l := apparentLength env.cls (p.closing.getD res) res
    let q := { p with residual := some res, freeLength := some l }
    if lengthPasses env.cls env.rcd l then (q.enter env .lockoff 0, .goesOn)
    else ({ q with phase := .verdict }, .fails .lengthFail)
  | .lockoff => (({ p with beforeSeat := some (r.load, r.stroke) }).enter env .seating 0, .goesOn)
  | .step =>
    if p.index < p.steps.length then (p.enter env .step (p.index + 1), .goesOn) else (p.enter env .free 0, .goesOn)
  | _ => (p, .goesOn)

/-- A band hold phase on a reply for which step 6 is made in full (R112). -/
def JackProg.bandLogic (p : JackProg) (env : JackEnv) (t : JackReading) : JackProg × JackEnd :=
  let inb := inBand env.cls (phaseTarget env p) t.load
  if p.pendingAdv then
    if inb then p.completeHold env (t.used p)
    else (p.approach, .goesOn)
  else if p.holding then
    if inb then (p, .goesOn) else (p.approach, .goesOn)
  else if inb then
    ({ p with holding := true, timer := some (holdTime env p), elapsed := 0, counting := true }, .goesOn)
  else (p, .goesOn)

/-- The load a seating left, with the verdict it gives (R103, R119). -/
def JackProg.seatingVerdict (p : JackProg) (env : JackEnv) : JackProg × JackEnd :=
  match p.beforeSeat, p.afterSeat with
  | some (load, stroke), some after =>
    let res := residualLoad env.cls load (drawIn stroke after) (p.freeLength.getD 0)
    if lockoffPasses env.cls res then (p, .passes res) else (p, .fails .lockoffFail)
  | _, _ => (p, .goesOn)

/-- The advance a decided test hold has earned (R116): to UNLOAD, or the verdict CREEP_FAIL. -/
def JackProg.leaveTest (p : JackProg) (env : JackEnv) : JackProg × JackEnd :=
  if p.closing.isSome then
    (({ p with atB0 := if p.creepB.isSome then p.atB0 else none }).enter env .unload 0, .goesOn)
  else (p, .fails .creepFail)

/-- Whether a RELEASED reply completes a destressing (R126). -/
def releaseSeen (t : JackReading) : Bool := t.released ∧ t.pressure < 500

/-- Step 6 of R109 made in full. DEDUCED (assumption log 16): the late reply that starts the test hold again in step 5 (R115)
meets the load logic of R114 here, as any reply of a running test hold does. -/
def JackProg.phaseLogic (p : JackProg) (env : JackEnv) (t : JackReading) : JackProg × JackEnd :=
  match p.phase with
  | .datum | .stage | .unload | .lockoff | .step => p.bandLogic env t
  | .test =>
    if inBand env.cls (testLoad env.cls) t.load then
      ({ p.startTest env.cls { ext := p.extension t.stroke, load := t.load } with order := .hold }, .goesOn)
    else ({ p with pendingAdv := false }, .goesOn)
  | .holdA | .holdB =>
    if p.testDecided then p.leaveTest env else (p.followLoad env t.load, .goesOn)
  | .verdict => (p, .goesOn)
  | .seating => p.seatingVerdict env
  | .liftoff =>
    if p.liftoff.isSome then
      if p.steps.isEmpty then (p.enter env .free 0, .goesOn) else (p.enter env .step 1, .goesOn)
    else (p, .goesOn)
  | .free => if releaseSeen t then (p, .released) else ({ p with pendingAdv := false }, .goesOn)

/-- What step 6 does when it is not made in full: an advance the reply would have made is marked pending
(R109). -/
def JackProg.defer (p : JackProg) (env : JackEnv) (t : JackReading) : JackProg :=
  let earned : Bool := match p.phase with
    | .test => inBand env.cls (testLoad env.cls) t.load
    | .holdA | .holdB => p.testDecided
    | .seating => p.afterSeat.isSome
    | .liftoff => p.liftoff.isSome
    | .free => releaseSeen t
    | _ => false
  if earned then { p with pendingAdv := true } else p

/-- Steps 3 to 6 of R109 on the progress of a context that the load checks have not ended. `stress` says which of
the two kinds the context is, `running` whether it is RUNNING. -/
def JackProg.useReply (p : JackProg) (env : JackEnv) (stress running fault : Bool) (t : JackReading) :
    JackProg × JackEnd :=
  let p3 := { p with faultHold := fault }
  let p4 := (if stress then p3.restrokeTests env t else p3).keep t
  let p5 := p4.takeReadings env t
  if running ∧ fault = false ∧ (stress = false ∨ p.register = .closed) then p5.phaseLogic env t
  else (p5.defer env t, .goesOn)

/-- The phase timer's expiry (R61, R112): the hold completes on the last used reply, or the advance is marked
pending. -/
def JackProg.expire (p : JackProg) (env : JackEnv) (running : Bool) : JackProg × JackEnd :=
  match p.timer, p.last with
  | some 0, some r =>
    if p.holding = false ∨ p.pendingAdv then (p, .goesOn)
    else if running ∧ p.faultHold = false ∧ inBand env.cls (phaseTarget env p) r.load then p.completeHold env r
    else ({ p with pendingAdv := true }, .goesOn)
  | _, _ => (p, .goesOn)

/-! ## Verdicts (R119 to R121) -/

/-- The stress result of a verdict (Table 6-4). -/
def stressResult (env : JackEnv) (p : JackProg) (v : Verdict) (residual : Option Nat) : StressResult where
  datumTarget := datumTarget env.cls
  testTarget := testLoad env.cls
  residualTarget := residualTarget env.cls
  windows := if p.creepB.isSome then .aAndB else .a
  creepA := p.creepA.getD 0
  creepB := p.creepB
  freeLength := if v = .creepFail then none else p.freeLength
  jackLoad := if residual.isSome then some (jackLockoff env.cls env.rcd) else none
  drawIn := if residual.isSome then
      p.beforeSeat.bind (fun b => p.afterSeat.map (fun a => drawIn b.2 a)) else none
  residual := residual
  makeups := p.makeups
  restrokes := p.restrokes
  verdict := v

/-- The residual lock-off load of a context that has seated (R103). -/
def JackProg.residualOf (p : JackProg) (env : JackEnv) : Option Nat :=
  match p.beforeSeat, p.afterSeat with
  | some (load, stroke), some after => some (residualLoad env.cls load (drawIn stroke after) (p.freeLength.getD 0))
  | _, _ => none

/-- The condition named after a verdict (R120). -/
def verdictCond : Verdict → List Cond
  | .pass => []
  | .creepFail => [.creepFail]
  | .lengthFail => [.lengthFail]
  | .lockoffFail => [.lockoffFail]

/-- The release order of a failing verdict, with its end condition (R120). -/
def failParting (env : JackEnv) (v : Verdict) : Parting :=
  match v with
  | .lockoffFail => Parting.plain .idle
  | _ => {
      order := pressOrder env (datumTarget env.cls)
      until? := some ((pressureOf env.cal (datumTarget env.cls - band env.cls)).1,
        (pressureOf env.cal (datumTarget env.cls + band env.cls)).1) }

/-- Apply what the phase logic decided: keep the progress, or end the context (R119, R120, R126). -/
def State.finishJack (s : State) (c : Nat) (x : Context) (env : JackEnv) (mk : JackProg → Progress)
    (out : JackProg × JackEnd) : State :=
  match out.2 with
  | .goesOn => s.putCtx c { x with prog := mk out.1 }
  | .fails v =>
    (s.freeCtx c x (failParting env v)).updateRaising x.slot x.station (verdictCond v) (fun r => { r with
      state := .failed, context := none
      stress := some (stressResult env out.1 v (if v = .lockoffFail then out.1.residualOf env else none)) })
  | .passes res =>
    (s.freeCtx c x (Parting.plain .idle)).lockRecord x.slot x.station (fun r => { r with
      context := none, lockoffLoad := some res
      stress := some (stressResult env out.1 .pass (some res)) })
  | .released =>
    (s.freeCtx c x (Parting.plain .idle)).retireRecord x.slot x.station .destressed id

/-! ## Used replies (R109, R110) -/

/-- The held reason and the conditions of the load checks (R110), none when both pass. -/
def loadEnding (env : JackEnv) (t : JackReading) : Option (HeldReason × List Cond) :=
  if overloadLimit env.cls < t.load then
    some (.overload, if t.overrange then [.overload, .overrange] else [.overload])
  else if t.overrange then some (.overrange, [.overrange])
  else none

/-- The record, class and table a context's unit reads. -/
def State.jackEnv (s : State) (x : Context) : Option JackEnv :=
  match s.recAt x.slot with
  | none => none
  | some r =>
    match s.classOf r, s.calAt x.station with
    | some cls, some cal => some { cls := cls, cal := cal, rcd := r }
    | _, _ => none

/-- A used reply of a STRESS context (R109). -/
def State.stressReply (s : State) (c : Nat) (x : Context) (p : JackProg) (fault : Bool) (env : JackEnv)
    (t : JackReading) : State :=
  match loadEnding env t with
  | some (reason, cs) => s.releaseHeld c x reason x.station cs none
  | none => s.finishJack c x env .stress (p.useReply env true (x.run = .running) fault t)

/-- The record update that a lift-off load fixed on this reply makes (R124). -/
def State.writeLiftoff (s : State) (x : Context) (p : JackProg) (t : JackReading) : State :=
  if p.phase = .liftoff ∧ p.liftoff = none ∧ t.lifted then
    s.update x.slot x.station (fun r => { r with liftoffLoad := some t.load })
  else s

/-- A used reply of a DESTRESS context (R109, R124). -/
def State.destressReply (s : State) (c : Nat) (x : Context) (p : JackProg) (fault : Bool) (env : JackEnv)
    (t : JackReading) : State :=
  match loadEnding env t with
  | some (reason, cs) => s.releaseHeld c x reason x.station cs none
  | none =>
    if noLiftoff p env t then s.releaseHeld c x .noLiftoff x.station [.noLiftoff] none
    else (s.writeLiftoff x p t).finishJack c x env .destress (p.useReply env false (x.run = .running) fault t)

/-- The phase timer's expiry of a jack context (R61, R112). -/
def State.expireTimer (s : State) (c : Nat) (x : Context) : State :=
  match s.jackEnv x with
  | none => s
  | some env =>
    match x.prog with
    | .stress p => s.finishJack c x env .stress (p.expire env (x.run = .running))
    | .destress p => s.finishJack c x env .destress (p.expire env (x.run = .running))
    | _ => s

/-! ## RESTROKE (R98, R122) -/

/-- Whether the phase admits a RESTROKE (R122): DATUM and STAGE in APPROACH, and TEST, with the register
CLOSED. -/
def JackProg.restrokeAllowed (p : JackProg) : Bool :=
  match p.phase with
  | .datum | .stage => p.holding = false ∧ p.register = .closed
  | .test => p.register = .closed
  | _ => false

/-- The registers at a RESTROKE, from the last used reply (R98). -/
def JackProg.openRestroke (p : JackProg) (r : LastReply) : JackProg :=
  { p with
    restrokes := p.restrokes + 1, register := .opened, order := .hold
    acc := p.acc + ((r.stroke : Int) - (p.origin : Int)), preLoad := r.load, openStroke := r.stroke }

end Sys2Proof.Machine
end

