-- ==== Sys2Proof/Machine/Bus.lean ====
section
/-! DEFINITION. The Bus Master's operations (chapter 9): what a CALL carries, and where a successful reply is handed. -/

namespace Sys2Proof.Machine

/-! ## CALL (R141, R165) -/

/-- What a CALL to a station carries (R141, R165). -/
def State.callBody (s : State) (n : Nat) : CallBody :=
  if n = 0 then .summary (highestLevel s.atu.entries) s.atu.entries.length s.atu.overflow else .order (s.orderFor n)

/-- A CALL as it is composed: permissions are the inverse of the inhibits (R165). -/
def State.callFrame (s : State) (n : Nat) : Frame :=
  .call n (!(s.stationAt n).inhibits.a) (!(s.stationAt n).inhibits.b) (s.callBody n)

/-! ## Successful replies (R57, R60, R109, R131, R166) -/

/-- The kind a telemetry declares (Table 11-5). -/
def declaredKind : Telemetry → StationKind
  | .supervisor => .supervisor
  | .winch _ _ => .winch
  | .grout _ _ => .grout
  | .jack _ _ _ _ _ _ => .jack
  | .monitor _ => .monitor

/-- Whether a reply has the length its enrolled kind gives: for a MONITOR, its channel count (section 11.2). -/
def lengthFits (x : Station) : Telemetry → Bool
  | .monitor chs => chs.length = x.param.getD 0
  | _ => true

/-- What is wrong with a reply of a station, if anything (R160, section 11.2). -/
def replyError (x : Station) (d : Telemetry) : Option FrameError :=
  if declaredKind d ≠ x.kind then some .kind
  else if lengthFits x d = false then some .check
  else none

/-- The unit of the context's kind takes a used reply (R60). -/
def State.useReply (s : State) (c : Nat) (x : Context) (r : Reply) : State :=
  match x.prog, r.data with
  | .insert p, .winch count tension => s.winchReply c x p count tension
  | .grout p, .grout count pressure => s.pumpReply c x p count pressure
  | .stress p, .jack pressure stroke seated lifted restroking released =>
    match s.jackEnv x with
    | some env =>
      s.stressReply c x p r.fault env (takeReading env.cal pressure stroke seated lifted restroking released)
    | none => s
  | .destress p, .jack pressure stroke seated lifted restroking released =>
    match s.jackEnv x with
    | some env =>
      s.destressReply c x p r.fault env (takeReading env.cal pressure stroke seated lifted restroking released)
    | none => s
  | _, _ => s

/-- The context after R57 has been applied to a reply. -/
def Context.afterReply (x : Context) (busy siteStopped : Bool) : Context :=
  if busy then x.suspended else x.answered siteStopped

/-- A bound station's reply: the run state, then the unit when the context is not SUSPENDED (R57, R60). -/
def State.handToContext (s : State) (c : Nat) (x : Context) (r : Reply) : State :=
  let y := x.afterReply r.busy s.ifu.stop.isSome
  let s1 := s.putCtx c y
  if y.run = .suspended then s1 else s1.useReply c y r

/-- An unbound station's reply against the end condition of its parting order (R54, R120). -/
def State.testParting (s : State) (n : Nat) (d : Telemetry) : State :=
  match s.cxp.parting.get? n, d with
  | some p, .jack pressure _ _ _ _ _ =>
    match p.until? with
    | some (lo, hi) =>
      if lo ≤ takePressure pressure ∧ takePressure pressure ≤ hi then
        { s with cxp := { s.cxp with
            parting := s.cxp.parting.put n (Parting.plain (unboundOrder (s.stationAt n).kind)) } }
      else s
    | none => s
  | _, _ => s

/-- Hand a successful reply on (R166). -/
def State.handOn (s : State) (n : Nat) (r : Reply) : State :=
  match (s.stationAt n).ctx with
  | some c =>
    match s.ctxAt c with
    | some x => s.handToContext c x r
    | none => s
  | none =>
    match r.data with
    | .monitor chs => s.takeChannels n 0 chs
    | d => s.testParting n d

/-- The subject of a STATION_FAULT of station `n`: the record its context names, or the station (R133, R166). -/
def State.faultSubject (s : State) (n : Nat) : Subject :=
  match (s.stationAt n).ctx.bind s.ctxAt with
  | some x => .record x.slot
  | none => .station n

/-- Raise STATION_FAULT for station `n` on a subject (R6, R134). -/
def State.raiseFault (s : State) (n : Nat) : Subject → State
  | .record m => s.raise m n .stationFault
  | subj => s.raiseMark subj .stationFault

/-- The station entry after a successful reply (R166). -/
def Station.heard (x : Station) (l : LineId) (d : Telemetry) : Station :=
  { x with telemetry := some d, state := .present, failures := 0, preferred := l }

/-- Take a successful reply (R166), but for the turn. -/
def State.takeReply (s : State) (n : Nat) (l : LineId) (r : Reply) : State :=
  let s1 := (s.putStation n ((s.stationAt n).heard l r.data)).handOn n r
  if r.fault then s1.raiseFault n (s.faultSubject n) else s1

/-- A successful attempt on a line. -/
def Line.succeed (x : Line) : Line := { x with successes := x.successes + 1 }

/-- Where the turn goes after a successful reply: on with a FETCH, or to the next station (R166, R168). -/
def State.afterReply (s : State) (l : LineId) (srq : Bool) : State :=
  match s.bmu.turn with
  | some t => if srq then s.setTurn { t with fetchLine := some l } else s.moveTurn
  | none => s

/-- Noise on a line (R159). -/
def Line.noisy (x : Line) : Line :=
  if x.state = .active ∨ x.state = .quiet then { x with noise := min 65535 (x.noise + 1), tally := x.tally + 1 } else x

end Sys2Proof.Machine
end

