-- ==== Sys2Proof/Machine/BusEvents.lean ====
section
/-! DEFINITION. The events of the works bus (chapter 9): SCAN_START, CALL, REPLY_RECEIVED, REPLY_WINDOW_TIMEOUT, BAD_FRAME,
FETCH, ANSWER_END, NOISE_RECEPTION, ALLSTOP and TEST_PATTERN_COPY. An event that arrives where the bus has no place for
it changes nothing (assumption log 7). -/

namespace Sys2Proof.Machine

/-! ## SCAN_START (R164) -/

/-- A line as a scan begins: its tallies at 0, and the ALLSTOP it owed among those the scan sends. -/
def Line.beginScan (x : Line) : Line := { x with tally := 0, attempts := 0, successes := 0, allstopDue := false }

/-- Whether TIME is to be sent (R164). -/
def State.timeDue (s : State) : Bool := s.bmu.lastTime ≠ some (s.wck.time, s.wck.clock)

/-- The broadcasts of a scan's start on one line: ALLSTOP, then TIME (R164). -/
def State.broadcasts (s : State) (l : LineId) : List Sent :=
  if (s.lineAt l).state = .active then
    (if s.ifu.stop.isSome then [.frame l .allstop] else []) ++
      (if s.timeDue then [.frame l (.time s.wck.time s.wck.clock)] else [])
  else []

/-- What TIME last carried: it is sent where a line is ACTIVE. -/
def State.lastTimeAfter (s : State) : Option (Nat × ClockState) :=
  if s.bmu.lineA.state = .active ∨ s.bmu.lineB.state = .active then some (s.wck.time, s.wck.clock) else s.bmu.lastTime

/-- A scan begins: broadcasts, and the first turn (R164). -/
def State.beginScan (s : State) : State :=
  let sent := s.broadcasts .a ++ s.broadcasts .b
  let s1 := s.eachLine Line.beginScan
  ({ s1 with bmu := { s1.bmu with lastTime := s.lastTimeAfter, tx := sent } }).turnFrom 0

/-- SCAN_START (R164): no scan is under way, nor an exchange, and the bus works. -/
def execScanStart (s : State) : Host.Outcome State Fault Refusal :=
  if s.busUp ∧ s.bmu.turn = none ∧ s.bmu.exchange = .idle then .next s.beginScan else .next s

/-! ## CALL and FETCH (R165, R168) -/

/-- A CALL on a line, counted as an attempt on it; the first fixes the call's retry count (R162). -/
def State.sendCall (s : State) (t : Turn) (l : LineId) : State :=
  let x := s.lineAt l
  ((((s.putLine l { x with attempts := x.attempts + 1 }).setTurn
    { t with
      tries := t.tries + 1, lastLine := some l
      retry := if t.tries = 0 then (s.stationAt t.station).retry else t.retry }).setExchange (.call t.station l)).transmit
      [.frame l (s.callFrame t.station)])

/-- CALL (R165): the turn's next attempt, on the line it falls to; a station that is no longer enrolled or has no usable
line left is passed over (R156, R164; assumption log 33). DESIGN CHOICE (assumption log 34): a line that owes an ALLSTOP carries
a CALL that stands before it in the queue. -/
def execCall (s : State) : Host.Outcome State Fault Refusal :=
  match s.bmu.turn with
  | some t =>
    if s.busUp ∧ s.bmu.exchange = .idle ∧ t.fetchLine = none then
      match s.pickLine t with
      | some l => .next (s.sendCall t l)
      | none => .next s.moveTurn
    else .next s
  | none => .next s

/-- A FETCH on a line. -/
def State.sendFetch (s : State) (t : Turn) (l : LineId) : State :=
  ((s.setTurn { t with fetches := t.fetches + 1, fetchLine := none }).setExchange (.fetch t.station l)).transmit
    [.frame l (.fetch t.station)]

/-- FETCH (R168): on the line of the reply or of the ASK before it; a line that no longer carries calls to the station
ends the turn (R156). DESIGN CHOICE (assumption log 34): a line that owes an ALLSTOP carries a FETCH that stands before it in
the queue. -/
def execFetch (s : State) : Host.Outcome State Fault Refusal :=
  match s.bmu.turn with
  | some t =>
    match t.fetchLine with
    | some l =>
      if s.busUp ∧ s.bmu.exchange = .idle then
        if s.mayCall t.station l then .next (s.sendFetch t l) else .next s.moveTurn
      else .next s
    | none => .next s
  | none => .next s

/-! ## The reply window (R160, R166) -/

/-- A reply in the window of the CALL it answers (R160, R166, R168). -/
def State.replyInWindow (s : State) (station : Nat) (l : LineId) (r : Reply) : State :=
  match replyError (s.stationAt station) r.data with
  | some e => s.windowFailed e
  | none => (((s.setExchange .idle).putLine l (s.lineAt l).succeed).takeReply station l r).afterReply l r.srq

/-- A reply while no exchange is in progress stands for the exchange of its own CALL, on a line that carries one (R156;
assumption log 6). -/
def State.replyAlone (s : State) (station : Nat) (l : LineId) (r : Reply) : State :=
  match replyError (s.stationAt station) r.data with
  | some _ => s
  | none => if s.mayCall station l then s.takeReply station l r else s

/-- REPLY_RECEIVED (R166). In the window of another station's CALL, or of a FETCH, it is the frame that fails with
CHECK (R160). -/
def execReplyReceived (station : Nat) (line : LineId) (reply : Reply) (s : State) : Host.Outcome State Fault Refusal :=
  if s.busUp then
    match s.bmu.exchange with
    | .idle => .next (s.replyAlone station line reply)
    | .call n l =>
      if l ≠ line then .next s
      else if n = station then .next (s.replyInWindow station line reply)
      else .next (s.windowFailed .check)
    | .fetch _ l => if l = line then .next (s.windowFailed .check) else .next s
    | .answer _ _ _ => .next s
  else .next s

/-- REPLY_WINDOW_TIMEOUT (R160): no frame began in the open window. -/
def execReplyWindowTimeout (s : State) : Host.Outcome State Fault Refusal := .next (s.windowFailed .timeout)

/-- BAD_FRAME (R160): the frame received in the open window fails. -/
def execBadFrame (error : FrameError) (s : State) : Host.Outcome State Fault Refusal := .next (s.windowFailed error)

/-! ## ANSWER_END (R151, R158, R168) -/

/-- Whether a turn goes on with another FETCH after an ANSWER (R168). -/
def goesOn (t : Turn) (h : Ask) : Bool := h.station = 0 ∧ h.further ∧ t.fetches < Config.fetchLimit

/-- The turn after an ANSWER that its own FETCH led to (R168). -/
def State.turnAfterAnswer (s : State) (h : Ask) : State :=
  match s.bmu.turn with
  | some t =>
    if t.station = h.station ∧ 1 ≤ t.fetches ∧ t.fetchLine = none then
      if goesOn t h ∧ s.mayCall h.station h.line then s.setTurn { t with fetchLine := some h.line } else s.moveTurn
    else s
  | none => s

/-- The test of a line begins to send (R158). -/
def State.startTest (s : State) (l : LineId) : State :=
  match (s.lineAt l).test with
  | some t =>
    (s.putLine l { s.lineAt l with test := some { t with phase := .sending } }).transmit [.pattern l t.pattern]
  | none => s

/-- What the end of an ANSWER does (R151, R158, R168). -/
def State.answerEnded (s : State) (h : Ask) : AfterAnswer → State
  | .nothing | .allstop => s.turnAfterAnswer h
  | .restart => s.cabinetRestart
  | .test l => (s.turnAfterAnswer h).startTest l

/-- ANSWER_END (R151, R158, R168). -/
def execAnswerEnd (s : State) : Host.Outcome State Fault Refusal :=
  match s.bmu.exchange with
  | .answer h _ after => .next ((s.setExchange .idle).answerEnded h after)
  | _ => .next s

/-! ## Noise, ALLSTOP and line tests (R147, R158, R159) -/

/-- Whether an exchange is in progress on a line. -/
def Exchange.holds (x : Exchange) (l : LineId) : Bool :=
  match x with
  | .idle => false
  | .call _ m | .fetch _ m => m = l
  | .answer h _ _ => h.line = l

/-- NOISE_RECEPTION (R159): a frame start while the part neither transmits nor listens on the line. -/
def execNoiseReception (line : LineId) (s : State) : Host.Outcome State Fault Refusal :=
  if s.bmu.exchange.holds line then .next s else .next (s.putLine line (s.lineAt line).noisy)

/-- Whether an ALLSTOP waits on a line: for the exchange the line carries (R147), or on either line for the ANSWER of the
request that began the stop (R168). -/
def Exchange.delaysAllstop (x : Exchange) (l : LineId) : Bool :=
  match x with
  | .answer _ _ .allstop => true
  | x => x.holds l

/-- ALLSTOP (R147, R168): it goes out on an ACTIVE line that owes it once nothing delays it. -/
def execAllstop (line : LineId) (s : State) : Host.Outcome State Fault Refusal :=
  if s.busUp ∧ (s.lineAt line).allstopDue ∧ (s.lineAt line).state = .active ∧ s.bmu.exchange.delaysAllstop line = false then
    .next ((s.putLine line { s.lineAt line with allstopDue := false }).transmit [.frame line .allstop])
  else .next s

/-- A test result after one more copy (R158). -/
def LineTest.copy (t : LineTest) (received : List Byte) : LineTest :=
  { t with
    sent := t.sent + 1
    mismatches := if received = t.pattern.toList then t.mismatches else min 255 (t.mismatches + 1)
    phase := if t.asked ≤ t.sent + 1 then .completed else .sending }

/-- A copy of the pattern ends; the last completes the test and returns the line to QUIET (R158). -/
def State.copyEnded (s : State) (l : LineId) (t : LineTest) : State :=
  if t.phase = .completed then (s.putLine l { s.lineAt l with test := some t, state := .quiet }).transmit []
  else (s.putLine l { s.lineAt l with test := some t }).transmit [.pattern l t.pattern]

/-- TEST_PATTERN_COPY (R158). -/
def execTestPatternCopy (line : LineId) (received : List Byte) (s : State) : Host.Outcome State Fault Refusal :=
  match (s.lineAt line).test with
  | some t =>
    if (s.lineAt line).state = .testing ∧ t.phase = .sending then .next (s.copyEnded line (t.copy received)) else .next s
  | none => .next s

end Sys2Proof.Machine
end

