-- ==== Sys2Proof/Machine/BusRequests.lean ====
section
/-! DEFINITION. The requests on stations and lines (chapter 9): STATION_WRITE, STATION_READ, LINE_WRITE with and without
TEST, LINE_READ, and an ASK that is no request. -/

namespace Sys2Proof.Machine

/-! ## The line coverage test (R156) -/

/-- Whether a line of a given state is usable for a station with given inhibits (R156). -/
def usableIn (state : LineId → LineState) (inh : Inhibits) (station : Nat) (l : LineId) : Bool :=
  carriesCalls (state l) station ∧ !(inhibitedOn inh l)

/-- Whether an enrolled station has an ACTIVE line on which it is not inhibited. -/
def hasActive (state : LineId → LineState) (x : Station) : Bool :=
  x.kind = .none ∨ LineId.all.any (fun l => state l = .active ∧ !(inhibitedOn x.inhibits l))

/-- The line coverage test (R156), with the line states before and after, and the stations after. -/
def covered (before after : LineId → LineState) (stations : Vector Station 16) : Bool :=
  LineId.all.any (usableIn after stations[0].inhibits 0) ∧
    (LineId.all.any (fun l => before l = .active) = false ∨
      LineId.all.any (fun l => after l = .active) ∧ stations.toList.all (hasActive after))

/-- The line states as they stand. -/
def State.lineStates (s : State) : LineId → LineState := fun l => (s.lineAt l).state

/-- The line states with one line in another state. -/
def State.lineStatesWith (s : State) (l : LineId) (st : LineState) : LineId → LineState :=
  fun m => if m = l then st else s.lineStates m

/-! ## STATION_WRITE (R162) -/

/-- The enrolled kind a station will hold after a STATION_WRITE. -/
def kindAfter (x : Station) (kind : Option Nat) : StationKind := (kind.bind (ofCode StationKind.all)).getD x.kind

/-- The ranges of a kind parameter (R161); a kind without one has none. -/
def paramOk (k : StationKind) (n : Nat) : Bool :=
  match k with
  | .winch => within 1 1000 n
  | .grout => within 1 65535 n
  | .monitor => within 1 8 n
  | _ => false

/-- Whether a kind has a kind parameter (R161). -/
def needsParam : StationKind → Bool
  | .winch | .grout | .monitor => true
  | _ => false

/-- Whether a station may be given a kind (R162). -/
def kindAllowed (station : Nat) (k : StationKind) : Bool := station = 0 ↔ k = .supervisor

/-- The ranges of a STATION_WRITE (R162). -/
def State.stationWriteOk (s : State) (n : Nat) (kind retry param : Option Nat) : Bool :=
  stationOk n ∧ kind.all (codeOk StationKind.all) ∧ withinOpt 0 3 retry ∧
    kindAllowed n (kindAfter (s.stationAt n) kind) ∧
    param.all (paramOk (kindAfter (s.stationAt n) kind)) ∧
    (kindAfter (s.stationAt n) kind = (s.stationAt n).kind ∨ needsParam (kindAfter (s.stationAt n) kind) = false ∨
      param.isSome)

/-- The entry after a STATION_WRITE (R162). -/
def Station.written (x : Station) (kind retry : Option Nat) (inhibits : Option Inhibits) (param : Option Nat) : Station :=
  let k := kindAfter x kind
  let y := { x with retry := retry.getD x.retry, inhibits := inhibits.getD x.inhibits }
  if k = x.kind then { y with param := param <|> x.param }
  else
    { y with
      kind := k, param := param, state := if k = .none then .unused else .seeking, failures := 0, lastError := none
      telemetry := none }

/-- Whether a STATION_WRITE changes the enrolment (R161, R162). -/
def enrolmentDiffers (x y : Station) : Bool :=
  x.kind ≠ y.kind ∨ x.retry ≠ y.retry ∨ x.inhibits ≠ y.inhibits ∨ x.param ≠ y.param

/-- The parting order of a station whose kind has changed (R54). -/
def State.resetParting (s : State) (n : Nat) (k : StationKind) : State :=
  { s with cxp := { s.cxp with
      parting := s.cxp.parting.set n (if keepsParting k then some (Parting.plain (unboundOrder k)) else none) } }

/-- Remove the bindings to a station's channels from `first` on, in ascending slot order (R130). -/
def State.dropBindings (s : State) (station first stamp : Nat) : State :=
  s.usedSlots.foldl (fun t n =>
    match t.recAt n with
    | some r =>
      if r.binding.any (fun b => b.station = station ∧ first ≤ b.channel) then t.dropBinding n stamp r else t
    | none => t) s

/-- The first channel that a write of a MONITOR station takes away: all when the kind changes, those at or above a
lowered count (R130). -/
def firstLost (x y : Station) : Option Nat :=
  if x.kind ≠ .monitor then none
  else if y.kind ≠ .monitor then some 0
  else if y.param.getD 0 < x.param.getD 0 then some (y.param.getD 0)
  else none

/-- What a change of kind does beside the entry (R54, R89, R162). -/
def State.kindChanged (s : State) (n : Nat) (k : StationKind) : State :=
  let s1 := ({ s with cals := s.cals.erase n }).resetParting n k
  if k = .none then s1.clearMark (.station n) .stationFault else s1

/-- What a taken STATION_WRITE does (R162). -/
def State.writeStation (s : State) (n sender : Nat) (y : Station) : State :=
  let x := s.stationAt n
  let s1 := s.putStation n y
  let s2 := if x.kind = y.kind then s1 else s1.kindChanged n y.kind
  let s3 := match firstLost x y with
    | some c => s2.dropBindings n c sender
    | none => s2
  if enrolmentDiffers x y then s3.hand .header else s3

/-- The own checks of STATION_WRITE, and what a taken one does (R162). -/
def State.stationOwn (s : State) (n sender : Nat) (y : Station) : Ruling :=
  if (s.stationAt n).kind ≠ y.kind ∧ (s.stationAt n).ctx.isSome then refuse s .stationBound
  else if ((s.stationAt n).kind ≠ y.kind ∨ (s.stationAt n).inhibits ≠ y.inhibits) ∧
      covered s.lineStates s.lineStates (s.putStation n y).bmu.stations = false then refuse s .lastLine
  else done (s.writeStation n sender y) []

/-- STATION_WRITE (R162). -/
def execStationWrite (h : Ask) (station : Nat) (kind retry : Option Nat) (inhibits : Option Inhibits)
    (param : Option Nat) (s : State) : Host.Outcome State Fault Refusal :=
  s.request h .stationWrite (s.stationWriteOk station kind retry param)
    (s.stationOwn station h.station ((s.stationAt station).written kind retry inhibits param))

/-! ## STATION_READ (R163) -/

/-- Telemetry as an answer gives it, in the quantities of Table 11-5. -/
def telemetryFields : Telemetry → List Field
  | .supervisor => []
  | .winch c t => [.u16 c, .u16 t]
  | .grout c p => [.u16 c, .u32 p]
  | .jack p x seated lifted restroking released =>
    [.u8 (flags [seated, lifted, restroking, released]), .u32 p, .u16 x]
  | .monitor chs => counted (chs.map (fun c => [.u16 c.1, flag8 c.2]))

/-- Every item of R161: those always there, then those that may be absent. DESIGN CHOICE (assumption log 13): the inhibits share
one flag byte, Line A bit 0 and Line B bit 1, and the marks are one flag byte, STATION_FAULT bit 0. The kind parameter, two
bytes by Table 11-1, is absent for a JACK, whose parameter is by R161 its calibration table in the STU: CAL_READ answers that. -/
def Station.fields (x : Station) : List Field :=
  [enum8 StationKind.all x.kind, enum8 StationState.all x.state, .u8 x.retry,
    .u8 (flags [x.inhibits.a, x.inhibits.b]), enum8 LineId.all x.preferred, .u8 x.failures, flag8 x.faultMark] ++
    masked [ x.lastError.map (fun e => [enum8 FrameError.all e]),
      x.ctx.map (fun n => [.u8 n]),
      x.param.map (fun n => [.u16 n]),
      x.telemetry.map telemetryFields ]

/-- STATION_READ (R163). -/
def execStationRead (h : Ask) (station : Nat) (s : State) : Host.Outcome State Fault Refusal :=
  s.request h .stationRead (stationOk station) (done s (s.stationAt station).fields)

/-! ## LINE_WRITE (R157, R158) -/

/-- The states LINE_WRITE may give (R157). -/
def lineStateCode (n : Nat) : Option LineState :=
  match ofCode LineState.all n with
  | some .active => some .active
  | some .quiet => some .quiet
  | some .disabled => some .disabled
  | _ => none

/-- The ranges of a LINE_WRITE: the timeout is 1 to 8 steps of 0.5 ms (R155, R157). -/
def lineWriteOk (line : Nat) (state timeout gap : Option Nat) : Bool :=
  codeOk LineId.all line ∧ state.all (fun n => (lineStateCode n).isSome) ∧ withinOpt 1 8 timeout ∧ withinOpt 0 3 gap

/-- The own checks of LINE_WRITE, and what a taken one does (R157). -/
def State.lineOwn (s : State) (l : LineId) (state timeout gap : Option Nat) : Ruling :=
  let x := s.lineAt l
  let st := (state.bind lineStateCode).getD x.state
  if x.state = .testing then refuse s .wrongState
  else if st ≠ x.state ∧ covered s.lineStates (s.lineStatesWith l st) s.bmu.stations = false then refuse s .lastLine
  else done (s.putLine l { x with state := st, timeout := timeout.getD x.timeout, gap := gap.getD x.gap }) []

/-- The line a code names. -/
def lineOf (n : Nat) : LineId := (ofCode LineId.all n).getD .a

/-- LINE_WRITE (R157). -/
def execLineWrite (h : Ask) (line : Nat) (state timeout gap : Option Nat) (s : State) :
    Host.Outcome State Fault Refusal :=
  s.request h .lineWrite (lineWriteOk line state timeout gap) (s.lineOwn (lineOf line) state timeout gap)

/-- The own checks of a LINE_WRITE with TEST, and what a taken one does (R158). -/
def State.testOwn (s : State) (l : LineId) (pattern : Vector Byte 16) (count : Nat) : Ruling :=
  if (s.lineAt l).state ≠ .quiet then refuse s .wrongState
  else if covered s.lineStates (s.lineStatesWith l .testing) s.bmu.stations = false then refuse s .lastLine
  else
    { st := s.putLine l { s.lineAt l with
        state := .testing
        test := some { asked := count, sent := 0, mismatches := 0, phase := .answering, pattern := pattern } }
      result := .done, body := [], after := .test l }

/-- LINE_WRITE with TEST (R158). -/
def execLineWriteTest (h : Ask) (line : Nat) (pattern : Vector Byte 16) (count : Nat) (s : State) :
    Host.Outcome State Fault Refusal :=
  s.request h .lineWrite (codeOk LineId.all line ∧ within 1 255 count) (s.testOwn (lineOf line) pattern count)

/-! ## LINE_READ (R163) -/

/-- Whether a test has been completed (1), cut short (2), or neither yet (0). -/
def TestPhase.code : TestPhase → Nat
  | .completed => 1
  | .cutShort => 2
  | _ => 0

/-- A test result as an answer gives it (R155). -/
def LineTest.fields (t : LineTest) : List Field := [.u8 t.asked, .u8 t.sent, .u8 t.mismatches, .u8 t.phase.code]

/-- The items of a line with the figures of the last completed scan and the marks (R163). Attempts and successes are counts up to
255 (Table 11-1): a scan makes at most four attempts for each of sixteen stations (R161, R164, R165). DESIGN CHOICE (assumption
log 13): the tally of noise, which nothing bounds, has the width of the noise count, and the two marks share one flag byte,
LINE_FAULT bit 0 and LINE_NOISE bit 1. -/
def Line.fields (x : Line) : List Field :=
  [enum8 LineState.all x.state, .u8 x.timeout, .u8 x.gap, .u16 x.noise, .u16 x.lastTally, .u8 x.lastAttempts,
    .u8 x.lastSuccesses, .u8 (flags [x.faultMark, x.noiseMark])] ++
    masked [x.test.map LineTest.fields]

/-- LINE_READ (R163). -/
def execLineRead (h : Ask) (line : Nat) (s : State) : Host.Outcome State Fault Refusal :=
  s.request h .lineRead (codeOk LineId.all line) (done s (s.lineAt (lineOf line)).fields)

/-! ## No request of the table (R169) -/

/-- The request a code names (Table 11-6). -/
def reqOf (code : Nat) : Option Req := ofCode Req.all code

/-- What an ASK that is no request of the table is answered: an unknown code or bytes that do not fit at step 1, a field
that selects no form at step 3, after authority (R169). -/
def State.defectOwn (s : State) (h : Ask) (code : Nat) : AskDefect → Ruling
  | .unknownCode | .misfit _ => refuse s .badValue
  | .selector _ => if (reqOf code).any (s.permits h.station) then refuse s .badValue else refuse s .notPermitted

/-- What the ANSWER of an ASK that is no request of the table carries: the readings for a RELEASE, the part number it
brought for a request in parts (R148, R183). -/
def State.defectBody (s : State) (code : Nat) (defect : AskDefect) : List Field :=
  match reqOf code, defect with
  | some .release, _ => [s.readings]
  | some q, .misfit part | some q, .selector part => if q.inParts then part.toList.map Field.u8 else []
  | _, _ => []

/-- An ASK that is no request of the table: its code is echoed (R169, section 11.3). -/
def execUnknownRequest (h : Ask) (code : Nat) (defect : AskDefect) (s : State) : Host.Outcome State Fault Refusal :=
  s.take h code { s.defectOwn h code defect with body := s.defectBody code defect }

end Sys2Proof.Machine
end

