-- ==== Sys2Proof/Machine/ContextRequests.lean ====
section
/-! DEFINITION. The requests that bind, release and close work (chapter 3), END (R75) and RESTROKE (R122). -/

namespace Sys2Proof.Machine

/-! ## Binding (R48 to R52) -/

/-- The lowest FREE context (R46). -/
def State.lowestFreeCtx (s : State) : Option Nat :=
  (List.range Config.contextCount).find? (fun c => (s.ctxAt c).isNone)

/-- Whether a context kind works with a jack. -/
def usesJack : CtxKind → Bool
  | .insert | .grout => false
  | .stress | .destress => true

/-- Whether a record is in the state a binding needs (Table 3-2): for RESUME, held with the kind as held kind. -/
def inNeededState (k : CtxKind) (resumed : Bool) (r : Record) : Bool :=
  if resumed then r.state = .held ∧ r.heldKind = some k else r.state = k.neededState

/-- Checks 7 and 8 of Table 3-3: the class and, for a jack, its calibration and capacity. -/
def State.capacityRefusal (s : State) (k : CtxKind) (station : Nat) (r : Record) : Option Ruling :=
  match s.classOf r with
  | none => some (refuse s .notReady)
  | some cls =>
    if usesJack k then
      match s.calAt station with
      | none => some (refuse s .notReady)
      | some cal =>
        if lastCalLoad cal < testLoad cls then
          some (refuseWith s .capacity [.u16 (testLoad cls), .u16 (lastCalLoad cal)])
        else none
    else none

/-- Checks 1 to 6 of Table 3-3. -/
def State.readyRefusal (s : State) (k : CtxKind) (station : Nat) (r : Record) (resumed : Bool) : Option Ruling :=
  if (s.stationAt station).kind ≠ k.stationKind then some (refuse s .wrongKind)
  else if (s.stationAt station).state ≠ .present then some (refuse s .stationAbsent)
  else if (s.stationAt station).ctx.isSome then some (refuse s .stationBound)
  else if inNeededState k resumed r = false then some (refuse s .wrongState)
  else if s.ifu.stop.isSome then some (refuse s .siteStopped)
  else if s.wck.clock = .held then some (refuse s .notReady)
  else none

/-- Checks 9 and 10 of Table 3-3. -/
def State.nearRefusal (s : State) (k : CtxKind) (r : Record) : Option Ruling :=
  match s.excluder k r with
  | some c => some (refuseWith s .conflict [.u8 c])
  | none => if k = .destress ∧ s.isRelieved r.row = false then some (refuse s .reliedOn) else none

/-- A binding request after its own tests: the checks of Table 3-3 in order, then the binding (R50, R51). -/
def State.bindOwn (s : State) (k : CtxKind) (n station sender : Nat) (r : Record) (resumed : Bool) : Ruling :=
  match s.readyRefusal k station r resumed <|> s.capacityRefusal k station r <|> s.nearRefusal k r with
  | some v => v
  | none =>
    match s.lowestFreeCtx with
    | none => refuse s .full
    | some c =>
      let t := s.bindCtx c k n station sender r resumed
      done t [.u8 c, .u16 (t.revAt n)]

/-- START (R48). -/
def execStart (h : Ask) (kind slot station rev : Nat) (s : State) : Host.Outcome State Fault Refusal :=
  s.requestOn h .start (codeOk CtxKind.all kind ∧ slotOk slot ∧ rigOk station) slot (some rev) (fun r =>
    match ofCode CtxKind.all kind with
    | none => refuse s .badValue
    | some k => s.bindOwn k slot station h.station r false)

/-- The kind a BEGIN binds, by the sender's enrolled kind and the record's state (R49). -/
def beginKind (k : StationKind) (st : RecState) : Option CtxKind :=
  match k with
  | .winch => some .insert
  | .grout => some .grout
  | .jack => if st = .locked then some .destress else some .stress
  | _ => none

/-- The context that binds a station to a slot (R49). -/
def State.boundTo (s : State) (station n : Nat) : Option Nat :=
  match (s.stationAt station).ctx with
  | none => none
  | some c =>
    match s.ctxAt c with
    | some x => if x.slot = n then some c else none
    | none => none

/-- BEGIN after its ranges (R49). -/
def State.beginOwn (s : State) (sender row bay : Nat) : Ruling :=
  match s.liveAt row bay with
  | none => refuse s .noRecord
  | some n =>
    match s.recAt n with
    | none => refuse s .noRecord
    | some r =>
      match s.boundTo sender n with
      | some c => done s [.u8 c, .u16 (s.revAt n)]
      | none =>
        match beginKind (s.stationAt sender).kind r.state with
        | none => refuse s .wrongKind
        | some k => s.bindOwn k n sender sender r false

/-- BEGIN (R49). DESIGN CHOICE (assumption log 41): at a position whose live record has been retired with no replacement to
follow, the empty map entry of R49 answers NO_RECORD, and not the WRONG_STATE that R26 names. -/
def execBegin (h : Ask) (row bay : Nat) (s : State) : Host.Outcome State Fault Refusal :=
  s.request h .begin (rowOk row ∧ bayOk bay) (s.beginOwn h.station row bay)

/-- RESUME (R52). -/
def execResume (h : Ask) (slot rev : Nat) (station : Option Nat) (s : State) : Host.Outcome State Fault Refusal :=
  s.requestOn h .resume (slotOk slot ∧ station.any rigOk) slot (some rev) (fun r =>
    match station, r.heldKind with
    | some n, some k => if r.state = .held then s.bindOwn k slot n h.station r true else refuse s .wrongState
    | none, _ => refuse s .badValue
    | _, none => refuse s .wrongState)

/-! ## ABORT (R55) -/

/-- The context that names a slot, with its number (R47). -/
def State.ctxNaming (s : State) (n : Nat) : Option (Nat × Context) := s.cxp.contexts.find? (fun p => p.2.slot = n)

/-- ABORT (R55). A record in a work state is named by a context (R47). -/
def execAbort (h : Ask) (slot : Nat) (s : State) : Host.Outcome State Fault Refusal :=
  s.requestOn h .abort (slotOk slot) slot none (fun r =>
    match s.ctxNaming slot with
    | some (c, x) =>
      if r.state.isWork then doneRev (s.releaseHeld c x .aborted h.station [] none) slot else refuse s .wrongState
    | none => refuse s .wrongState)

/-! ## CLOSE (R56, Table 3-5) -/

/-- A record out of HELD (R56). -/
def unheld (st : RecState) (r : Record) : Record := { r with state := st, heldKind := none, heldReason := none }

/-- Whether a record is held with a held kind. -/
def heldWith (k : CtxKind) (r : Record) : Bool := r.state = .held ∧ r.heldKind = some k

/-- CLOSE with decision WITHDRAW: back to BORED without the insertion result. -/
def execCloseWithdraw (h : Ask) (slot rev : Nat) (s : State) : Host.Outcome State Fault Refusal :=
  s.requestOn h .close (slotOk slot) slot (some rev) (fun r =>
    if heldWith .insert r then
      doneRev (s.update slot h.station (fun q => { unheld .bored q with insertion := none })) slot
    else refuse s .wrongState)

/-- The grout result of CLOSE ACCEPT: volume and peak as held, or 0 (R84, Table 3-5). -/
def acceptedGrout (g : Option GroutResult) (now : Nat) : GroutResult where
  volume := (g.map GroutResult.volume).getD 0
  peak := (g.map GroutResult.peak).getD 0
  reason := some .accepted
  endTime := some now

/-- CLOSE with decision ACCEPT: a held grouting goes to CURING (R84, R85). -/
def execCloseAccept (h : Ask) (slot rev : Nat) (s : State) : Host.Outcome State Fault Refusal :=
  s.requestOn h .close (slotOk slot) slot (some rev) (fun r =>
    if heldWith .grout r then
      match s.classOf r with
      | none => refuse s .notReady
      | some cls =>
        doneRev (s.update slot h.station (fun q => { unheld .curing q with
          grout := some (acceptedGrout q.grout s.wck.time)
          cureEnd := some (cureEndOf cls s.wck.time) })) slot
    else refuse s .wrongState)

/-- CLOSE with decision RESTART: a held stressing goes back to READY. -/
def execCloseRestart (h : Ask) (slot rev : Nat) (s : State) : Host.Outcome State Fault Refusal :=
  s.requestOn h .close (slotOk slot) slot (some rev) (fun r =>
    if heldWith .stress r then doneRev (s.update slot h.station (unheld .ready)) slot else refuse s .wrongState)

/-- CLOSE with decision RETEST: a failed record is stressed again, twice at most. -/
def execCloseRetest (h : Ask) (slot rev : Nat) (s : State) : Host.Outcome State Fault Refusal :=
  s.requestOn h .close (slotOk slot) slot (some rev) (fun r =>
    if r.state = .failed then
      if 2 ≤ r.retests then refuse s .limit
      else doneRev (s.update slot h.station (fun q => { q with state := .ready, retests := q.retests + 1 })) slot
    else refuse s .wrongState)

/-- CLOSE with decision ABANDON: a failed record retires (R8). -/
def execCloseAbandon (h : Ask) (slot rev : Nat) (s : State) : Host.Outcome State Fault Refusal :=
  s.requestOn h .close (slotOk slot) slot (some rev) (fun r =>
    if r.state = .failed then
      if s.isLive slot r ∧ s.isRelied r.row then refuse s .reliedOn
      else doneRev (s.retireRecord slot h.station .failed id) slot
    else refuse s .wrongState)

/-! ## END and RESTROKE -/

/-- END of the context's unit (R75, R76, R83, R123). -/
def State.endCtx (s : State) (c : Nat) (x : Context) : State :=
  match x.prog with
  | .insert p => s.winchEnd c x p
  | .grout p => s.groutEnd c x p
  | .stress _ | .destress _ => s.releaseHeld c x .operator x.station [] none

/-- The answer to a taken END: slot, new state, new revision (R75). -/
def State.endBody (s : State) (n : Nat) : List Field :=
  [.u16 n, enum8 RecState.all ((s.recAt n).map Record.state |>.getD .planned), .u16 (s.revAt n)]

/-- END (R75). -/
def execEndWork (h : Ask) (s : State) : Host.Outcome State Fault Refusal :=
  s.request h .endWork true
    (match (s.stationAt h.station).ctx with
      | none => refuse s .wrongState
      | some c =>
        match s.ctxAt c with
        | none => refuse s .wrongState
        | some x => done (s.endCtx c x) ((s.endCtx c x).endBody x.slot))

/-- The last used reply of a jack context; before any, its load and stroke are free (assumption log 3), and nothing reads
its pressure and extension. -/
def State.lastUsed (s : State) (p : JackProg) : LastReply :=
  p.last.getD {
    pressure := 0
    load := Config.freeValue s.freeNext % (Config.maxLoad + 1)
    stroke := Config.freeValue (s.freeNext + 1) % (Config.maxStroke + 1)
    ext := 0 }

/-- The state once the free values a RESTROKE used are taken. -/
def State.spendFree (s : State) (p : JackProg) : State :=
  if p.last.isSome then s else { s with freeNext := s.freeNext + 2 }

/-- RESTROKE of a stressing (R98, R122). -/
def State.restrokeOwn (s : State) (c : Nat) (x : Context) (p : JackProg) : Ruling :=
  if p.restrokeAllowed = false then refuse s .wrongState
  else if 8 ≤ p.restrokes then refuse s .limit
  else
    done ((s.spendFree p).putCtx c { x with prog := .stress (p.openRestroke (s.lastUsed p)) })
      [.u8 (p.restrokes + 1)]

/-- RESTROKE (R122). -/
def execRestroke (h : Ask) (s : State) : Host.Outcome State Fault Refusal :=
  s.request h .restroke true
    (match (s.stationAt h.station).ctx with
      | none => refuse s .wrongState
      | some c =>
        match s.ctxAt c with
        | some x =>
          match x.prog with
          | .stress p => s.restrokeOwn c x p
          | _ => refuse s .wrongState
        | none => refuse s .wrongState)

end Sys2Proof.Machine
end

