-- ==== Sys2Proof/Machine/WriterEvents.lean ====
section
/-! DEFINITION. The image writer (chapter 10): WRITER_TAKE_ITEM, BLOCK_WRITE_ACK, BLOCK_WRITE_TIMEOUT and
WRITER_WAIT_END. -/

namespace Sys2Proof.Machine

/-- The address of a block of the image memory (R172). -/
def blockAddress (b : Nat) : Nat := b * Config.blockSize

/-- The image memory with a block in it. -/
def Isi.store (i : Isi) (block : Nat) (bytes : List Byte) : Isi :=
  { i with
    image := i.image.writeBytes (blockAddress block) (padTo Config.blockSize bytes)
    damaged := i.damaged.filter (fun b => b ≠ block) }

/-- What stands in the image memory of a block whose write was not acknowledged (R175): a mixed content fails its check
until a later attempt rewrites the block. -/
def Isi.leave (i : Isi) (block : Nat) (bytes : List Byte) : Remnant → Isi
  | .unchanged => i
  | .whole => i.store block bytes
  | .mixed mix => { i.store block mix with damaged := block :: i.damaged.filter (fun b => b ≠ block) }

/-- The writer takes the head item: its snapshot is taken, and the item leaves the queue (R174). -/
def State.takeItem (s : State) : State :=
  match s.isi.writer, s.isi.queue with
  | .idle, i :: rest =>
    { s with isi := { s.isi with queue := rest, writer := .writing i i.firstBlock (s.snapshot i) } }
  | _, _ => s

/-- WRITER_TAKE_ITEM (R174). -/
def execWriterTakeItem (s : State) : Host.Outcome State Fault Refusal := .next s.takeItem

/-- Remove IMAGE_WRITE from one subject, by its owner (R174). -/
def State.unmarkWrite (s : State) : Subject → State
  | .record n => s.unraise n Config.partStation .imageWrite
  | subj => s.clearMark subj .imageWrite

/-- The subjects that failed attempts of an item have named (R175). -/
def Isi.subjectsOf (i : Isi) (item : Item) : List Subject :=
  (i.noted.filter (fun p => p.1 = item)).map Prod.snd

/-- An item is written: the writer is IDLE, and IMAGE_WRITE leaves the subjects its failed attempts named (R174). -/
def State.itemWritten (s : State) (item : Item) : State :=
  (s.isi.subjectsOf item).foldl State.unmarkWrite
    { s with isi := { s.isi with writer := .idle, noted := s.isi.noted.filter (fun p => p.1 ≠ item) } }

/-- The block being written is acknowledged (R174). -/
def State.ackBlock (s : State) (item : Item) (block : Nat) (bytes : List Byte) (rest : List (List Byte)) : State :=
  let s1 := { s with isi := s.isi.store block bytes }
  match rest with
  | [] => s1.itemWritten item
  | _ => { s1 with isi := { s1.isi with writer := .writing item (block + 1) rest } }

/-- BLOCK_WRITE_ACK (R174). -/
def execBlockWriteAck (s : State) : Host.Outcome State Fault Refusal :=
  match s.isi.writer with
  | .writing item block (bytes :: rest) => .next (s.ackBlock item block bytes rest)
  | _ => .next s

/-- The subject of an item's IMAGE_WRITE: the record of its slot, or the site (R175). -/
def State.writeSubject (s : State) : Item → Subject
  | .header => .site
  | .slot n => if (s.recAt n).isSome then .record n else .site

/-- Raise IMAGE_WRITE on a subject (R175). -/
def State.markWrite (s : State) : Subject → State
  | .record n => s.raise n Config.partStation .imageWrite
  | subj => s.raiseMark subj .imageWrite

/-- Note the subject a failed attempt names (R175). -/
def Isi.note (i : Isi) (item : Item) (subj : Subject) : Isi :=
  if (item, subj) ∈ i.noted then i else { i with noted := i.noted ++ [(item, subj)] }

/-- A failed attempt: the item goes back to the head, the writer waits (R175). -/
def Isi.fail (i : Isi) (item : Item) : Isi := { i with queue := item :: i.queue.erase item, writer := .waiting }

/-- A block write fails the attempt on its item (R175). -/
def State.failBlock (s : State) (item : Item) (block : Nat) (bytes : List Byte) (left : Remnant) : State :=
  ({ s with isi := (((s.isi.leave block bytes left).note item (s.writeSubject item)).fail item) }).markWrite
    (s.writeSubject item)

/-- BLOCK_WRITE_TIMEOUT (R175). -/
def execBlockWriteTimeout (remnant : Remnant) (s : State) : Host.Outcome State Fault Refusal :=
  match s.isi.writer with
  | .writing item block (bytes :: _) => .next (s.failBlock item block bytes remnant)
  | _ => .next s

/-- WRITER_WAIT_END: the writer becomes IDLE and takes the head at once (R175). -/
def execWriterWaitEnd (s : State) : Host.Outcome State Fault Refusal :=
  match s.isi.writer with
  | .waiting => .next ({ s with isi := { s.isi with writer := .idle } }).takeItem
  | _ => .next s

end Sys2Proof.Machine
end

