-- ==== Sys2Proof/Machine/Restore.lean ====
section
/-! DEFINITION. The restore (R177 to R180): the header, the record blocks, duplicate keys, the corrections of kept records,
the map, the dig row and the attention list. -/

namespace Sys2Proof.Machine

/-! ## Header (R177) -/

/-- Whether a block was not delivered or stands part-written (R175, section 10.4). -/
def Isi.broken (i : Isi) (undelivered : List Nat) (b : Nat) : Bool := b ∈ undelivered ∨ b ∈ i.damaged

/-- The header of the image memory, when its check passes (R177). -/
def Isi.header (i : Isi) (undelivered : List Nat) : Option Header :=
  if (List.range Config.headerBlocks).any (i.broken undelivered) then none
  else readHeader (i.image.readBytes 0 (Config.headerBlocks * Config.blockSize))

/-- Apply what the header gives, or its absence (R177). -/
def State.applyHeader (s : State) : Option Header → State
  | some h =>
    { s with
      tbc := { s.tbc with site := h.site, classes := h.classes }
      cals := h.cals
      atu := s.atu.sound h.site.alarm
      bmu := { s.bmu with stations := h.stations }
      sys := { s.sys with phase := .readRecords (some h.time) } }
  | none =>
    { s with
      isi := { s.isi with suspectMark := true }
      sys := { s.sys with phase := .readRecords none } }

/-! ## Record blocks (R178) -/

/-- The SUSPECT record of a key (R23, R178). -/
def suspectRecord (row bay gen time : Nat) : Record where
  row := row
  bay := bay
  gen := gen
  cls := 0
  state := .suspect
  stamp := { time := time, station := Config.partStation }
  freeOv := none
  bondOv := none
  context := none
  heldKind := none
  heldReason := none
  insertion := none
  grout := none
  cureEnd := none
  stress := none
  retests := 0
  lockoffLoad := none
  liftoffLoad := none
  binding := none
  monitored := none
  conds := [.imageSuspect]
  replaces := none
  replacedBy := none
  retireReason := none

/-- One record block as taken (R178). A block that the memory does not deliver shows no key, so its slot is FREE
(section 10.4; assumption log 31). -/
def Isi.takeAt (i : Isi) (undelivered : List Nat) (b : Nat) : Taken :=
  if b ∈ undelivered then takeFailed []
  else takeBlock (i.image.readBytes (blockAddress b) Config.blockSize) (b ∈ i.damaged)

/-- Every record block as taken, by slot (R178). -/
def Isi.blocks (i : Isi) (undelivered : List Nat) : List (Nat × Taken) :=
  (List.range Config.slotCount).map (fun n => (n, i.takeAt undelivered (Config.headerBlocks + n)))

/-- The stamp of a sound block. -/
def Taken.time : Taken → Nat
  | .sound _ r _ => r.stamp.time
  | _ => 0

/-- The restored works time (R180). -/
def restoredTime (headerTime : Option Nat) (bs : List (Nat × Taken)) : Nat :=
  bs.foldl (fun t p => max t p.2.time) (headerTime.getD 0)

/-- The key a block gives its slot, if it gives one. -/
def Taken.key : Taken → Option (Nat × Nat × Nat)
  | .free _ => none
  | .sound _ r _ => some (r.row, r.bay, r.gen)
  | .suspect row bay gen => some (row, bay, gen)

/-- Whether of two slots with the same key `x` is kept before `y` (R178). DESIGN CHOICE (assumption log 40): a record of state
SUSPECT in a sound block counts as sound. -/
def keptBefore (x y : Nat × Taken) : Bool :=
  match x.2, y.2 with
  | .sound _ r _, .sound _ q _ => q.stamp.time < r.stamp.time ∨ q.stamp.time = r.stamp.time ∧ x.1 < y.1
  | .sound _ _ _, .suspect _ _ _ => true
  | .suspect _ _ _, .suspect _ _ _ => x.1 < y.1
  | _, _ => false

/-- Whether a slot's block is kept: no other slot with its key is kept before it (R178). -/
def kept (bs : List (Nat × Taken)) (x : Nat × Taken) : Bool :=
  x.2.key.isSome ∧ bs.all (fun y => y.2.key ≠ x.2.key ∨ keptBefore y x = false)

/-- The slot a block leaves at the restored works time (R178): one whose record gave way is FREE at 65535. -/
def slotOf (bs : List (Nat × Taken)) (time : Nat) (x : Nat × Taken) : Slot :=
  match x.2 with
  | .free rev => { rev := rev, rec? := none }
  | .sound rev r _ => if kept bs x then { rev := rev, rec? := some r } else Slot.fresh
  | .suspect row bay gen =>
    if kept bs x then { rev := 0, rec? := some (suspectRecord row bay gen time) } else Slot.fresh

/-- The Anchor Table as the blocks give it; a slot that is as fresh is not listed. -/
def restoredSlots (bs : List (Nat × Taken)) (time : Nat) : Table Slot :=
  bs.filterMap (fun x => if slotOf bs time x = Slot.fresh then none else some (x.1, slotOf bs time x))

/-! ## Corrections (R179) -/

/-- The record of a slot of a table. -/
def recIn (t : Table Slot) (n : Nat) : Option Record := (t.get? n).bind Slot.rec?

/-- A link of `r` that may stay: it names a record at the same position that is not SUSPECT (R179). -/
def goodLink (t : Table Slot) (r : Record) (link : Option Nat) : Option Nat :=
  link.filter (fun n => (recIn t n).any (fun q => q.row = r.row ∧ q.bay = r.bay ∧ q.state ≠ .suspect))

/-- A binding of `r` that may stay (R179), given the channels lower slots hold. -/
def goodBinding (stations : Vector Station 16) (channels : Table Nat) (r : Record) : Option Binding :=
  r.binding.filter (fun b =>
    r.state = .locked ∧
      ((stations[b.station]?).any (fun x => x.kind = .monitor ∧ b.channel < x.param.getD 0)) ∧
      (channels.get? (channelKey b)).isNone)

/-- A record as the power-on found it, out of its work state (R179). -/
def outOfWork (r : Record) : Record :=
  match r.state.workKind with
  | some k => { r with state := .held, heldKind := some k, heldReason := some .power, context := none }
  | none => r

/-- A kept record corrected (R179). -/
def corrected (t : Table Slot) (stations : Vector Station 16) (channels : Table Nat) (r : Record) : Record :=
  { outOfWork r with
    conds := dropCond .imageWrite r.conds
    replaces := goodLink t r r.replaces
    replacedBy := goodLink t r r.replacedBy
    binding := goodBinding stations channels r }

/-- A slot corrected: a record that changes takes one revision step and the stamp of the part (R179). -/
def correctedSlot (t : Table Slot) (stations : Vector Station 16) (channels : Table Nat) (time : Nat) (x : Slot) : Slot :=
  match x.rec? with
  | none => x
  | some r =>
    let q := corrected t stations channels r
    if q = r then x
    else
      { rev := (x.rev + 1) % Config.revisionModulus
        rec? := some { q with stamp := { time := time, station := Config.partStation } } }

/-- The channel map with a slot's binding in it. -/
def withChannel (channels : Table Nat) (n : Nat) (x : Slot) : Table Nat :=
  match x.rec?.bind Record.binding with
  | some b => channels.put (channelKey b) n
  | none => channels

/-- The corrected table and the channel map, built in ascending slot order (R128, R179). -/
def correctAll (t : Table Slot) (stations : Vector Station 16) (time : Nat) :
    (rest : Table Slot) → (channels : Table Nat) → Table Slot × Table Nat
  | [], channels => ([], channels)
  | (n, x) :: rest, channels =>
    let y := correctedSlot t stations channels time x
    let out := correctAll t stations time rest (withChannel channels n y)
    ((n, y) :: out.1, out.2)

/-! ## Position Map (R179) -/

/-- Whether a block was sound and held the live flag. -/
def Taken.isLive : Taken → Bool
  | .sound _ _ live => live
  | _ => false

/-- How a record stands among the candidates of its position: those from sound blocks with the live flag by highest
generation, then SUSPECT ones by lowest (R179). -/
def candidacy (live : Bool) (r : Record) : Option Nat :=
  if r.state = .retired then none
  else if live then some (10 + r.gen)
  else if r.state = .suspect then some (4 - r.gen)
  else none

/-- The best candidate of each position so far, with its standing. -/
def electOne (slots : Table Slot) (best : Table (Nat × Nat)) (x : Nat × Taken) : Table (Nat × Nat) :=
  match recIn slots x.1 with
  | none => best
  | some r =>
    match candidacy x.2.isLive r with
    | none => best
    | some c =>
      if (best.get? (posKey r.row r.bay)).all (fun p => p.1 < c) then best.put (posKey r.row r.bay) (c, x.1) else best

/-- The Position Map rebuilt (R179). -/
def rebuiltMap (slots : Table Slot) (bs : List (Nat × Taken)) : Table Nat :=
  (bs.foldl (electOne slots) []).map (fun p => (p.1, p.2.2))

/-! ## The end of the restore (R179, R180) -/

/-- The records, the maps and the works time, which a stop that began during the restore takes as the time of its origin
(R152, R178 to R180). DESIGN CHOICE (assumption log 28): whichever sample it began at. -/
def State.applyRecords (s : State) (bs : List (Nat × Taken)) (time : Nat) : State :=
  let t := restoredSlots bs time
  let out := correctAll t s.bmu.stations time t []
  { s with
    tbc := { s.tbc with slots := out.1, map := rebuiltMap out.1 bs }
    channels := out.2
    wck := { time := time, clock := .held, scale := 1 }
    ifu := { s.ifu with stop := s.ifu.stop.map (fun o => { o with time := time }) } }

/-- The dig row against the rebuilt map, SUSPECT counted as LOCKED (R179). -/
def State.checkDig (s : State) : State :=
  if s.digValue true < s.tbc.site.digRow then
    { s with
      tbc := { s.tbc with site := { s.tbc.site with digRow := s.digValue true } }
      isi := { s.isi with suspectMark := true } }
  else s

/-- The marks of one subject, in ascending priority, raised at the works time (R180). -/
def State.tellMarks (s : State) (subj : Subject) : State :=
  (Cond.all.filter (s.marked subj)).foldl (fun t c => t.tell subj c) s

/-- The attention list rebuilt: the site's marks, then each record's in ascending slot order (R180). -/
def State.rebuildList (s : State) : State :=
  s.usedSlots.foldl (fun t n => t.tellMarks (.record n))
    (({ s with atu := { entries := [], overflow := 0, alm := false } }).tellMarks .site)

/-- The restore ends (R179, R180). -/
def State.finishRestore (s : State) (headerTime : Option Nat) (bs : List (Nat × Taken)) : State :=
  let s1 := ((s.applyRecords bs (restoredTime headerTime bs)).checkDig).rebuildList
  { s1 with sys := { s1.sys with phase := .up } }

end Sys2Proof.Machine
end

