-- ==== Sys2Proof/Machine/PowerEvents.lean ====
section
/-! DEFINITION. The events of the pins and of power (chapters 8 and 10): FILTER_SAMPLE, PIN_CHANGE, RST_ASSERT, RST_NEGATE,
POWER_ON, HEADER_RESTORED and RESTORE_COMPLETE. -/

namespace Sys2Proof.Machine

/-! ## Inputs (R144, R152) -/

/-- Whether the IFU samples: its settings have been set since power-on (R152). -/
def State.sampling (s : State) : Bool :=
  match s.sys.phase with
  | .awaitRst | .readHeader => false
  | .readRecords _ | .up => true

/-- FILTER_SAMPLE (R144): an input with filter code 0 is not sampled. -/
def execFilterSample (input : Fin 4) (s : State) : Host.Outcome State Fault Refusal :=
  if s.sampling ∧ s.tbc.site.inputs[input].filter ≠ 0 then
    .next (s.changeInputs (s.ifu.inputs.set input (s.ifu.inputs[input]).sample))
  else .next s

/-- A pin at a level. -/
def Input.atLevel (x : Input) (level : Contact) : Input := { x with pin := level }

/-- PIN_CHANGE (R144): with filter code 0 the change is accepted at once. -/
def execPinChange (input : Fin 4) (level : Contact) (s : State) : Host.Outcome State Fault Refusal :=
  let x := (s.ifu.inputs[input]).atLevel level
  if s.sampling ∧ s.tbc.site.inputs[input].filter = 0 then
    .next (s.changeInputs (s.ifu.inputs.set input x.restart))
  else .next { s with ifu := { s.ifu with inputs := s.ifu.inputs.set input x } }

/-! ## Power-on (R151, R176) -/

/-- The start-up mode that MD1 and MD0 choose (Table 10-2). -/
def startMode (md1 md0 : Bool) : StartMode :=
  match md1, md0 with
  | false, false => .fresh
  | true, false => .commission
  | _, true => .restore

/-- The image memory once power was lost: the block that was being written holds what the memory made of it (R175). -/
def Isi.powerLost (i : Isi) (left : Remnant) : Isi :=
  match i.writer with
  | .writing _ block (bytes :: _) => i.leave block bytes left
  | _ => i

/-- The part with nothing but what outlives the power: the image memory, the pins, the commands that wait. -/
def State.unpowered (s : State) : State :=
  { State.reset with
    ifu := { State.reset.ifu with inputs := s.ifu.inputs.map Input.restart }
    isi := { State.reset.isi with queue := [], image := s.isi.image, damaged := s.isi.damaged }
    wck := { State.reset.wck with clock := .held }
    sys := { mode := s.sys.mode, phase := .awaitRst, rst := s.sys.rst }
    freeNext := s.freeNext
    pending := s.pending }

/-- The line state of both lines after a power-on (R155, Table 10-2). -/
def linesAt (mode : StartMode) : LineState := if mode = .commission then .quiet else .active

/-- A FRESH or COMMISSION start-up: its state in one event, the queue, the first samples (R152, R173, R176). -/
def State.startEmpty (s : State) (mode : StartMode) : State :=
  (({ s with
    wck := State.reset.wck
    isi := { s.isi with queue := Isi.freshQueue }
    sys := { s.sys with mode := mode, phase := .up } }).eachLine (fun x => { x with state := linesAt mode })).restartInputs

/-- The power-on start in the mode that is sampled (R176): a RESTORE reads the image first. -/
def State.powerStart (s : State) (mode : StartMode) : State :=
  match mode with
  | .restore => { s.unpowered with sys := { s.sys with mode := .restore, phase := .readHeader } }
  | m => s.unpowered.startEmpty m

/-- The part as power comes back, its image as the loss of power left it. -/
def State.repower (s : State) (left : Remnant) : State :=
  ({ s with isi := s.isi.powerLost left }).unpowered

/-- POWER_ON (R151, R176): RST asserted at power-on holds the start until it is negated. -/
def execPowerOn (md1 md0 : Bool) (remnant : Remnant) (s : State) : Host.Outcome State Fault Refusal :=
  if s.sys.rst then .next (s.repower remnant) else .next ((s.repower remnant).powerStart (startMode md1 md0))

/-! ## RST (R151) -/

/-- Set the RST pin. -/
def State.setRst (s : State) (on : Bool) : State := { s with sys := { s.sys with rst := on } }

/-- RST_ASSERT (R151): a cabinet restart but for the input filters, or the end of a start-up under way. -/
def execRstAssert (s : State) : Host.Outcome State Fault Refusal :=
  if s.sys.rst then .next s
  else if s.sys.phase = .up then .next (s.restartCore.setRst true)
  else .next (s.unpowered.setRst true)

/-- RST_NEGATE (R151, R152): the input filters restart, or the power-on start is made afresh with the mode pins sampled
again. -/
def execRstNegate (md1 md0 : Bool) (s : State) : Host.Outcome State Fault Refusal :=
  if s.sys.rst = false then .next s
  else if s.sys.phase = .awaitRst then .next ((s.setRst false).powerStart (startMode md1 md0))
  else .next (s.setRst false).restartInputs

/-! ## The restore's two ends (R177, R180) -/

/-- HEADER_RESTORED (R152, R177): the header's values are applied, and the inputs are first sampled. -/
def execHeaderRestored (undelivered : List Nat) (s : State) : Host.Outcome State Fault Refusal :=
  if s.sys.phase = .readHeader then .next (s.applyHeader (s.isi.header undelivered)).restartInputs else .next s

/-- RESTORE_COMPLETE (R178 to R180). -/
def execRestoreComplete (undelivered : List Nat) (s : State) : Host.Outcome State Fault Refusal :=
  match s.sys.phase with
  | .readRecords headerTime => .next (s.finishRestore headerTime (s.isi.blocks undelivered))
  | _ => .next s

end Sys2Proof.Machine
end

