-- ==== Sys2Proof/Machine/RecordRequests.lean ====
section
/-! DEFINITION. The requests on records that bind no context (chapter 1): FIND, LIST, CREATE, AMEND, BORED, RETIRE,
REPLACE, PURGE and CERTIFY. -/

namespace Sys2Proof.Machine

/-! ## Views (R11 to R13) -/

/-- The image status of a slot: CLEAN 0, QUEUED 1, WRITING 2, WRITING_REQUEUED 3 (R13, section 11.3). -/
def State.imageStatus (s : State) (n : Nat) : Nat :=
  let queued := if .slot n ∈ s.isi.queue then 1 else 0
  match s.isi.writer with
  | .writing i _ _ => if i = .slot n then 2 + queued else queued
  | _ => queued

/-- The context bound to a record (R47). -/
def State.ctxOf (s : State) (r : Record) : Option Context := r.context.bind s.ctxAt

/-- An optional number as an item of one byte, of two, and of four. -/
def item8 (o : Option Nat) : Option (List Field) := o.map (fun n => [.u8 n])
/-- An optional number as an item of two bytes. -/
def item16 (o : Option Nat) : Option (List Field) := o.map (fun n => [.u16 n])
/-- An optional number as an item of four bytes. -/
def item32 (o : Option Nat) : Option (List Field) := o.map (fun n => [.u32 n])

/-- The IDENT view (Table 1-6). The live flag and the image status share one byte (section 11.3). DESIGN CHOICE (assumption
log 13): and one bit of the mask. -/
def State.identView (s : State) (n : Nat) (r : Record) : List (Option (List Field)) :=
  let cls := s.classOf r
  [ some [.u8 r.cls],
    some [.u32 r.stamp.time, .u8 r.stamp.station],
    item16 r.freeOv,
    item16 r.bondOv,
    item16 (r.freeOv <|> cls.map ClassEntry.freeLen),
    item16 (r.bondOv <|> cls.map ClassEntry.bondLen),
    item32 (cls.map (fun c => tendonLength c r)),
    item8 r.context,
    r.heldKind.map (fun k => [enum8 CtxKind.all k]),
    r.heldReason.map (fun k => [enum8 HeldReason.all k]),
    some [.u8 r.retests],
    item16 r.replaces,
    item16 r.replacedBy,
    r.retireReason.map (fun k => [enum8 RetireReason.all k]),
    some [.u8 ((if s.isLive n r then 1 else 0) + 2 * s.imageStatus n)] ]

/-- The INSERT view (Table 1-6, R32, R73). DESIGN CHOICE (assumption log 13): the present winch order is its order code in one
byte, as in a CALL. -/
def State.insertView (s : State) (r : Record) : List (Option (List Field)) :=
  let live := match s.ctxOf r with
    | some x => match x.prog with
      | .insert p => some (payout p, s.orderFor x.station)
      | _ => none
    | none => none
  [ item32 r.insertion,
    item16 ((s.classOf r).map ClassEntry.insTol),
    item32 (live.map Prod.fst),
    live.map (fun x => [.u8 x.2.code]) ]

/-- The GROUT view (Table 1-6, R32, R79). DESIGN CHOICE (assumption log 13): the class cap is the volume that R78 forms, in
four bytes, and not the percentage the entry holds. -/
def State.groutView (s : State) (r : Record) : List (Option (List Field)) :=
  let live := match s.ctxOf r with
    | some x => match x.prog with
      | .grout p => some p
      | _ => none
    | none => none
  [ r.grout.map GroutResult.fields,
    item32 r.cureEnd,
    item32 ((s.classOf r).map ClassEntry.theoVol),
    item32 ((s.classOf r).map volumeCap),
    item32 (live.map volume),
    item32 (live.map GroutProg.peak),
    item32 (live.map GroutProg.refTimer) ]

/-- The progress of a jack context. -/
def Progress.jack? : Progress → Option JackProg
  | .stress p => some p
  | .destress p => some p
  | _ => none

/-- The STRESS view (Table 1-6, R106). DESIGN CHOICE (assumption log 13): the present jack order has the form that Table 11-3
gives an order in a CALL, the order code and, for PRESSURE alone, the target pressure in four bytes after it. -/
def State.stressView (s : State) (r : Record) : List (Option (List Field)) :=
  let live := (s.ctxOf r).bind (fun x => x.prog.jack?.map (fun p => (x, p)))
  [ r.stress.map StressResult.fields,
    some [.u8 r.retests],
    item16 r.lockoffLoad,
    item16 r.liftoffLoad,
    live.map (fun y => [enum8 JackPhase.all y.2.phase]),
    live.map (fun y => [.u8 y.2.index]),
    live.map (fun y => [enum8 RunState.all y.1.run]),
    live.map (fun y => (CallBody.order (s.orderFor y.1.station)).fields) ]

/-- The MONITOR view (Table 1-6, R132). -/
def State.monitorView (s : State) (r : Record) : List (Option (List Field)) :=
  [ item16 r.lockoffLoad,
    r.binding.map (fun b => [.u8 b.station, .u8 b.channel]),
    r.monitored.map (fun m => [.u16 m.load, .u32 m.time]),
    item16 (r.lockoffLoad.map (fun l => driftLimit l s.tbc.site.drift)) ]

/-- The CONDITIONS view (Table 1-6, section 11.3): the level in bits 0 and 1, the listed flag in bit 2. -/
def State.condView (s : State) (n : Nat) (r : Record) : List (Option (List Field)) :=
  [ some (counted (r.conds.map (fun c =>
      [enum8 Cond.all c, .u8 (levelOf s.tbc.site c % 4 + if s.atu.lists (.record n) c then 4 else 0)]))) ]

/-- The body of a view by its code (R12), none where the view is not allowed in the record's state. -/
def State.viewItems (s : State) (n : Nat) (r : Record) (view : Nat) : Option (List (Option (List Field))) :=
  match view with
  | 1 => some (s.identView n r)
  | 2 => some (s.insertView r)
  | 3 => some (s.groutView r)
  | 4 => some (s.stressView r)
  | 5 =>
    if r.state = .locked ∨ r.state = .destressing ∨ r.state = .retired then some (s.monitorView r) else none
  | 6 => some (s.condView n r)
  | _ => none

/-- The answer to a taken FIND: head, mask and body (Table 11-7). -/
def State.viewBody (s : State) (n : Nat) (r : Record) (view : Nat) (items : List (Option (List Field))) : List Field :=
  [.u8 view, .u16 n, .u8 r.row, .u16 r.bay, .u8 r.gen, enum8 RecState.all r.state, .u16 (s.revAt n)] ++ masked items

/-- Whether a FIND's target is in range (R11). -/
def targetOk : Target → Bool
  | .slot n => slotOk n
  | .position row bay => rowOk row ∧ bayOk bay

/-- The slot a FIND names: a position names its live record (R11). -/
def State.targetSlot (s : State) : Target → Option Nat
  | .slot n => some n
  | .position row bay => s.liveAt row bay

/-- FIND (R11 to R13). -/
def execFind (h : Ask) (target : Target) (view : Nat) (s : State) : Host.Outcome State Fault Refusal :=
  s.request h .find (targetOk target ∧ within 1 6 view)
    (match s.targetSlot target with
      | none => refuse s .noRecord
      | some n =>
        match s.recAt n with
        | none => refuse s .noRecord
        | some r =>
          match s.viewItems n r view with
          | none => refuse s .noRecord
          | some items => done s (s.viewBody n r view items))

/-! ## LIST (R14) -/

/-- Whether a record matches a LIST filter (R14). -/
def listMatches (states : List Nat) (first last : Nat) (hasCond : Bool) (r : Record) : Bool :=
  codeIn RecState.all r.state ∈ states ∧ first ≤ r.row ∧ r.row ≤ last ∧ (hasCond = false ∨ r.conds ≠ [])

/-- The matching slots from a start slot on, in ascending order (R14). -/
def State.listSlots (s : State) (states : List Nat) (first last : Nat) (hasCond : Bool) (start : Nat) : List Nat :=
  s.usedSlots.filter (fun n => start ≤ n ∧ (s.recAt n).any (listMatches states first last hasCond))

/-- The continuation slot of a LIST (R14). -/
def continuation (found : List Nat) : Nat :=
  match found[7]? with
  | some n => n + 1
  | none => Config.slotCount

/-- The answer to a LIST: the first eight matches and the continuation slot (R14). -/
def State.listOwn (s : State) (found : List Nat) : Ruling :=
  done s (counted (found.map (fun n => [.u16 n])) ++ [.u16 (continuation found)])

/-- LIST (R14). -/
def execList (h : Ask) (states : List Nat) (first last : Nat) (hasCond : Bool) (start : Nat) (s : State) :
    Host.Outcome State Fault Refusal :=
  s.request h .list
    (states ≠ [] ∧ states.all (codeOk RecState.all) ∧ 1 ≤ first ∧ first ≤ last ∧ last ≤ Config.rowCount ∧ slotOk start)
    (s.listOwn ((s.listSlots states first last hasCond start).take 8))

/-! ## New records (R4, R16, R22) -/

/-- The generation of a new record at a position: one above the highest there, 0 when there is none (R4). -/
def State.nextGen (s : State) (row bay : Nat) : Nat :=
  s.tbc.slots.foldl (fun g p =>
    match p.2.rec? with
    | some r => if r.row = row ∧ r.bay = bay then max g (r.gen + 1) else g
    | none => g) 0

/-- A PLANNED record with nothing but its key, class, overrides and links (R16, R22). -/
def newRecord (row bay gen cls : Nat) (freeOv bondOv replaces : Option Nat) (stamp : Stamp) : Record where
  row := row
  bay := bay
  gen := gen
  cls := cls
  state := .planned
  stamp := stamp
  freeOv := freeOv
  bondOv := bondOv
  context := none
  heldKind := none
  heldReason := none
  insertion := none
  grout := none
  cureEnd := none
  stress := none
  retests := 0
  lockoffLoad := none
  liftoffLoad := none
  binding := none
  monitored := none
  conds := []
  replaces := replaces
  replacedBy := none
  retireReason := none

/-- Place a new record in a FREE slot: its revision is the slot revision plus one (R1), and the slot is handed to
the write queue. -/
def State.place (s : State) (n : Nat) (r : Record) : State :=
  (s.putSlot n { rev := (s.revAt n + 1) % Config.revisionModulus, rec? := some r }).hand (.slot n)

/-- The own checks of CREATE, and what a taken one does (R15, R16). -/
def State.createOwn (s : State) (row bay cls : Nat) (freeOv bondOv : Option Nat) : Ruling :=
  if (s.liveAt row bay).isSome then refuse s .occupied
  else if s.isRelied row then refuse s .reliedOn
  else if Config.maxGeneration < s.nextGen row bay then refuse s .limit
  else
    match s.lowestFree with
    | none => refuse s .full
    | some n =>
      let s1 := s.place n
        (newRecord row bay (s.nextGen row bay) cls freeOv bondOv none { time := s.wck.time, station := 0 })
      let s2 := s1.setMap (posKey row bay) (some n)
      done s2 [.u16 n, .u16 (s2.revAt n)]

/-- CREATE (R15, R16). -/
def execCreate (h : Ask) (row bay cls : Nat) (freeOv bondOv : Option Nat) (s : State) :
    Host.Outcome State Fault Refusal :=
  s.request h .create (rowOk row ∧ bayOk bay ∧ classOk cls ∧ freeLenOk freeOv ∧ bondLenOk bondOv)
    (s.createOwn row bay cls freeOv bondOv)

/-! ## AMEND and BORED (R17, R18) -/

/-- An override after its action (R17). -/
def OverrideAction.apply (a : OverrideAction) (old : Option Nat) : Option Nat :=
  match a with
  | .keep => old
  | .set mm => some mm
  | .remove => none

/-- The value an override action sets, if it sets one. -/
def OverrideAction.value : OverrideAction → Option Nat
  | .set mm => some mm
  | _ => none

/-- AMEND of class and overrides (R17). -/
def execAmend (h : Ask) (slot rev : Nat) (cls : Option Nat) (freeOv bondOv : OverrideAction) (s : State) :
    Host.Outcome State Fault Refusal :=
  s.requestOn h .amend
    (slotOk slot ∧ cls.all classOk ∧ freeLenOk (OverrideAction.value freeOv) ∧ bondLenOk (OverrideAction.value bondOv))
    slot (some rev) (fun r =>
      if r.state = .planned ∨ r.state = .bored then
        doneRev (s.update slot h.station (fun q => { q with
          cls := cls.getD q.cls
          freeOv := OverrideAction.apply freeOv q.freeOv
          bondOv := OverrideAction.apply bondOv q.bondOv })) slot
      else refuse s .wrongState)

/-- BORED (R18). -/
def execBored (h : Ask) (slot rev : Nat) (s : State) : Host.Outcome State Fault Refusal :=
  s.requestOn h .bored (slotOk slot) slot (some rev) (fun r =>
    if r.state = .planned then
      doneRev (s.update slot h.station (fun q => { q with state := .bored })) slot
    else refuse s .wrongState)

/-! ## RETIRE and PURGE (R19, R20) -/

/-- The retire reasons RETIRE may give (R19). -/
def retireCode (n : Nat) : Option RetireReason :=
  match ofCode RetireReason.all n with
  | some .abandoned => some .abandoned
  | some .supervisor => some .supervisor
  | _ => none

/-- RETIRE (R8, R19). -/
def execRetire (h : Ask) (slot rev reason : Nat) (s : State) : Host.Outcome State Fault Refusal :=
  s.requestOn h .retire (slotOk slot ∧ (retireCode reason).isSome) slot (some rev) (fun r =>
    if r.state.isWork ∨ r.state = .retired then refuse s .wrongState
    else if s.isLive slot r ∧ s.isRelied r.row then refuse s .reliedOn
    else doneRev (s.retireRecord slot h.station ((retireCode reason).getD .supervisor) id) slot)

/-- A record without its links to slot `n` (R20). -/
def unlink (n : Nat) (r : Record) : Record :=
  { r with
    replaces := if r.replaces = some n then none else r.replaces
    replacedBy := if r.replacedBy = some n then none else r.replacedBy }

/-- Free the slot of a RETIRED record and remove what names it (R20). -/
def State.purge (s : State) (n sender : Nat) : State :=
  let s1 := (s.putSlot n { rev := s.revAt n, rec? := none }).hand (.slot n)
  let s2 := s1.untell (fun e => e.subject = .record n)
  s2.usedSlots.foldl (fun t m => t.update m sender (unlink n)) s2

/-- PURGE (R20). -/
def execPurge (h : Ask) (slot : Nat) (s : State) : Host.Outcome State Fault Refusal :=
  s.requestOn h .purge (slotOk slot) slot none (fun r =>
    if r.state = .retired then done (s.purge slot h.station) [] else refuse s .wrongState)

/-! ## REPLACE (R21, R22) -/

/-- The own checks of REPLACE, and what a taken one does (R21, R22). -/
def State.replaceOwn (s : State) (slot sender : Nat) (cls : Option Nat) (r : Record) : Ruling :=
  if s.isLive slot r = false ∨ r.state.isWork ∨ r.state = .suspect then refuse s .wrongState
  else if r.replacedBy.isSome then refuse s .occupied
  else if Config.maxGeneration < s.nextGen r.row r.bay then refuse s .limit
  else
    match s.lowestFree with
    | none => refuse s .full
    | some n =>
      let s1 := s.update slot sender (fun q => { q with replacedBy := some n })
      let s2 := s1.place n
        (newRecord r.row r.bay (s.nextGen r.row r.bay) (cls.getD r.cls) none none (some slot)
          { time := s.wck.time, station := 0 })
      done s2 [.u16 n, .u16 (s2.revAt n), .u16 (s2.revAt slot)]

/-- REPLACE (R21, R22). -/
def execReplace (h : Ask) (slot rev : Nat) (cls : Option Nat) (s : State) : Host.Outcome State Fault Refusal :=
  s.requestOn h .replace (slotOk slot ∧ cls.all classOk) slot (some rev) (s.replaceOwn slot h.station cls)

/-! ## CERTIFY (R24, R25) -/

/-- The targets CERTIFY may give (R24). -/
def certifyTarget (n : Nat) : Option RecState :=
  match ofCode RecState.all n with
  | some .planned => some .planned
  | some .bored => some .bored
  | some .inserted => some .inserted
  | some .curing => some .curing
  | some .ready => some .ready
  | some .locked => some .locked
  | some .retired => some .retired
  | _ => none

/-- Whether the values given are those the target needs, each in range (R24). -/
def certifyValuesOk (t : RecState) (cureEnd lockoff reason : Option Nat) : Bool :=
  (cureEnd.isSome ↔ t = .curing) ∧ (lockoff.isSome ↔ t = .locked) ∧ (reason.isSome ↔ t = .retired) ∧
    withinOpt 0 Config.max32 cureEnd ∧ withinOpt 1 Config.maxLoad lockoff ∧ reason.all (codeOk RetireReason.all)

/-- The fields a taken CERTIFY sets (R25). -/
def certifyFields (t : RecState) (cls : Nat) (freeOv bondOv cureEnd lockoff : Option Nat) (r : Record) : Record :=
  { r with
    state := t, cls := cls, freeOv := freeOv, bondOv := bondOv, cureEnd := cureEnd, lockoffLoad := lockoff
    conds := dropCond .imageSuspect r.conds }

/-- What a taken CERTIFY does (R25). -/
def State.certify (s : State) (slot sender : Nat) (t : RecState) (cls : Nat)
    (freeOv bondOv cureEnd lockoff reason : Option Nat) : State :=
  let f := certifyFields t cls freeOv bondOv cureEnd lockoff
  if t = .retired then
    s.retireRecord slot sender ((reason.bind (ofCode RetireReason.all)).getD .supervisor) f
  else (s.update slot sender f).untellOne (.record slot) .imageSuspect

/-- CERTIFY (R24, R25). -/
def execCertify (h : Ask) (slot rev target cls : Nat) (freeOv bondOv cureEnd lockoff reason : Option Nat) (s : State) :
    Host.Outcome State Fault Refusal :=
  s.requestOn h .certify
    (slotOk slot ∧ classOk cls ∧ freeLenOk freeOv ∧ bondLenOk bondOv ∧
      (certifyTarget target).any (fun t => certifyValuesOk t cureEnd lockoff reason))
    slot (some rev) (fun r =>
      match certifyTarget target with
      | none => refuse s .badValue
      | some t =>
        if r.state ≠ .suspect then refuse s .wrongState
        else if s.isLive slot r ∧ s.isRelied r.row ∧ t ≠ .locked then refuse s .reliedOn
        else doneRev (s.certify slot h.station t cls freeOv bondOv cureEnd lockoff reason) slot)

end Sys2Proof.Machine
end

