-- ==== Sys2Proof/Machine/SiteRequests.lean ====
section
/-! DEFINITION. The requests on classes, site settings, dig release and jack calibration (chapters 2 and 5): CLASS_WRITE,
CLASS_READ, SITE_WRITE, SITE_READ, DIG_QUERY, DIG_SET, RELIEVE, CAL_WRITE and CAL_READ. -/

namespace Sys2Proof.Machine

/-! ## Classes (R27 to R32, R183) -/

/-- The ANSWER of a request in parts echoes the part number before anything else (R183). -/
def Ruling.part (v : Ruling) (n : Nat) : Ruling := { v with body := .u8 n :: v.body }

/-- The ranges of Table 2-1 from DWL to creep limit B. -/
def ClassPart1.ok (f : ClassPart1) : Bool :=
  within 100 25000 f.dwl ∧ within 5 20 f.datum ∧ (f.stages.getD []).length ≤ 6 ∧
    (f.stages.getD []).all (within 6 174) ∧ within 100 175 f.test ∧ within 80 130 f.lockoff ∧
    within 10 100 f.lockWindow ∧ within 5 50 f.tolerance ∧ within 30 600 f.stageHold ∧
    withinOpt 0 3599 f.tA0 ∧ withinOpt 1 3600 f.tA1 ∧ withinOpt 10 1000 f.limitA ∧
    withinOpt 0 7199 f.tB0 ∧ withinOpt 1 7200 f.tB1 ∧ withinOpt 10 2000 f.limitB

/-- The ranges of Table 2-1 from strand count to destress step hold. -/
def ClassPart2.ok (f : ClassPart2) : Bool :=
  within 1 31 f.strands ∧ within 50 300 f.area ∧ within 150000 210000 f.modulus ∧ within 3000 60000 f.freeLen ∧
    within 3000 20000 f.bondLen ∧ within 1000 3000 f.jacking ∧ withinOpt 80 100 f.lower ∧ withinOpt 0 100 f.upper ∧
    within 0 1500 f.drawIn ∧ within 0 1000 f.insTol ∧ within 10 5000 f.maxPull ∧ within 1 10000000 f.theoVol ∧
    within 100 500 f.volCap ∧ within 100 20000 f.refPress ∧ within 10 900 f.refTime ∧ within 101 30000 f.burst ∧
    within 3600 2592000 f.cure ∧ within 10 50 f.destStep ∧ within 30 600 f.destHold

/-- The entry that two parts form, with the defaults of Table 2-1 (R28). -/
def joinParts (p : ClassPart1) (q : ClassPart2) : ClassEntry where
  dwl := p.dwl
  datum := p.datum
  stages := p.stages.getD []
  test := p.test
  lockoff := p.lockoff
  lockWindow := p.lockWindow
  tolerance := p.tolerance
  stageHold := p.stageHold
  tA0 := p.tA0.getD 60
  tA1 := p.tA1.getD 600
  limitA := p.limitA.getD 100
  tB0 := p.tB0.getD 360
  tB1 := p.tB1.getD 3600
  limitB := p.limitB.getD 200
  strands := q.strands
  area := q.area
  modulus := q.modulus
  freeLen := q.freeLen
  bondLen := q.bondLen
  jacking := q.jacking
  lower := q.lower.getD 90
  upper := q.upper.getD 50
  drawIn := q.drawIn
  insTol := q.insTol
  maxPull := q.maxPull
  theoVol := q.theoVol
  volCap := q.volCap
  refPress := q.refPress
  refTime := q.refTime
  burst := q.burst
  cure := q.cure
  destStep := q.destStep
  destHold := q.destHold

/-- The consistency rules of R29. -/
def ClassEntry.consistent (c : ClassEntry) : Bool :=
  c.stages.all (fun n => c.datum < n ∧ n < c.test) ∧ decide (c.stages.Pairwise (· < ·)) ∧ c.lockoff ≤ c.test ∧
    testLoad c ≤ Config.maxLoad ∧ c.tA0 < c.tA1 ∧ c.tB0 < c.tB1 ∧ c.tA0 ≤ c.tB0 ∧ c.tA1 < c.tB1 ∧
    c.refPress < c.burst

/-- Whether a record in a work state names a class (R30, R31). -/
def State.classInUse (s : State) (c : Nat) : Bool :=
  s.tbc.slots.any (fun p => p.2.rec?.any (fun r => r.cls = c ∧ r.state.isWork))

/-- The records that name a class (R31). -/
def State.classCount (s : State) (c : Nat) : Nat :=
  s.tbc.slots.countP (fun p => p.2.rec?.any (fun r => r.cls = c))

/-- Hold a staged first part, or none (R183). -/
def State.stage (s : State) (p : Option (Nat × ClassPart1)) : State := { s with tbc := { s.tbc with staged := p } }

/-- Replace a class entry as a whole, the header with it when that changes anything; the staged part is discarded
(R30, R183). -/
def State.setClass (s : State) (c : Nat) (e : Option ClassEntry) : State :=
  let s1 := s.stage none
  if s.classAt c = e then s1
  else ({ s1 with tbc := { s1.tbc with classes := s1.tbc.classes.set c e } }).hand .header

/-- The own check of CLASS_WRITE, and what a taken one does (R30). -/
def State.classOwn (s : State) (c : Nat) (e : Option ClassEntry) : Ruling :=
  if s.classInUse c then refuse s .inUse else done (s.setClass c e) []

/-- A part 2 with the part staged for its class (R28 to R30, R183). -/
def State.classPart2 (s : State) (c : Nat) (f : ClassPart2) : Ruling :=
  match s.tbc.staged with
  | none => refuse s .wrongState
  | some (d, p) =>
    if d ≠ c then refuse s .wrongState
    else if (joinParts p f).consistent then s.classOwn c (some (joinParts p f))
    else refuse s .badValue

/-- The part number a whole CLASS_WRITE carries (Table 11-8). -/
def ClassForm.partNo : ClassForm → Nat
  | .unset => 1
  | .part2 _ => 2

/-- The ranges of a whole CLASS_WRITE. -/
def classFormOk : ClassForm → Bool
  | .unset => true
  | .part2 f => ClassPart2.ok f

/-- What a CLASS_WRITE in range does. -/
def State.classFormOwn (s : State) (c : Nat) : ClassForm → Ruling
  | .unset => s.classOwn c none
  | .part2 f => s.classPart2 c f

/-- CLASS_WRITE of UNSET or of a part 2 (R30, R183). -/
def execClassWrite (h : Ask) (cls : Nat) (form : ClassForm) (s : State) : Host.Outcome State Fault Refusal :=
  s.take h Req.classWrite.code
    ((s.screen h .classWrite (classOk cls ∧ classFormOk form) (s.classFormOwn cls form)).part (ClassForm.partNo form))

/-- CLASS_WRITE of a part 1 with SET: it is staged (R183). -/
def execClassWritePart1 (h : Ask) (cls : Nat) (part : ClassPart1) (s : State) : Host.Outcome State Fault Refusal :=
  s.take h Req.classWrite.code
    ((s.screen h .classWrite (classOk cls ∧ ClassPart1.ok part) (done (s.stage (some (cls, part))) [])).part 1)

/-- The fields from DWL to creep limit B, one item each (R31, R182). -/
def ClassEntry.items1 (c : ClassEntry) : List (List Field) :=
  [ [.u16 c.dwl], [.u8 c.datum], counted (c.stages.map (fun n => [.u8 n])), [.u8 c.test], [.u8 c.lockoff],
    [.u16 c.lockWindow], [.u16 c.tolerance], [.u16 c.stageHold], [.u16 c.tA0], [.u16 c.tA1], [.u16 c.limitA],
    [.u16 c.tB0], [.u16 c.tB1], [.u16 c.limitB] ]

/-- The fields from strand count to destress step hold, one item each (R31, R182). -/
def ClassEntry.items2 (c : ClassEntry) : List (List Field) := c.fields2.map (fun f => [f])

/-- The derived loads (R31, R95, R96). -/
def ClassEntry.items3 (c : ClassEntry) : List (List Field) :=
  [ [.u16 (datumTarget c)], counted ((List.range c.stages.length).map (fun k => [.u16 (stageTarget c (k + 1))])),
    [.u16 (testLoad c)], [.u16 (residualTarget c)], [.u16 (band c)], [.u16 (overloadLimit c)] ]

/-- Items of a SET entry behind their mask, none of them for an UNSET one (R31, R182). -/
def ifSet (count : Nat) (e : Option ClassEntry) (items : ClassEntry → List (List Field)) : List Field :=
  masked (match e with
    | some c => (items c).map some
    | none => List.replicate count none)

/-- The answer of CLASS_READ by part (R31, Table 11-8). DESIGN CHOICE (assumption log 13): the record count has two bytes. -/
def State.classBody (s : State) (c part : Nat) : List Field :=
  match part with
  | 1 => [status8 (s.classAt c).isSome, flag8 (s.classInUse c), .u16 (s.classCount c)] ++
      ifSet 14 (s.classAt c) ClassEntry.items1
  | 2 => ifSet 19 (s.classAt c) ClassEntry.items2
  | _ => ifSet 6 (s.classAt c) ClassEntry.items3

/-- CLASS_READ (R31, R183). -/
def execClassRead (h : Ask) (cls part : Nat) (s : State) : Host.Outcome State Fault Refusal :=
  s.take h Req.classRead.code
    ((s.screen h .classRead (classOk cls ∧ within 1 3 part) (done s (s.classBody cls part))).part part)

/-! ## Site settings (R33 to R38, R65, R138, R149) -/

/-- The four codes of an input within Table 8-1. -/
def InputCodes.ok (x : InputCodes) : Bool :=
  within 1 2 x.enable ∧ codeOk Contact.all x.polarity ∧ x.filter ≤ 3 ∧ codeOk InputFunction.all x.function

/-- The settings that codes name (Table 8-1). -/
def InputCodes.settings (x : InputCodes) : InputSettings where
  enabled := x.enable = 1
  asserts := (ofCode Contact.all x.polarity).getD .opened
  filter := x.filter
  function := (ofCode InputFunction.all x.function).getD .none

/-- The time scales a start-up mode admits (R34, R65). -/
def scaleOk (mode : StartMode) (n : Nat) : Bool := n = 1 ∨ mode = .commission ∧ (n = 10 ∨ n = 60)

/-- The ranges of the items a SITE_WRITE carries (R34). -/
def SiteItems.ok (x : SiteItems) (mode : StartMode) : Bool :=
  withinOpt 0 4 x.span ∧ x.levels.toList.all (withinOpt 0 2) ∧ withinOpt 1 3 x.alarm ∧ withinOpt 10 300 x.drift ∧
    x.inputs.toList.all (fun o => o.all InputCodes.ok) ∧ withinOpt 20 500 x.scanMin ∧ withinOpt 2 15 x.silence ∧
    withinOpt 10 600 x.suspend ∧ x.scale.all (scaleOk mode)

/-- The site settings with the carried values set (R34). -/
def SiteItems.apply (x : SiteItems) (t : SiteSettings) : SiteSettings :=
  { t with
    span := x.span.getD t.span
    levels := Vector.ofFn (fun i => (x.levels[i]).getD t.levels[i])
    alarm := x.alarm.getD t.alarm
    drift := x.drift.getD t.drift
    inputs := Vector.ofFn (fun i => ((x.inputs[i]).map InputCodes.settings).getD t.inputs[i])
    scanMin := x.scanMin.getD t.scanMin
    silence := x.silence.getD t.silence
    suspend := x.suspend.getD t.suspend }

/-- Every subject in ascending rank (R133). -/
def allSubjects : List Subject :=
  [.site, .line .a, .line .b] ++ (List.range Config.stationCount).map Subject.station ++
    (List.range Config.slotCount).map Subject.record

/-- Re-level one kind (R138): its entries take the level, and at 1 or 2 every marked subject without an entry is
entered as a raising, in ascending rank. -/
def State.relevel (s : State) (c : Cond) (level : Nat) : State :=
  let s1 := { s with
    atu := ({ s.atu with entries := relevelEntries s.atu.entries c level }).sound s.tbc.site.alarm }
  if level = 0 then s1
  else allSubjects.foldl (fun t subj => if t.marked subj c && !t.atu.lists subj c then t.tell subj c else t) s1

/-- The kinds whose level differs from what it was, with the new level, in ascending priority (R138). -/
def changedLevels (old new : SiteSettings) : List (Cond × Nat) :=
  (Cond.programmable.filter (fun c => levelOf old c ≠ levelOf new c)).map (fun c => (c, levelOf new c))

/-- Restart the filters whose code has changed (R149). -/
def restartChanged (old new : SiteSettings) (ifu : Ifu) : Vector Input 4 :=
  Vector.ofFn (fun i =>
    if old.inputs[i].filter = new.inputs[i].filter then ifu.inputs[i] else ifu.inputs[i].restart)

/-- Set the carried values, with what each owner does of it in the same event (R34, R138, R141, R149). -/
def State.siteApply (s : State) (x : SiteItems) : State :=
  let old := s.tbc.site
  let new := SiteItems.apply x old
  let s1 := { s with
    tbc := { s.tbc with site := new }
    wck := { s.wck with scale := x.scale.getD s.wck.scale } }
  let s2 := (changedLevels old new).foldl (fun t p => t.relevel p.1 p.2) s1
  let s3 := ({ s2 with atu := s2.atu.sound new.alarm }).changeInputs (restartChanged old new s2.ifu)
  if new = old ∧ x.scale.getD s.wck.scale = s.wck.scale then s3 else s3.hand .header

/-- Whether any context is bound or any record is CURING (R65). -/
def State.scaleInUse (s : State) : Bool :=
  !s.cxp.contexts.isEmpty || s.tbc.slots.any (fun p => p.2.rec?.any (fun r => r.state = .curing))

/-- The own checks of SITE_WRITE, and what a taken one does (R34, R38, R65); the ALLSTOP of a site stop that it begins goes
out after its ANSWER (R168). -/
def State.siteOwn (s : State) (x : SiteItems) : Ruling :=
  if x.span.any (fun n => s.tbc.site.span < n ∧ s.spanConflicts n) then refuse s .conflict
  else if x.scale.any (fun n => n ≠ s.wck.scale) ∧ s.scaleInUse then refuse s .inUse
  else
    { st := s.siteApply x, result := .done, body := []
      after := if s.ifu.stop.isNone ∧ (s.siteApply x).ifu.stop.isSome then .allstop else .nothing }

/-- SITE_WRITE (R34). -/
def execSiteWrite (h : Ask) (items : SiteItems) (s : State) : Host.Outcome State Fault Refusal :=
  s.request h .siteWrite (SiteItems.ok items s.sys.mode) (s.siteOwn items)

/-- SITE_READ (R35). -/
def execSiteRead (h : Ask) (s : State) : Host.Outcome State Fault Refusal :=
  s.request h .siteRead true
    (done s (s.tbc.site.fields ++ [.u8 s.wck.scale, enum8 StartMode.all s.sys.mode]))

/-! ## Dig release (R39 to R44) -/

/-- The blocking row of a query value: the row after it, 0 at the last (R40). -/
def blockingRow (q : Nat) : Nat := if q < Config.rowCount then q + 1 else 0

/-- The live records of the blocking row that do not hold, SUSPECT among them (R40). -/
def State.blockers (s : State) (q : Nat) : List Nat :=
  if q < Config.rowCount then s.notHolding false (q + 1) else []

/-- The lowest slot of a list. -/
def lowestSlot (l : List Nat) : Option Nat := l.min?

/-- DIG_QUERY (R40). DESIGN CHOICE (assumption log 13): the blocking count has two bytes, and the lowest slot stands behind a
mask. -/
def execDigQuery (h : Ask) (s : State) : Host.Outcome State Fault Refusal :=
  s.request h .digQuery true
    (done s ([.u8 (s.digValue false), .u8 s.tbc.site.digRow, .u8 (blockingRow (s.digValue false)),
        .u16 (s.blockers (s.digValue false)).length] ++
      masked [(lowestSlot (s.blockers (s.digValue false))).map (fun n => [.u16 n])]))

/-- Set the dig row; the header is handed if it changed (R41). -/
def State.setDig (s : State) (row : Nat) : State :=
  if s.tbc.site.digRow = row then s
  else ({ s with tbc := { s.tbc with site := { s.tbc.site with digRow := row } } }).hand .header

/-- The figures of a DIG_SET refused RELIED_ON (R41). DESIGN CHOICE (assumption log 13): the blocking count has two bytes, and
no mask stands before the slot. -/
def State.digFigures (s : State) (q : Nat) : List Field :=
  [.u8 q, .u8 (blockingRow q), .u16 (s.blockers q).length, .u16 ((lowestSlot (s.blockers q)).getD 0)]

/-- DIG_SET (R41). -/
def execDigSet (h : Ask) (row : Nat) (s : State) : Host.Outcome State Fault Refusal :=
  s.request h .digSet (row ≤ Config.rowCount)
    (if s.tbc.site.digRow < row ∧ s.digValue false < row then
      refuseWith s .reliedOn (s.digFigures (s.digValue false))
    else done (s.setDig row) [.u8 row])

/-- Set or clear a row's relieved flag; the header is handed if it changed (R42, R43). -/
def State.setRelieved (s : State) (row : Nat) (on : Bool) : State :=
  if s.isRelieved row = on then s
  else
    ({ s with tbc := { s.tbc with site := { s.tbc.site with
        relieved := s.tbc.site.relieved.setIfInBounds (row - 1) on } } }).hand .header

/-- RELIEVE with SET (R42). -/
def execRelieveSet (h : Ask) (row : Nat) (s : State) : Host.Outcome State Fault Refusal :=
  s.request h .relieve (rowOk row) (done (s.setRelieved row true) [])

/-- Whether a bound DESTRESS context names a record in a row (R43). -/
def State.destressIn (s : State) (row : Nat) : Bool :=
  s.cxp.contexts.any (fun p => p.2.prog.kind = .destress ∧ (s.recAt p.2.slot).any (fun r => r.row = row))

/-- RELIEVE with CLEAR (R43). -/
def execRelieveClear (h : Ask) (row : Nat) (s : State) : Host.Outcome State Fault Refusal :=
  s.request h .relieve (rowOk row)
    (if s.isRelieved row = false then done s []
    else if row ≤ s.tbc.site.digRow ∧ (s.notHolding false row).isEmpty = false then refuse s .reliedOn
    else if s.destressIn row then refuse s .inUse
    else done (s.setRelieved row false) [])

/-! ## Calibration (R89 to R92) -/

/-- Pressures and loads both rise from point to point (R90). -/
def risingPoints (ps : List CalPoint) : Bool :=
  decide (ps.Pairwise (fun x y => x.pressure < y.pressure)) ∧ decide (ps.Pairwise (fun x y => x.load < y.load))

/-- A list of points in range (R90). -/
def pointsOk (ps : List CalPoint) : Bool :=
  within 2 8 ps.length ∧ ps.all (fun p => within 1 Config.maxPressure p.pressure ∧ within 1 Config.maxLoad p.load) ∧
    risingPoints ps

/-- Replace a table as a whole, the header with it when that changes anything (R91). -/
def State.setCal (s : State) (n : Nat) (t : Option (List CalPoint)) : State :=
  if s.calAt n = t then s else ({ s with cals := s.cals.set n t }).hand .header

/-- The answer of CAL_WRITE: the last calibration load, or none for UNSET (R91, R182). -/
def calWriteBody (t : Option (List CalPoint)) : List Field := masked [t.map (fun ps => [.u16 (lastCalLoad ps)])]

/-- CAL_WRITE (R90, R91). -/
def execCalWrite (h : Ask) (station : Nat) (points : Option (List CalPoint)) (s : State) :
    Host.Outcome State Fault Refusal :=
  s.request h .calWrite (rigOk station ∧ points.all pointsOk)
    (if (s.stationAt station).kind ≠ .jack then refuse s .wrongKind
    else if (s.stationAt station).ctx.isSome then refuse s .stationBound
    else done (s.setCal station points) (calWriteBody points))

/-- A conversion and its flag as they stand in an answer. -/
def probed (wide : Bool) (x : Nat × Bool) : List Field := [if wide then .u32 x.1 else .u16 x.1, flag8 x.2]

/-- The answer of CAL_READ by part (R92, Table 11-8): the points, the last of which is the last calibration pressure
and load, or the probe results. -/
def State.calBody (s : State) (part n : Nat) (probePressure probeLoad : Option Nat) : List Field :=
  match part with
  | 1 =>
    [enum8 StationKind.all (s.stationAt n).kind, flag8 (s.stationAt n).ctx.isSome, status8 (s.calAt n).isSome] ++
      masked [(s.calAt n).map (fun ps => counted (ps.map CalPoint.fields))]
  | _ =>
    masked [ (s.calAt n).bind (fun ps => probePressure.map (fun p => probed false (loadOf ps p))),
      (s.calAt n).bind (fun ps => probeLoad.map (fun t => probed true (pressureOf ps t))) ]

/-- CAL_READ (R92, R183). -/
def execCalRead (h : Ask) (part station : Nat) (probePressure probeLoad : Option Nat) (s : State) :
    Host.Outcome State Fault Refusal :=
  s.take h Req.calRead.code
    ((s.screen h .calRead
      (within 1 2 part ∧ rigOk station ∧ withinOpt 0 Config.maxPressure probePressure ∧ withinOpt 0 Config.maxLoad probeLoad)
      (done s (s.calBody part station probePressure probeLoad))).part part)

end Sys2Proof.Machine
end

