-- ==== Sys2Proof/Machine/TimerEvents.lean ====
section
/-! DEFINITION. The events of time (chapters 3, 4, 6 and 8): REAL_SECOND, and the ends of the times it advances, each an
event of its own: SUSPEND_LIMIT_REACHED, PHASE_TIMER_EXPIRY, REFUSAL_COMPLETION, CURE_EXPIRY and KEY_TIMER_EXPIRY
(assumption log 8). -/

namespace Sys2Proof.Machine

/-- The works time after one more real second (R63). -/
def Wck.next (w : Wck) : Nat :=
  match w.clock with
  | .running => min Config.max32 (w.time + w.scale)
  | .held => w.time

/-- The refusal time of the class of a context's record (R62). -/
def State.refusalTime (s : State) (x : Context) : Option Nat := ((s.recAt x.slot).bind s.classOf).map ClassEntry.refTime

/-- A context after one real second in which works time moved by `d` (R59, R61, R62). -/
def Context.second (x : Context) (d : Nat) (lim : Option Nat) (siteStopped : Bool) (limit : Nat) : Context :=
  (x.advance d lim).addSuspend siteStopped limit

/-- REAL_SECOND: works time, the contexts' timers by what it moved, and suspend time (R59, R61 to R63). -/
def execRealSecond (s : State) : Host.Outcome State Fault Refusal :=
  let s1 := { s with wck := { s.wck with time := s.wck.next } }
  .next (s1.eachCtx (fun x => x.second (s.wck.next - s.wck.time) (s.refusalTime x) s.ifu.stop.isSome s.tbc.site.suspend))

/-- SUSPEND_LIMIT_REACHED (R59). -/
def execSuspendLimitReached (ctx : Nat) (s : State) : Host.Outcome State Fault Refusal :=
  match s.ctxAt ctx with
  | some x =>
    if x.run = .suspended ∧ x.limitDue then
      .next (s.releaseHeld ctx x .lost Config.partStation [.stationLost] none)
    else .next s
  | none => .next s

/-- PHASE_TIMER_EXPIRY (R61, R112): nothing unless the timer stands at 0. -/
def execPhaseTimerExpiry (ctx : Nat) (s : State) : Host.Outcome State Fault Refusal :=
  match s.ctxAt ctx with
  | some x => .next (s.expireTimer ctx x)
  | none => .next s

/-- Whether a refusal completes: the context RUNNING, its timer counting, and the refusal time reached in RUNNING (R82).
A time reached in STOPPED waits for the first used reply after RELEASE. -/
def refusalDue (x : Context) (p : GroutProg) (cls : ClassEntry) : Bool :=
  x.run = .running ∧ p.counting ∧ p.due ∧ cls.refTime ≤ p.refTimer

/-- The refusal completion of a context (R82). -/
def State.completeRefusal (s : State) (c : Nat) (x : Context) : State :=
  match x.prog with
  | .grout p =>
    match (s.recAt x.slot).bind s.classOf with
    | some cls => if refusalDue x p cls then s.toCuring c x p cls .refusal else s
    | none => s
  | _ => s

/-- REFUSAL_COMPLETION (R82). -/
def execRefusalCompletion (ctx : Nat) (s : State) : Host.Outcome State Fault Refusal :=
  match s.ctxAt ctx with
  | some x => .next (s.completeRefusal ctx x)
  | none => .next s

/-- CURE_EXPIRY (R86): no check is made while the clock is HELD. -/
def execCureExpiry (slot : Nat) (s : State) : Host.Outcome State Fault Refusal :=
  if s.wck.clock = .running then .next (s.expireCure slot) else .next s

/-- Set the key state. -/
def State.setKey (s : State) (k : KeyState) : State := { s with ifu := { s.ifu with key := k } }

/-- KEY_TIMER_EXPIRY (R150, R151): while RST is held or a start-up is under way it makes no restart. -/
def execKeyTimerExpiry (s : State) : Host.Outcome State Fault Refusal :=
  match s.ifu.key with
  | .timing _ => if s.sys.rst ∨ s.sys.phase ≠ .up then .next (s.setKey .spent) else .next s.cabinetRestart
  | _ => .next s

/-- The key state after one more real millisecond (R150): the timer rests at its end. -/
def KeyState.tick : KeyState → KeyState
  | .timing ms => .timing (min Config.keyTimeMs (ms + 1))
  | k => k

/-- One real millisecond with no command waiting: only the key timer counts milliseconds, and no row of the opcode table
is its tick. DESIGN CHOICE (assumption log 9). -/
def State.tick (s : State) : State := s.setKey s.ifu.key.tick

end Sys2Proof.Machine
end

