-- ==== Sys2Proof/Machine/Dispatch.lean ====
section
/-! DEFINITION. The dispatch: one arm for each command, each a direct call of its meaning. -/

namespace Sys2Proof.Machine

def exec (i : Instr) (s : State) : Host.Outcome State Fault Refusal :=
  match i with
  | .find h target view => Sys2Proof.Machine.execFind h target view s
  | .list h states first last hasCond start => Sys2Proof.Machine.execList h states first last hasCond start s
  | .create h row bay cls freeOv bondOv => Sys2Proof.Machine.execCreate h row bay cls freeOv bondOv s
  | .amend h slot rev cls freeOv bondOv => Sys2Proof.Machine.execAmend h slot rev cls freeOv bondOv s
  | .bored h slot rev => Sys2Proof.Machine.execBored h slot rev s
  | .retire h slot rev reason => Sys2Proof.Machine.execRetire h slot rev reason s
  | .replace h slot rev cls => Sys2Proof.Machine.execReplace h slot rev cls s
  | .purge h slot => Sys2Proof.Machine.execPurge h slot s
  | .certify h slot rev target cls freeOv bondOv cureEnd lockoff reason => Sys2Proof.Machine.execCertify h slot rev target cls freeOv bondOv cureEnd lockoff reason s
  | .start h kind slot station rev => Sys2Proof.Machine.execStart h kind slot station rev s
  | .begin h row bay => Sys2Proof.Machine.execBegin h row bay s
  | .abort h slot => Sys2Proof.Machine.execAbort h slot s
  | .resume h slot rev station => Sys2Proof.Machine.execResume h slot rev station s
  | .closeWithdraw h slot rev => Sys2Proof.Machine.execCloseWithdraw h slot rev s
  | .closeAccept h slot rev => Sys2Proof.Machine.execCloseAccept h slot rev s
  | .closeRestart h slot rev => Sys2Proof.Machine.execCloseRestart h slot rev s
  | .closeRetest h slot rev => Sys2Proof.Machine.execCloseRetest h slot rev s
  | .closeAbandon h slot rev => Sys2Proof.Machine.execCloseAbandon h slot rev s
  | .endWork h => Sys2Proof.Machine.execEndWork h s
  | .restroke h => Sys2Proof.Machine.execRestroke h s
  | .classWrite h cls form => Sys2Proof.Machine.execClassWrite h cls form s
  | .classWritePart1 h cls part => Sys2Proof.Machine.execClassWritePart1 h cls part s
  | .classRead h cls part => Sys2Proof.Machine.execClassRead h cls part s
  | .siteWrite h items => Sys2Proof.Machine.execSiteWrite h items s
  | .siteRead h => Sys2Proof.Machine.execSiteRead h s
  | .digQuery h => Sys2Proof.Machine.execDigQuery h s
  | .digSet h row => Sys2Proof.Machine.execDigSet h row s
  | .relieveSet h row => Sys2Proof.Machine.execRelieveSet h row s
  | .relieveClear h row => Sys2Proof.Machine.execRelieveClear h row s
  | .calWrite h station points => Sys2Proof.Machine.execCalWrite h station points s
  | .calRead h part station probePressure probeLoad => Sys2Proof.Machine.execCalRead h part station probePressure probeLoad s
  | .bind h slot rev station channel => Sys2Proof.Machine.execBind h slot rev station channel s
  | .unbind h slot rev => Sys2Proof.Machine.execUnbind h slot rev s
  | .clear h subjectKind identity cond => Sys2Proof.Machine.execClear h subjectKind identity cond s
  | .attentionRead h start reset => Sys2Proof.Machine.execAttentionRead h start reset s
  | .timeSet h time => Sys2Proof.Machine.execTimeSet h time s
  | .release h => Sys2Proof.Machine.execRelease h s
  | .inputRead h => Sys2Proof.Machine.execInputRead h s
  | .restart h => Sys2Proof.Machine.execRestart h s
  | .stationWrite h station kind retry inhibits param => Sys2Proof.Machine.execStationWrite h station kind retry inhibits param s
  | .stationRead h station => Sys2Proof.Machine.execStationRead h station s
  | .lineWrite h line state timeout gap => Sys2Proof.Machine.execLineWrite h line state timeout gap s
  | .lineWriteTest h line pattern count => Sys2Proof.Machine.execLineWriteTest h line pattern count s
  | .lineRead h line => Sys2Proof.Machine.execLineRead h line s
  | .unknownRequest h code defect => Sys2Proof.Machine.execUnknownRequest h code defect s
  | .scanStart => Sys2Proof.Machine.execScanStart s
  | .call => Sys2Proof.Machine.execCall s
  | .replyReceived station line reply => Sys2Proof.Machine.execReplyReceived station line reply s
  | .replyWindowTimeout => Sys2Proof.Machine.execReplyWindowTimeout s
  | .badFrame error => Sys2Proof.Machine.execBadFrame error s
  | .fetch => Sys2Proof.Machine.execFetch s
  | .answerEnd => Sys2Proof.Machine.execAnswerEnd s
  | .noiseReception line => Sys2Proof.Machine.execNoiseReception line s
  | .allstop line => Sys2Proof.Machine.execAllstop line s
  | .testPatternCopy line received => Sys2Proof.Machine.execTestPatternCopy line received s
  | .realSecond => Sys2Proof.Machine.execRealSecond s
  | .suspendLimitReached ctx => Sys2Proof.Machine.execSuspendLimitReached ctx s
  | .phaseTimerExpiry ctx => Sys2Proof.Machine.execPhaseTimerExpiry ctx s
  | .refusalCompletion ctx => Sys2Proof.Machine.execRefusalCompletion ctx s
  | .cureExpiry slot => Sys2Proof.Machine.execCureExpiry slot s
  | .keyTimerExpiry => Sys2Proof.Machine.execKeyTimerExpiry s
  | .filterSample input => Sys2Proof.Machine.execFilterSample input s
  | .pinChange input level => Sys2Proof.Machine.execPinChange input level s
  | .rstAssert => Sys2Proof.Machine.execRstAssert s
  | .rstNegate md1 md0 => Sys2Proof.Machine.execRstNegate md1 md0 s
  | .powerOn md1 md0 remnant => Sys2Proof.Machine.execPowerOn md1 md0 remnant s
  | .headerRestored undelivered => Sys2Proof.Machine.execHeaderRestored undelivered s
  | .restoreComplete undelivered => Sys2Proof.Machine.execRestoreComplete undelivered s
  | .writerTakeItem => Sys2Proof.Machine.execWriterTakeItem s
  | .blockWriteAck => Sys2Proof.Machine.execBlockWriteAck s
  | .blockWriteTimeout remnant => Sys2Proof.Machine.execBlockWriteTimeout remnant s
  | .writerWaitEnd => Sys2Proof.Machine.execWriterWaitEnd s

end Sys2Proof.Machine
end

