-- ==== Sys2Proof/WellFormed.lean ====
section
/-! DEFINITION. When a command is well formed: every quantity fits the width its field has on the wire (Table 11-1), every
station, context, slot and block is one the part has. A field within its width but outside its range is well formed: the
part refuses it (R169). -/

namespace Sys2Proof

/-- One byte. -/
def u8 (n : Nat) : Bool := n < 256
/-- Two bytes. -/
def u16 (n : Nat) : Bool := n < 65536
/-- Four bytes. -/
def u32 (n : Nat) : Bool := n < 4294967296

/-- The sender is one of the stations 0 to 15. -/
def Ask.wf (h : Ask) : Bool := h.station < Config.stationCount

/-- A FIND's target fits its fields. -/
def Target.wf : Target → Bool
  | .slot n => u16 n
  | .position row bay => u8 row ∧ u16 bay

/-- An override action fits its field. -/
def OverrideAction.wf : OverrideAction → Bool
  | .set mm => u16 mm
  | _ => true

/-- A first part fits its fields; the list behind a one-byte count. -/
def ClassPart1.wf (f : ClassPart1) : Bool :=
  u16 f.dwl ∧ u8 f.datum ∧ f.stages.all (fun l => u8 l.length ∧ l.all u8) ∧ u8 f.test ∧ u8 f.lockoff ∧
    u16 f.lockWindow ∧ u16 f.tolerance ∧ u16 f.stageHold ∧ f.tA0.all u16 ∧ f.tA1.all u16 ∧ f.limitA.all u16 ∧
    f.tB0.all u16 ∧ f.tB1.all u16 ∧ f.limitB.all u16

/-- A second part fits its fields. -/
def ClassPart2.wf (f : ClassPart2) : Bool :=
  u8 f.strands ∧ u16 f.area ∧ u32 f.modulus ∧ u16 f.freeLen ∧ u16 f.bondLen ∧ u16 f.jacking ∧ f.lower.all u8 ∧
    f.upper.all u8 ∧ u16 f.drawIn ∧ u16 f.insTol ∧ u16 f.maxPull ∧ u32 f.theoVol ∧ u16 f.volCap ∧ u16 f.refPress ∧
    u16 f.refTime ∧ u16 f.burst ∧ u32 f.cure ∧ u8 f.destStep ∧ u16 f.destHold

/-- A whole CLASS_WRITE fits its fields. -/
def ClassForm.wf : ClassForm → Bool
  | .unset => true
  | .part2 f => f.wf

/-- The codes of an input fit their bytes. -/
def InputCodes.wf (x : InputCodes) : Bool := u8 x.enable ∧ u8 x.polarity ∧ u8 x.filter ∧ u8 x.function

/-- The items of a SITE_WRITE fit their fields. -/
def SiteItems.wf (x : SiteItems) : Bool :=
  x.span.all u8 ∧ x.levels.toList.all (fun o => o.all u8) ∧ x.alarm.all u8 ∧ x.drift.all u16 ∧
    x.inputs.toList.all (fun o => o.all InputCodes.wf) ∧ x.scanMin.all u16 ∧ x.silence.all u8 ∧ x.suspend.all u16 ∧
    x.scale.all u8

/-- A calibration point fits its fields. -/
def CalPoint.wf (p : CalPoint) : Bool := u32 p.pressure ∧ u16 p.load

/-- The part number an ASK that is no request brings (R183). -/
def AskDefect.part : AskDefect → Option Nat
  | .unknownCode => none
  | .misfit p | .selector p => p

/-- Telemetry fits its fields; a monitor has at most eight channels. -/
def Telemetry.wf : Telemetry → Bool
  | .supervisor => true
  | .winch c t => u16 c ∧ u16 t
  | .grout c p => u16 c ∧ u32 p
  | .jack p x _ _ _ _ => u32 p ∧ u16 x
  | .monitor chs => chs.length ≤ 8 ∧ chs.all (fun c => u16 c.1)

/-- What is left of a block is a block. -/
def Remnant.wf : Remnant → Bool
  | .mixed bytes => bytes.length = Config.blockSize
  | _ => true

/-- The blocks named are among those the part reads. -/
def blocksWf (l : List Nat) : Bool := l.all (fun b => b < Config.usedBlocks)

/-- A command is well formed. -/
def Instr.wf : Instr → Bool
  | .find h target view => h.wf ∧ target.wf ∧ u8 view
  | .list h states first last _ slot0 => h.wf ∧ u8 states.length ∧ states.all u8 ∧ u8 first ∧ u8 last ∧ u16 slot0
  | .create h row bay cls freeOv bondOv => h.wf ∧ u8 row ∧ u16 bay ∧ u8 cls ∧ freeOv.all u16 ∧ bondOv.all u16
  | .amend h slot rev cls freeOv bondOv => h.wf ∧ u16 slot ∧ u16 rev ∧ cls.all u8 ∧ freeOv.wf ∧ bondOv.wf
  | .bored h slot rev => h.wf ∧ u16 slot ∧ u16 rev
  | .retire h slot rev reason => h.wf ∧ u16 slot ∧ u16 rev ∧ u8 reason
  | .replace h slot rev cls => h.wf ∧ u16 slot ∧ u16 rev ∧ cls.all u8
  | .purge h slot => h.wf ∧ u16 slot
  | .certify h slot rev target cls freeOv bondOv cureEnd lockoff reason =>
    h.wf ∧ u16 slot ∧ u16 rev ∧ u8 target ∧ u8 cls ∧ freeOv.all u16 ∧ bondOv.all u16 ∧ cureEnd.all u32 ∧
      lockoff.all u16 ∧ reason.all u8
  | .start h kind slot station rev => h.wf ∧ u8 kind ∧ u16 slot ∧ u8 station ∧ u16 rev
  | .begin h row bay => h.wf ∧ u8 row ∧ u16 bay
  | .abort h slot => h.wf ∧ u16 slot
  | .resume h slot rev station => h.wf ∧ u16 slot ∧ u16 rev ∧ station.all u8
  | .closeWithdraw h slot rev => h.wf ∧ u16 slot ∧ u16 rev
  | .closeAccept h slot rev => h.wf ∧ u16 slot ∧ u16 rev
  | .closeRestart h slot rev => h.wf ∧ u16 slot ∧ u16 rev
  | .closeRetest h slot rev => h.wf ∧ u16 slot ∧ u16 rev
  | .closeAbandon h slot rev => h.wf ∧ u16 slot ∧ u16 rev
  | .endWork h => h.wf
  | .restroke h => h.wf
  | .classWrite h cls form => h.wf ∧ u8 cls ∧ form.wf
  | .classWritePart1 h cls part => h.wf ∧ u8 cls ∧ part.wf
  | .classRead h cls part => h.wf ∧ u8 cls ∧ u8 part
  | .siteWrite h items => h.wf ∧ items.wf
  | .siteRead h => h.wf
  | .digQuery h => h.wf
  | .digSet h row => h.wf ∧ u8 row
  | .relieveSet h row => h.wf ∧ u8 row
  | .relieveClear h row => h.wf ∧ u8 row
  | .calWrite h station points => h.wf ∧ u8 station ∧ points.all (fun l => u8 l.length ∧ l.all CalPoint.wf)
  | .calRead h part station probePressure probeLoad =>
    h.wf ∧ u8 part ∧ u8 station ∧ probePressure.all u32 ∧ probeLoad.all u16
  | .bind h slot rev station channel => h.wf ∧ u16 slot ∧ u16 rev ∧ u8 station ∧ u8 channel
  | .unbind h slot rev => h.wf ∧ u16 slot ∧ u16 rev
  | .clear h subjectKind identity cond => h.wf ∧ u8 subjectKind ∧ u16 identity ∧ u8 cond
  | .attentionRead h pos _ => h.wf ∧ u8 pos
  | .timeSet h time => h.wf ∧ u32 time
  | .release h => h.wf
  | .inputRead h => h.wf
  | .restart h => h.wf
  | .stationWrite h station kind retry _ param => h.wf ∧ u8 station ∧ kind.all u8 ∧ retry.all u8 ∧ param.all u16
  | .stationRead h station => h.wf ∧ u8 station
  | .lineWrite h line state timeout gap => h.wf ∧ u8 line ∧ state.all u8 ∧ timeout.all u8 ∧ gap.all u8
  | .lineWriteTest h line _ count => h.wf ∧ u8 line ∧ u8 count
  | .lineRead h line => h.wf ∧ u8 line
  | .unknownRequest h code defect => h.wf ∧ u8 code ∧ defect.part.all u8
  | .scanStart => true
  | .call => true
  | .replyReceived station _ reply => station < Config.stationCount ∧ reply.data.wf
  | .replyWindowTimeout => true
  | .badFrame error => error ≠ .timeout
  | .fetch => true
  | .answerEnd => true
  | .noiseReception _ => true
  | .allstop _ => true
  | .testPatternCopy _ _ => true
  | .realSecond => true
  | .suspendLimitReached ctx => ctx < Config.contextCount
  | .phaseTimerExpiry ctx => ctx < Config.contextCount
  | .refusalCompletion ctx => ctx < Config.contextCount
  | .cureExpiry slot => slot < Config.slotCount
  | .keyTimerExpiry => true
  | .filterSample _ => true
  | .pinChange _ _ => true
  | .rstAssert => true
  | .rstNegate _ _ => true
  | .powerOn _ _ remnant => remnant.wf
  | .headerRestored undelivered => blocksWf undelivered
  | .restoreComplete undelivered => blocksWf undelivered
  | .writerTakeItem => true
  | .blockWriteAck => true
  | .blockWriteTimeout remnant => remnant.wf
  | .writerWaitEnd => true

end Sys2Proof
end

