-- ==== Sys2Proof/Safety.lean ====
section
/-! DEFINITION. The terms that statements about the part use: which blocks of the state an event reaches, when a request is
served, what a record update and an answer leave, and the laws that every state of a running part keeps. They are written
from the spec's rules and not from the meanings. -/

namespace Sys2Proof.Machine

/-! ## What an event reaches -/

/-- The blocks of Table 0-1 that State is made of, with the model's own two fields. -/
inductive Block where
  | tbc | cxp | cals | channels | atu | wck | bmu | ifu | isi | sys | freeNext | pending
deriving DecidableEq, Repr

/-- Two states agree on a block. -/
def Block.agrees (s t : State) : Block → Prop
  | .tbc => t.tbc = s.tbc
  | .cxp => t.cxp = s.cxp
  | .cals => t.cals = s.cals
  | .channels => t.channels = s.channels
  | .atu => t.atu = s.atu
  | .wck => t.wck = s.wck
  | .bmu => t.bmu = s.bmu
  | .ifu => t.ifu = s.ifu
  | .isi => t.isi = s.isi
  | .sys => t.sys = s.sys
  | .freeNext => t.freeNext = s.freeNext
  | .pending => t.pending = s.pending

/-- Every block but those listed is as it was. -/
def OnlyIn (blocks : List Block) (s t : State) : Prop := ∀ b, b ∉ blocks → Block.agrees s t b

/-! ## Requests and answers (R7, R168, R169) -/

/-- A request that reaches the TBC with authority: its ASK is taken, and its sender may send it (R168, R169). -/
def Served (s : State) (h : Ask) (q : Req) : Prop := s.takesAsk h = true ∧ s.permits h.station q = true

/-- The ANSWER that a request is given. -/
def answerTo (q : Req) (res : Result) (body : List Field) : Answer := { req := q.code, result := res, body := body }

/-- The works bus as it was, with the ANSWER being sent, once, on the line of its ASK (R168). -/
def Bmu.answering (b : Bmu) (h : Ask) (a : Answer) (after : AfterAnswer := .nothing) : Bmu :=
  { b with exchange := .answer h a after, tx := [.frame h.line (.answer h.station a)] }

/-- The request of a command, with the head of its ASK. -/
def ask? : Instr → Option (Ask × Req)
  | .find h _ _ => some (h, .find)
  | .list h _ _ _ _ _ => some (h, .list)
  | .create h _ _ _ _ _ => some (h, .create)
  | .amend h _ _ _ _ _ => some (h, .amend)
  | .bored h _ _ => some (h, .bored)
  | .retire h _ _ _ => some (h, .retire)
  | .replace h _ _ _ => some (h, .replace)
  | .purge h _ => some (h, .purge)
  | .certify h _ _ _ _ _ _ _ _ _ => some (h, .certify)
  | .start h _ _ _ _ => some (h, .start)
  | .begin h _ _ => some (h, .begin)
  | .abort h _ => some (h, .abort)
  | .resume h _ _ _ => some (h, .resume)
  | .closeWithdraw h _ _ => some (h, .close)
  | .closeAccept h _ _ => some (h, .close)
  | .closeRestart h _ _ => some (h, .close)
  | .closeRetest h _ _ => some (h, .close)
  | .closeAbandon h _ _ => some (h, .close)
  | .endWork h => some (h, .endWork)
  | .restroke h => some (h, .restroke)
  | .classWrite h _ _ => some (h, .classWrite)
  | .classWritePart1 h _ _ => some (h, .classWrite)
  | .classRead h _ _ => some (h, .classRead)
  | .siteWrite h _ => some (h, .siteWrite)
  | .siteRead h => some (h, .siteRead)
  | .digQuery h => some (h, .digQuery)
  | .digSet h _ => some (h, .digSet)
  | .relieveSet h _ => some (h, .relieve)
  | .relieveClear h _ => some (h, .relieve)
  | .calWrite h _ _ => some (h, .calWrite)
  | .calRead h _ _ _ _ => some (h, .calRead)
  | .bind h _ _ _ _ => some (h, .bind)
  | .unbind h _ _ => some (h, .unbind)
  | .clear h _ _ _ => some (h, .clear)
  | .attentionRead h _ _ => some (h, .attentionRead)
  | .timeSet h _ => some (h, .timeSet)
  | .release h => some (h, .release)
  | .inputRead h => some (h, .inputRead)
  | .restart h => some (h, .restart)
  | .stationWrite h _ _ _ _ _ => some (h, .stationWrite)
  | .stationRead h _ => some (h, .stationRead)
  | .lineWrite h _ _ _ _ => some (h, .lineWrite)
  | .lineWriteTest h _ _ _ => some (h, .lineWrite)
  | .lineRead h _ => some (h, .lineRead)
  | .unknownRequest _ _ _ => none
  | .scanStart => none
  | .call => none
  | .replyReceived _ _ _ => none
  | .replyWindowTimeout => none
  | .badFrame _ => none
  | .fetch => none
  | .answerEnd => none
  | .noiseReception _ => none
  | .allstop _ => none
  | .testPatternCopy _ _ => none
  | .realSecond => none
  | .suspendLimitReached _ => none
  | .phaseTimerExpiry _ => none
  | .refusalCompletion _ => none
  | .cureExpiry _ => none
  | .keyTimerExpiry => none
  | .filterSample _ => none
  | .pinChange _ _ => none
  | .rstAssert => none
  | .rstNegate _ _ => none
  | .powerOn _ _ _ => none
  | .headerRestored _ => none
  | .restoreComplete _ => none
  | .writerTakeItem => none
  | .blockWriteAck => none
  | .blockWriteTimeout _ => none
  | .writerWaitEnd => none

/-! ## The write queue and the record update (R5, R173) -/

/-- A queue after items are handed to it one by one: each joins the tail unless it is queued (R173). -/
def joined (q : List Item) (is : List Item) : List Item := is.foldl (fun q i => if i ∈ q then q else q ++ [i]) q

/-- The image store as it was but for its queue, to which items have been handed. -/
def Isi.handed (i : Isi) (is : List Item) : Isi := { i with queue := joined i.queue is }

/-- The slot a record update leaves: revision one higher modulo 65,536, the fields set, the stamp of the present works
time and the station the change is made for (R5). -/
def stepped (s : State) (n st : Nat) (r : Record) : Slot :=
  { rev := (s.revAt n + 1) % 65536, rec? := some { r with stamp := { time := s.wck.time, station := st } } }

/-- Slot `n` holds `x`, every other slot and everything else the TBC keeps is as it was. -/
def SlotIs (s t : State) (n : Nat) (x : Slot) : Prop :=
  t.slotAt n = x ∧ (∀ m, m ≠ n → t.slotAt m = s.slotAt m) ∧ t.tbc = { s.tbc with slots := t.tbc.slots }

/-- A record update of slot `n`, which held `r`, to the fields of `r'`, and nothing else in the TBC and the ISI: one that
changes no field changes nothing, any other steps the slot and hands it to the write queue (R5). -/
def RecordUpdate (s t : State) (n st : Nat) (r r' : Record) : Prop :=
  if r' = r then t.tbc = s.tbc ∧ t.isi = s.isi
  else SlotIs s t n (stepped s n st r') ∧ t.isi = s.isi.handed [.slot n]

/-- The revision a record has after an update (R5). -/
def revAfter (s : State) (n : Nat) (r r' : Record) : Nat := if r' = r then s.revAt n else (s.revAt n + 1) % 65536

/-- A request that made one record update and answered DONE with the revision after it, reaching nothing else. -/
def RecordDone (s t : State) (h : Ask) (q : Req) (n : Nat) (r r' : Record) : Prop :=
  RecordUpdate s t n h.station r r' ∧
    t.bmu = s.bmu.answering h (answerTo q .done [.u16 (revAfter s n r r')]) ∧ OnlyIn [.tbc, .isi, .bmu] s t

/-- A request that is answered with a result and its figures and changes nothing else (R7). -/
def Answered (s : State) (h : Ask) (q : Req) (res : Result) (body : List Field) : State :=
  { s with bmu := s.bmu.answering h (answerTo q res body) }

/-- The slot and the revision that the requests of this group carry after the head of the ASK. -/
def slotAndRev? : Instr → Option (Nat × Nat)
  | .bored _ slot rev => some (slot, rev)
  | .closeWithdraw _ slot rev => some (slot, rev)
  | .closeAccept _ slot rev => some (slot, rev)
  | .closeRestart _ slot rev => some (slot, rev)
  | .closeRetest _ slot rev => some (slot, rev)
  | .closeAbandon _ slot rev => some (slot, rev)
  | .unbind _ slot rev => some (slot, rev)
  | _ => none

/-- Likewise for those that carry the revision beside fields of their own. -/
def slotRevAndFields? : Instr → Option (Nat × Nat)
  | .amend _ slot rev _ _ _ => some (slot, rev)
  | .retire _ slot rev _ => some (slot, rev)
  | .replace _ slot rev _ => some (slot, rev)
  | .certify _ slot rev _ _ _ _ _ _ _ => some (slot, rev)
  | .start _ _ slot _ rev => some (slot, rev)
  | .resume _ slot rev _ => some (slot, rev)
  | .bind _ slot rev _ _ => some (slot, rev)
  | c => slotAndRev? c

/-- The slot of the requests that name a record by it and carry no revision (R20, R55). -/
def slotAlone? : Instr → Option Nat
  | .purge _ slot => some slot
  | .abort _ slot => some slot
  | _ => none

/-- The overrides of Table 1-1 in their ranges. -/
def OverridesInRange (freeOv bondOv : Option Nat) : Prop :=
  (∀ mm, freeOv = some mm → 3000 ≤ mm ∧ mm ≤ 60000) ∧ ∀ mm, bondOv = some mm → 3000 ≤ mm ∧ mm ≤ 20000

/-- The fields that these requests carry beside slot and revision, each in its range, and each there that the request needs
(R17, R19, R21, R24, R48, R52, R129); the others carry none. -/
def FieldsInRange : Instr → Prop
  | .amend _ _ _ cls freeOv bondOv => (∀ n, cls = some n → n ≤ 15) ∧
      (∀ mm, freeOv = .set mm → 3000 ≤ mm ∧ mm ≤ 60000) ∧ ∀ mm, bondOv = .set mm → 3000 ≤ mm ∧ mm ≤ 20000
  | .retire _ _ _ reason => reason = codeIn RetireReason.all .abandoned ∨ reason = codeIn RetireReason.all .supervisor
  | .replace _ _ _ cls => ∀ n, cls = some n → n ≤ 15
  | .certify _ _ _ target cls freeOv bondOv cureEnd lockoff reason => cls ≤ 15 ∧ OverridesInRange freeOv bondOv ∧
      (∀ n, cureEnd = some n → n ≤ 4294967295) ∧ (∀ n, lockoff = some n → 1 ≤ n ∧ n ≤ 30000) ∧
      (∀ n, reason = some n → 1 ≤ n ∧ n ≤ 4) ∧
      ∃ x ∈ [RecState.planned, .bored, .inserted, .curing, .ready, .locked, .retired], target = codeIn RecState.all x ∧
        (cureEnd.isSome ↔ x = .curing) ∧ (lockoff.isSome ↔ x = .locked) ∧ (reason.isSome ↔ x = .retired)
  | .start _ kind _ station _ => (∃ k, kind = codeIn CtxKind.all k) ∧ 1 ≤ station ∧ station ≤ 15
  | .resume _ _ _ station => ∃ n, station = some n ∧ 1 ≤ n ∧ n ≤ 15
  | .bind _ _ _ station channel => 1 ≤ station ∧ station ≤ 15 ∧ channel ≤ 7
  | _ => True

/-- The lowest FREE slot (R1). -/
def LowestFree (s : State) (n : Nat) : Prop := n < 512 ∧ s.recAt n = none ∧ ∀ m, m < n → s.recAt m ≠ none

/-- The generation of a new record at a position (R4): 0 where the table holds none there, else one above the highest. -/
def NewGeneration (s : State) (row bay g : Nat) : Prop :=
  (∀ m r, s.recAt m = some r → r.row = row → r.bay = bay → r.gen < g) ∧
    (g = 0 ∨ ∃ m r, s.recAt m = some r ∧ r.row = row ∧ r.bay = bay ∧ g = r.gen + 1)

/-- Entry of the record `r` of slot `n` to RETIRED, its other fields as in `r0` (R8, R10), but for its attention entries: the
record update; the "replaced by" link of the live record it was to replace, in an update of its own; its monitor channel; its
map entry; and the slots handed to the write queue. -/
def RetiresRecord (s t : State) (n st : Nat) (reason : RetireReason) (r r0 : Record) : Prop :=
  let old := r.replaces.filter (fun m =>
    (s.recAt m).any (fun q => q.replacedBy = some n ∧ s.liveAt q.row q.bay = some m))
  let live : Prop := s.liveAt r.row r.bay = some n
  let next := r.replacedBy.filter (fun m => (s.recAt m).any (fun q => q.state ≠ .retired))
  t.slotAt n = stepped s n st { r0 with
      state := .retired, retireReason := some reason, context := none, heldKind := none, heldReason := none
      binding := none, conds := [] } ∧
    (∀ m q, old = some m → s.recAt m = some q → t.slotAt m = stepped s m st { q with replacedBy := none }) ∧
    (∀ m, m ≠ n → old ≠ some m → t.slotAt m = s.slotAt m) ∧
    (live → t.liveAt r.row r.bay = next) ∧
    (∀ key, ¬ (live ∧ key = posKey r.row r.bay) → t.tbc.map.get? key = s.tbc.map.get? key) ∧
    t.tbc = { s.tbc with slots := t.tbc.slots, map := t.tbc.map } ∧
    (live → t.isi = s.isi.handed (.slot n :: (old.toList ++ next.toList).map Item.slot)) ∧
    (¬ live → t.isi = s.isi.handed (.slot n :: old.toList.map Item.slot)) ∧
    t.channels = (match r.binding with
      | some b => s.channels.erase (channelKey b)
      | none => s.channels)

/-- The same with its attention entries, which leave the list (R8). -/
def EntersRetired (s t : State) (n st : Nat) (reason : RetireReason) (r r0 : Record) : Prop :=
  RetiresRecord s t n st reason r r0 ∧ t.atu = (s.atu.drop (fun e => e.subject = .record n)).sound s.tbc.site.alarm

/-! ## Work contexts (R50 to R54) -/

/-- A condition told to the ATU as raised now (R136): nothing at level 0, else its entry is handled and ALM follows. -/
def tellAtu (s : State) (subj : Subject) (a : Atu) (c : Cond) : Atu :=
  if levelOf s.tbc.site c = 0 then a
  else (a.place { subject := subj, cond := c, level := levelOf s.tbc.site c, time := s.wck.time }).sound s.tbc.site.alarm

/-- The attention list after those conditions of `cs` that the set `held` does not hold have been told (R6, R136). -/
def toldNew (s : State) (subj : Subject) (held cs : List Cond) : Atu :=
  (cs.filter (fun c => c ∉ held)).foldl (tellAtu s subj) s.atu

/-- A record held at the end of its work (R53): the held kind and reason, and the partial result of an insertion or a
grouting, with the grout end reason and time where the ending gives them. -/
def heldRecord (prog : Progress) (reason : HeldReason) (ending : Option (EndReason × Nat)) (r : Record) : Record :=
  { r with
    state := .held, context := none, heldKind := some prog.kind, heldReason := some reason
    insertion := (match prog with
      | .insert p => some (payout p)
      | _ => r.insertion)
    grout := (match prog with
      | .grout p => some (GroutResult.mk (volume p) p.peak (ending.map Prod.fst) (ending.map Prod.snd))
      | _ => r.grout) }

/-- Context `c`, which held `x`, is released (R53, R54): it is FREE, its station is unbound and holds the parting order,
and the record of its slot makes one update, for the station `st`, to `r'`, raising `cs`. -/
def EndsWork (s t : State) (c : Nat) (x : Context) (p : Parting) (st : Nat) (cs : List Cond) (r r' : Record) : Prop :=
  t.ctxAt c = none ∧ (∀ d, d ≠ c → t.ctxAt d = s.ctxAt d) ∧
    t.cxp.parting.get? x.station = some p ∧ (∀ m, m ≠ x.station → t.cxp.parting.get? m = s.cxp.parting.get? m) ∧
    t.stationAt x.station = { s.stationAt x.station with ctx := none } ∧
    (∀ m, m ≠ x.station → t.stationAt m = s.stationAt m) ∧
    SlotIs s t x.slot (stepped s x.slot st { r' with conds := addConds cs r.conds }) ∧
    t.isi = s.isi.handed [.slot x.slot] ∧ t.atu = toldNew s (.record x.slot) r.conds cs

/-- Context `c` is bound between slot `n`, holding `r`, and a station, with the progress `prog` (R51, R52, R124). -/
def BindsWork (s t : State) (c : Nat) (k : CtxKind) (n station sender : Nat) (r : Record) (prog : Progress) : Prop :=
  t.ctxAt c = some { slot := n, station := station, run := .running, suspend := 0, limitDue := false, prog := prog } ∧
    (∀ d, d ≠ c → t.ctxAt d = s.ctxAt d) ∧
    t.stationAt station = { s.stationAt station with ctx := some c } ∧
    (∀ m, m ≠ station → t.stationAt m = s.stationAt m) ∧
    t.cxp.parting.get? station = none ∧ (∀ m, m ≠ station → t.cxp.parting.get? m = s.cxp.parting.get? m) ∧
    SlotIs s t n (stepped s n sender { r with
      state := k.workState, context := some c, heldKind := none, heldReason := none
      binding := if k = .destress then none else r.binding }) ∧
    t.isi = s.isi.handed [.slot n] ∧
    t.channels = (match k, r.binding with
      | .destress, some b => s.channels.erase (channelKey b)
      | _, _ => s.channels)

/-- The progress a binding starts with (R51, R52, R69, R97, R106, R124): the counts from the latest the station has
reported, the earlier payout, or volume and peak, of a RESUME, and the first phase with its order. -/
def StartsProgress (s : State) (k : CtxKind) (station : Nat) (r : Record) (cls : ClassEntry) (resumed : Bool)
    (prog : Progress) : Prop :=
  match k with
  | .insert => ∃ p, prog = .insert p ∧ p.total = 0 ∧ p.order = .run ∧ p.scale = (s.stationAt station).param.getD 0 ∧
      p.carried = (if resumed then r.insertion.getD 0 else 0) ∧
      ∀ count tension, (s.stationAt station).telemetry = some (.winch count tension) → p.baseline = count
  | .grout => ∃ p, prog = .grout p ∧ p.total = 0 ∧ p.refTimer = 0 ∧ p.counting = false ∧
      p.scale = (s.stationAt station).param.getD 0 ∧
      p.carried = (if resumed then (r.grout.map GroutResult.volume).getD 0 else 0) ∧
      p.peak = (if resumed then (r.grout.map GroutResult.peak).getD 0 else 0) ∧
      ∀ count pressure, (s.stationAt station).telemetry = some (.grout count pressure) → p.baseline = count
  | .stress => ∃ p cal, prog = .stress p ∧ s.calAt station = some cal ∧ p.phase = .datum ∧ p.holding = false ∧
      p.order = .pressure (pressureOf cal (datumTarget cls)).1 ∧ p.timer = none ∧ p.elapsed = 0 ∧ p.acc = 0 ∧
      p.register = .closed ∧ p.restrokes = 0 ∧ p.makeups = 0 ∧
      ∀ pr st a b c d, (s.stationAt station).telemetry = some (.jack pr st a b c d) → p.origin = min st 30000
  | .destress => ∃ p, prog = .destress p ∧ p.phase = .liftoff ∧ p.order = .lift ∧ p.holding = false ∧ p.timer = none ∧
      p.elapsed = 0 ∧ p.liftoff = none ∧ p.steps = []

/-- The pairs of kinds that Table 2-3 marks as a conflict. -/
abbrev ConflictingKinds (k l : CtxKind) : Prop :=
  (k, l) ∈ [(CtxKind.grout, CtxKind.stress), (.grout, .destress), (.stress, .grout), (.stress, .stress), (.stress, .destress),
    (.destress, .grout), (.destress, .stress), (.destress, .destress)]

/-- Two records are near at a span: their rows differ by 0 or 1, their bays by no more than the span (R36). -/
abbrev NearAt (span : Nat) (x y : Record) : Prop :=
  x.row ≤ y.row + 1 ∧ y.row ≤ x.row + 1 ∧ x.bay ≤ y.bay + span ∧ y.bay ≤ x.bay + span

/-- Whether at a span some two bound contexts would form a near conflicting pair (R37, R38). -/
def pairAtSpan (s : State) (span : Nat) : Bool :=
  s.cxp.contexts.any (fun p => s.cxp.contexts.any (fun q =>
    decide (p.1 ≠ q.1 ∧ ConflictingKinds p.2.prog.kind q.2.prog.kind) &&
      (s.recAt p.2.slot).any (fun r => (s.recAt q.2.slot).any (fun o => decide (NearAt span r o)))))

/-- The checks of Table 3-3 in their order, each with the result it refuses with. -/
def bindingChecks (s : State) (k : CtxKind) (station : Nat) (r : Record) (resumed : Bool) : List (Bool × Result) :=
  let jack : Bool := k = .stress ∨ k = .destress
  [ (decide ((s.stationAt station).kind ≠ k.stationKind), .wrongKind),
    (decide ((s.stationAt station).state ≠ .present), .stationAbsent),
    ((s.stationAt station).ctx.isSome, .stationBound),
    (decide (¬ if resumed then r.state = .held ∧ r.heldKind = some k else r.state = k.neededState), .wrongState),
    (s.ifu.stop.isSome, .siteStopped),
    (decide (s.wck.clock = .held), .notReady),
    ((s.classOf r).isNone || jack && (s.calAt station).isNone, .notReady),
    (jack && (s.classOf r).any (fun cls => (s.calAt station).any (fun cal => decide (lastCalLoad cal < testLoad cls))),
      .capacity),
    (s.cxp.contexts.any (fun p => decide (ConflictingKinds k p.2.prog.kind) &&
      (s.recAt p.2.slot).any (fun q => decide (NearAt s.tbc.site.span r q))),
      .conflict),
    (decide (k = .destress) && !(s.isRelieved r.row), .reliedOn),
    ((List.range 12).all (fun c => (s.ctxAt c).isSome), .full) ]

/-- Work of kind `k` on `r` would form a near conflicting pair with context `c` (R37). -/
def FormsPair (s : State) (k : CtxKind) (r : Record) (c : Nat) : Prop :=
  ∃ x q, s.ctxAt c = some x ∧ s.recAt x.slot = some q ∧ ConflictingKinds k x.prog.kind ∧
    NearAt s.tbc.site.span r q

/-- The figures that the ANSWER of a refused binding carries (R50): for CAPACITY the class test load and the jack's last
calibration load, for CONFLICT the lowest-numbered bound context that forms the pair, and none for another result. -/
def BindingFigures (s : State) (k : CtxKind) (station : Nat) (r : Record) (res : Result) (body : List Field) : Prop :=
  (res = .capacity → ∀ cls cal, s.classOf r = some cls → s.calAt station = some cal →
    body = [.u16 (testLoad cls), .u16 (lastCalLoad cal)]) ∧
    (res = .conflict → ∃ c, body = [.u8 c] ∧
      (Table.wf s.cxp.contexts → FormsPair s k r c ∧ ∀ d, d < c → ¬ FormsPair s k r d)) ∧
    (res ≠ .capacity → res ≠ .conflict → body = [])

/-! ## Rows (R39, R40) -/

/-- A row passes the query of R40: it is relieved, or every live record in it is LOCKED. -/
def RowHolds (s : State) (row : Nat) : Prop :=
  s.isRelieved row = true ∨
    ∀ bay n r, 1 ≤ bay → bay ≤ 400 → s.liveAt row bay = some n → s.recAt n = some r → r.state = .locked

/-- Every live record of a row is LOCKED (R40, R43). -/
def AllLocked (s : State) (row : Nat) : Prop :=
  ∀ bay n r, 1 ≤ bay → bay ≤ 400 → s.liveAt row bay = some n → s.recAt n = some r → r.state = .locked

/-- The query value of R40: the deepest row such that every row down to it passes. -/
def QueryValue (s : State) (q : Nat) : Prop :=
  q ≤ 12 ∧ (∀ row, 1 ≤ row → row ≤ q → RowHolds s row) ∧ (q < 12 → ¬ RowHolds s (q + 1))

/-- The live records of a row that are not LOCKED (R40): slot `n` is one. -/
def Blocks (s : State) (row n : Nat) : Prop :=
  ∃ bay r, 1 ≤ bay ∧ bay ≤ 400 ∧ s.liveAt row bay = some n ∧ s.recAt n = some r ∧ r.state ≠ .locked

/-- Their number, counted bay by bay. -/
def blockCount (s : State) (row : Nat) : Nat :=
  (List.range 400).countP (fun b => (s.liveAt row (b + 1)).any (fun n =>
    (s.recAt n).any (fun r => decide (r.state ≠ .locked))))

/-- A live record of a relied row (R39). -/
def LiveAndRelied (s : State) (n : Nat) (r : Record) : Prop :=
  s.liveAt r.row r.bay = some n ∧ 1 ≤ r.row ∧ r.row ≤ s.tbc.site.digRow ∧ s.isRelieved r.row = false

/-! ## Cabinet restart (R66, R151, R158, R170, R183) -/

/-- A station after a cabinet restart: unbound, and SEEKING without failures or a last error where it is enrolled. -/
def stationRestarted (x : Station) : Station :=
  if x.kind = .none then { x with ctx := none }
  else { x with ctx := none, state := .seeking, failures := 0, lastError := none }

/-- A line after a cabinet restart: a test is cut short and the line QUIET again. -/
def lineRestarted (x : Line) : Line :=
  if x.state = .testing then { x with state := .quiet, test := x.test.map (fun y => { y with phase := .cutShort }) } else x

/-- What a cabinet restart does, but for the input filters: every context is released, in ascending number, its record HELD
with reason RESTART for station 31 and its station parting with the stop order; every enrolled station seeks; the bus stands
idle with no TIME remembered; the staged class part is gone; everything else is kept, every line item but that of a test and
what a line owes among it. -/
def CabinetRestarted (s t : State) : Prop :=
  t.cxp.contexts = [] ∧
    (∀ c x, s.ctxAt c = some x →
      t.cxp.parting.get? x.station = some (Parting.plain (stopOrder x.prog.kind.stationKind)) ∧
        ∀ r, s.recAt x.slot = some r → t.slotAt x.slot = stepped s x.slot 31 (heldRecord x.prog .restart none r)) ∧
    (∀ m, (∀ c x, s.ctxAt c = some x → x.station ≠ m) → t.cxp.parting.get? m = s.cxp.parting.get? m) ∧
    (∀ n, (∀ c x, s.ctxAt c = some x → x.slot ≠ n) → t.slotAt n = s.slotAt n) ∧
    t.tbc = { s.tbc with slots := t.tbc.slots, staged := none } ∧
    t.isi = s.isi.handed (s.cxp.contexts.map (fun p => .slot p.2.slot)) ∧
    (∀ n, n < 16 → t.stationAt n = stationRestarted (s.stationAt n)) ∧
    (∀ l, t.lineAt l = { lineRestarted (s.lineAt l) with allstopDue := (t.lineAt l).allstopDue }) ∧
    t.bmu.turn = none ∧ t.bmu.exchange = .idle ∧ t.bmu.lastTime = none ∧
    t.wck = s.wck ∧ t.cals = s.cals ∧ t.channels = s.channels ∧ t.freeNext = s.freeNext

/-- The input filters of a restart (R150, R152): each accepted level is its pin's, each filter STEADY; a site stop in force
stays, one begins where the site was CLEAR and a stop demand stands; the key state is SPENT or IDLE. -/
def FiltersRestarted (s t : State) : Prop :=
  (∀ i : Fin 4, t.ifu.inputs[i].pin = s.ifu.inputs[i].pin ∧ t.ifu.inputs[i].accepted = s.ifu.inputs[i].pin ∧
      t.ifu.inputs[i].pendingChange = false) ∧
    (∀ o, s.ifu.stop = some o → t.ifu.stop = some o) ∧
    (s.ifu.stop = none → (t.ifu.stop.isSome ↔ stopDemand t.tbc.site t.ifu = true)) ∧
    t.ifu.key = (if keyCombination t.tbc.site t.ifu then .spent else .idle)

/-- What the filters of a restart do to the attention list, the overflow count, ALM and the ALLSTOP that a line owes (R135,
R141, R146, R147, R152): a site stop that begins is listed, and each ACTIVE line owes its ALLSTOP; where none begins all of them
stay as they were. -/
def StopFollows (s t : State) : Prop :=
  let begins : Prop := s.ifu.stop = none ∧ t.ifu.stop ≠ none
  (begins → t.atu = (if s.sys.phase = .up then tellAtu s .site s.atu .siteStop else s.atu) ∧
    ∀ l, (t.lineAt l).allstopDue = decide ((t.lineAt l).state = .active)) ∧
  (¬ begins → t.atu = s.atu ∧ ∀ l, (t.lineAt l).allstopDue = (s.lineAt l).allstopDue)

/-! ## The works bus (R54, R60, R156, R159, R164, R165) -/

/-- The line coverage test of R156, given the line states before and after a change, and the inhibits and kinds after it. -/
def Covers (before after : LineId → LineState) (inhibits : Nat → Inhibits) (kind : Nat → StationKind) : Prop :=
  (∃ l, (after l = .active ∨ after l = .quiet) ∧ inhibitedOn (inhibits 0) l = false) ∧
    ((∃ l, before l = .active) → (∃ l, after l = .active) ∧
      ∀ n, n < 16 → kind n ≠ .none → ∃ l, after l = .active ∧ inhibitedOn (inhibits n) l = false)

/-- A station has a turn: it is not UNUSED and has a usable line (R164). -/
def HasTurn (s : State) (n : Nat) : Prop :=
  n < 16 ∧ (s.stationAt n).state ≠ .unused ∧ ∃ l, s.usable n l = true

/-- The turn of station `n` as it begins. -/
def freshTurn (n : Nat) : Turn :=
  { station := n, tries := 0, retry := 0, lastLine := none, fetches := 0, fetchLine := none }

/-- Where the scan stands once the stations below `n` have had their turns (R164): the next station that has a turn begins it,
and with none left the scan ends. -/
def TurnGoesTo (s t : State) (n : Nat) : Prop :=
  (∀ m, n ≤ m → HasTurn s m → (∀ k, n ≤ k → k < m → ¬ HasTurn s k) → t.bmu.turn = some (freshTurn m)) ∧
    ((∀ m, n ≤ m → ¬ HasTurn s m) → t.bmu.turn = none)

/-- The marks and figures that the end of a scan leaves on a line, `y` being the other line as it was (R159, R163). -/
def lineAtScanEnd (x y : Line) : Line :=
  { x with
    lastTally := x.tally, lastAttempts := x.attempts, lastSuccesses := x.successes
    noiseMark := x.noiseMark || decide (8 ≤ x.tally)
    faultMark := x.faultMark || (decide (1 ≤ x.attempts) && decide (x.successes = 0) && decide (1 ≤ y.successes)) }

/-- The order that a CALL to a rig station carries (R54, R60, R111, R165). -/
def CallOrder (s : State) (n : Nat) (o : Order) : Prop :=
  ((s.stationAt n).kind = .monitor → o = .read) ∧
    ((s.stationAt n).kind ≠ .monitor →
      ((s.stationAt n).ctx = none →
        o = ((s.cxp.parting.get? n).map Parting.order).getD (unboundOrder (s.stationAt n).kind)) ∧
      ∀ c x, (s.stationAt n).ctx = some c → s.ctxAt c = some x →
        (x.run ≠ .running → o = stopOrder x.prog.kind.stationKind) ∧
        (x.run = .running →
          (∀ p, x.prog = .insert p → o = p.order) ∧ (∀ p, x.prog = .grout p → o = .pump) ∧
          (∀ p, x.prog = .stress p ∨ x.prog = .destress p → o = if p.faultHold then .hold else p.order)))

/-- Progress that leaves RUNNING: a refusal completion that was due waits for a used reply (R62, R82). -/
def waitingProgress : Progress → Progress
  | .grout p => .grout { p with due := false }
  | p => p

/-- A context put into SUSPENDED (R57): one that is SUSPENDED keeps its suspend time. -/
def suspendedContext (x : Context) : Context :=
  if x.run = .suspended then x
  else { x with run := .suspended, suspend := 0, limitDue := false, prog := waitingProgress x.prog }

/-- A context as a site stop begins (R58): a RUNNING one is STOPPED. -/
def stoppedContext (x : Context) : Context :=
  if x.run = .running then { x with run := .stopped, prog := waitingProgress x.prog } else x

/-- What an ASK that is not taken does: in an open window on its line it is the frame that fails with CHECK (R160); anywhere
else it changes nothing. -/
def AskMissed (s t : State) (h : Ask) : Prop :=
  let window : Prop := s.busUp = true ∧ ∃ n, s.bmu.exchange = .call n h.line ∨ s.bmu.exchange = .fetch n h.line
  (window → exec (.badFrame .check) s = .next t) ∧ (¬ window → t = s)

/-! ## Inputs and start-ups (R144 to R147, R150, R152, R176) -/

/-- An input with function STOP is asserted (R145). -/
def Demands (s : State) (inputs : Vector Input 4) (i : Fin 4) : Prop :=
  s.tbc.site.inputs[i].function = .stop ∧ s.tbc.site.inputs[i].enabled = true ∧
    inputs[i].accepted = s.tbc.site.inputs[i].asserts

/-- The inputs become `inputs` and their signals are acted on (R145 to R147, R150): a stop demand with the site CLEAR begins a
site stop at the lowest input that demands it; a stop in force is left alone; the key state follows the key combination. -/
def InputsTaken (s t : State) (inputs : Vector Input 4) : Prop :=
  t.ifu.inputs = inputs ∧
    t.ifu.key = (match s.ifu.key, keyCombination s.tbc.site { s.ifu with inputs := inputs } with
      | .idle, true => .timing 0
      | .timing _, false => .idle
      | .spent, false => .idle
      | k, _ => k) ∧
    (s.ifu.stop ≠ none ∨ (∀ i, ¬ Demands s inputs i) → t.ifu.stop = s.ifu.stop ∧ OnlyIn [.ifu] s t) ∧
    (∀ i, s.ifu.stop = none → Demands s inputs i → (∀ j, j < i → ¬ Demands s inputs j) →
      t.ifu.stop = some { input := i.val, time := s.wck.time } ∧
        (∀ c, t.ctxAt c = (s.ctxAt c).map stoppedContext) ∧
        t.cxp.parting = s.cxp.parting ∧
        t.bmu = { s.bmu with
          lineA := { s.bmu.lineA with allstopDue := decide (s.bmu.lineA.state = .active) }
          lineB := { s.bmu.lineB with allstopDue := decide (s.bmu.lineB.state = .active) } } ∧
        t.atu = (if s.sys.phase = .up then tellAtu s .site s.atu .siteStop else s.atu) ∧
        OnlyIn [.ifu, .cxp, .bmu, .atu] s t)

/-- What a FRESH or COMMISSION power-on leaves (R152, R155, R176): the state of reset, the lines of the mode, the write queue with
every item, the pins accepted as they stand, and a site stop where the contact of FI0, which the default settings make a stop
loop, is open. -/
def StartedEmpty (s t : State) (mode : StartMode) : Prop :=
  t.tbc = State.reset.tbc ∧ t.cxp = State.reset.cxp ∧ t.cals = [] ∧ t.channels = [] ∧ t.wck = State.reset.wck ∧
    t.bmu.stations = State.reset.bmu.stations ∧ t.bmu.turn = none ∧ t.bmu.exchange = .idle ∧ t.bmu.lastTime = none ∧
    (∀ l, t.lineAt l = { Line.powered (if mode = .commission then .quiet else .active) with
      allstopDue := decide (mode ≠ .commission) && decide (s.ifu.inputs[0].pin = .opened) }) ∧
    (∀ i : Fin 4, t.ifu.inputs[i] = { pin := s.ifu.inputs[i].pin, accepted := s.ifu.inputs[i].pin, pendingChange := false }) ∧
    t.ifu.key = .idle ∧
    t.ifu.stop = (if s.ifu.inputs[0].pin = .opened then some { input := 0, time := 0 } else none) ∧
    t.atu = (if s.ifu.inputs[0].pin = .opened then
      { entries := [{ subject := .site, cond := .siteStop, level := 3, time := 0 }], overflow := 0, alm := true }
      else State.reset.atu) ∧
    t.isi.queue = .header :: (List.range 512).map Item.slot ∧ t.isi.writer = .idle ∧ t.isi.noted = [] ∧
    t.isi.suspectMark = false ∧ t.isi.writeMark = false ∧ t.sys = { mode := mode, phase := .up, rst := false }

/-- What a RESTORE power-on leaves before it has read the header (R176): nothing held, the clock HELD, no site stop. -/
def StartedRestore (s t : State) : Prop :=
  t.tbc = State.reset.tbc ∧ t.cxp = State.reset.cxp ∧ t.cals = [] ∧ t.channels = [] ∧ t.atu = State.reset.atu ∧
    t.wck = { time := 0, clock := .held, scale := 1 } ∧ t.bmu = State.reset.bmu ∧ t.ifu.stop = none ∧ t.ifu.key = .idle ∧
    (∀ i : Fin 4, t.ifu.inputs[i].pin = s.ifu.inputs[i].pin) ∧ t.isi.queue = [] ∧ t.isi.writer = .idle ∧
    t.sys = { mode := .restore, phase := .readHeader, rst := false }

/-- The works time a restore gives (R180): the greatest of the header's, where it was read, and the stamps of the sound record
blocks; 0 where there is none. -/
def RestoredTime (headerTime : Option Nat) (taken : Nat → Taken) (time : Nat) : Prop :=
  (∀ h, headerTime = some h → h ≤ time) ∧
    (∀ n rev r live, n < 512 → taken n = .sound rev r live → r.stamp.time ≤ time) ∧
    (time = 0 ∨ headerTime = some time ∨ ∃ n rev r live, n < 512 ∧ taken n = .sound rev r live ∧ r.stamp.time = time)

/-! ## Settings of the site (R138, R149) -/

/-- The items a SITE_WRITE carries are in the ranges of R34, Table 8-1 and R65. -/
def SiteInRange (x : SiteItems) (mode : StartMode) : Prop :=
  let opt (lo hi : Nat) (o : Option Nat) : Prop := ∀ n, o = some n → lo ≤ n ∧ n ≤ hi
  opt 0 4 x.span ∧ (∀ i : Fin 17, opt 0 2 x.levels[i]) ∧ opt 1 3 x.alarm ∧ opt 10 300 x.drift ∧
    (∀ (i : Fin 4) (y : InputCodes), x.inputs[i] = some y → 1 ≤ y.enable ∧ y.enable ≤ 2 ∧ 1 ≤ y.polarity ∧
      y.polarity ≤ 2 ∧ y.filter ≤ 3 ∧ 1 ≤ y.function ∧ y.function ≤ 4) ∧
    opt 20 500 x.scanMin ∧ opt 2 15 x.silence ∧ opt 10 600 x.suspend ∧
    ∀ n, x.scale = some n → n = 1 ∨ mode = .commission ∧ (n = 10 ∨ n = 60)

/-- Every subject in ascending rank (R133). -/
def subjectsInRank : List Subject :=
  [.site, .line .a, .line .b] ++ (List.range 16).map Subject.station ++ (List.range 512).map Subject.record

/-- The attention list once one kind has taken the level that `site` gives it (R138): its entries take the level in their
places, or leave at level 0; at another level every subject that is marked and has no entry is entered, now. -/
def relevelled (s : State) (site : SiteSettings) (a : Atu) (c : Cond) : Atu :=
  let level := levelOf site c
  let kept := a.entries.filter (fun e => e.cond ≠ c)
  if level = 0 then { a with entries := kept }
  else
    let placed := (a.entries.filter (fun e => e.cond = c)).foldl (fun l e => insertEntry { e with level := level } l) kept
    subjectsInRank.foldl
      (fun b subj =>
        if s.marked subj c = true ∧ b.lists subj c = false then
          b.place { subject := subj, cond := c, level := level, time := s.wck.time }
        else b)
      { a with entries := placed }

/-- The attention list after a SITE_WRITE that leaves the settings `site`: kind by kind in ascending priority, with ALM
against the new threshold (R138, R141). -/
def listRelevelled (s : State) (site : SiteSettings) : Atu :=
  ((Cond.all.filter (fun c => levelOf s.tbc.site c ≠ levelOf site c)).foldl (relevelled s site) s.atu).sound site.alarm

/-- An input whose filter code may have changed: a changed one restarts its filter (R149). -/
def refiltered (old new : InputSettings) (x : Input) : Input :=
  if old.filter = new.filter then x else { pin := x.pin, accepted := x.pin, pendingChange := false }

/-! ## Laws of the part -/

/-- Each item stands at most once in the write queue (R173). -/
def QueueDistinct (s : State) : Prop := s.isi.queue.Nodup

/-- The attention list and ALM (R135, R136, R141): at most 64 entries in the order of R135, an overflow count of at most
255, and ALM asserted exactly while an entry stands at or above the alarm threshold. -/
def AttentionLaw (s : State) : Prop :=
  s.atu.entries.length ≤ 64 ∧ s.atu.overflow ≤ 255 ∧
    s.atu.entries.Pairwise (fun x y => y.before x = false) ∧
    (s.atu.alm = true ↔ ∃ e ∈ s.atu.entries, s.tbc.site.alarm ≤ e.level)

/-- The order of the attention list (R133, R135): level descending, priority ascending in the order of Table 7-1, raised time,
subject rank: the site, Line A, Line B, the stations, the records. -/
def ListOrder : Prop :=
  [Cond.overload, .burst, .siteStop, .overrange, .groutLoss, .loadDrift, .stationLost, .imageSuspect, .imageWrite, .creepFail,
    .lengthFail, .lockoffFail, .groutShort, .stationFault, .countSetback, .overpull, .insertLength, .noLiftoff, .lineFault,
    .lineNoise].map Cond.priority = (List.range 20).map (· + 1) ∧
  (∀ n, subjectRank .site < subjectRank (.line .a) ∧ subjectRank (.line .a) < subjectRank (.line .b) ∧
    subjectRank (.line .b) < subjectRank (.station n)) ∧
  (∀ n m, (subjectRank (.station n) < subjectRank (.station m) ↔ n < m) ∧
    (subjectRank (.record n) < subjectRank (.record m) ↔ n < m) ∧
    (n ≤ 15 → subjectRank (.station n) < subjectRank (.record m))) ∧
  ∀ x y : Entry, x.before y = true ↔ y.level < x.level ∨ y.level = x.level ∧
    (x.cond.priority < y.cond.priority ∨ x.cond.priority = y.cond.priority ∧
      (x.time < y.time ∨ x.time = y.time ∧ subjectRank x.subject < subjectRank y.subject))

/-- The list `l'` is `l` with `e` in its place: after every entry that it does not stand before, and before every other. -/
def PutInPlace (e : Entry) (l l' : List Entry) : Prop :=
  ∃ hi lo, l = hi ++ lo ∧ l' = hi ++ e :: lo ∧ (∀ x ∈ hi, e.before x = false) ∧ ∀ x ∈ lo, e.before x = true

/-- What handling the entry of a raised condition makes of the list and the overflow count (R136): in a list that is not full
the entry takes its place; in a full one the count goes up, to 255 at most, and the entry displaces the newest of the lowest
level present, the latest raised and among those the last in the order, where its level is above that one, and is not listed
otherwise. -/
def HandlesEntry (e : Entry) (a b : Atu) : Prop :=
  b.alm = a.alm ∧
    (a.entries.length < 64 → PutInPlace e a.entries b.entries ∧ b.overflow = a.overflow) ∧
    (a.entries.length = 64 → b.overflow = min 255 (a.overflow + 1) ∧
      ((∀ x ∈ a.entries, e.level ≤ x.level) → b.entries = a.entries) ∧
      ∀ x ∈ a.entries, x.level < e.level → ∃ hi old lo, a.entries = hi ++ old :: lo ∧
        (∀ y ∈ a.entries, old.level ≤ y.level) ∧ (∀ y ∈ hi, y.level = old.level → y.time ≤ old.time) ∧
        (∀ y ∈ lo, y.level = old.level → y.time < old.time) ∧ PutInPlace e (hi ++ lo) b.entries)

/-- The attention list and the marks (R6, R134, R135): no two entries with the same subject and condition, and every entry's
condition is marked on its subject. -/
def MarkLaw (s : State) : Prop :=
  s.atu.entries.Pairwise (fun x y => ¬ (x.subject = y.subject ∧ x.cond = y.cond)) ∧
    ∀ e ∈ s.atu.entries, s.marked e.subject e.cond = true

/-- While a start-up is under way the part holds no record, no context, no entry and nothing to write, and the bus is idle
(R151, R164, R176, R180). -/
def StartUpLaw (s : State) : Prop :=
  s.sys.phase ≠ .up → s.tbc.slots = [] ∧ s.cxp.contexts = [] ∧ s.atu.entries = [] ∧ s.isi.queue = [] ∧
    s.isi.writer = .idle ∧ s.bmu.exchange = .idle

/-- The Anchor Table and the Position Map (R1, R4, R9): slots 0 to 511; keys in range, no two records with the same key;
every map entry names a record of that position that is not RETIRED; every link names a record of the same position. -/
def TableLaw (s : State) : Prop :=
  Table.wf s.tbc.slots ∧ Table.wf s.tbc.map ∧
    (∀ n r, s.recAt n = some r → n < 512 ∧ 1 ≤ r.row ∧ r.row ≤ 12 ∧ 1 ≤ r.bay ∧ r.bay ≤ 400 ∧ r.gen ≤ 3) ∧
    (∀ n m r q, s.recAt n = some r → s.recAt m = some q → r.row = q.row → r.bay = q.bay → r.gen = q.gen → n = m) ∧
    (∀ key n, s.tbc.map.get? key = some n →
      ∃ r, s.recAt n = some r ∧ posKey r.row r.bay = key ∧ r.state ≠ .retired) ∧
    (∀ n m r, s.recAt n = some r → (r.replacedBy = some m ∨ r.replaces = some m) →
      ∃ q, s.recAt m = some q ∧ q.row = r.row ∧ q.bay = r.bay)

/-- Contexts, work states and stations (R46, R47): contexts are numbered 0 to 11, each names a record in the work state of
its kind that names the context, and a station that is enrolled with the kind it needs and is bound to it; a record in
a work state is named by a context, and so is every bound station. -/
def WorkLaw (s : State) : Prop :=
  Table.wf s.cxp.contexts ∧
    (∀ c x, s.ctxAt c = some x → c < 12 ∧
      (∃ r, s.recAt x.slot = some r ∧ r.state = x.prog.kind.workState ∧ r.context = some c) ∧
      x.station < 16 ∧ (s.stationAt x.station).kind = x.prog.kind.stationKind ∧
      (s.stationAt x.station).ctx = some c) ∧
    (∀ n r, s.recAt n = some r → r.state.isWork = true → ∃ c x, s.ctxAt c = some x ∧ x.slot = n) ∧
    (∀ n c, (s.stationAt n).ctx = some c → ∃ x, s.ctxAt c = some x ∧ x.station = n) ∧
    (s.sys.phase ≠ .up → s.cxp.contexts = [])

/-- No two bound contexts form a near conflicting pair (R36, R37). -/
def ExclusionLaw (s : State) : Prop :=
  ∀ c d x y r q, c ≠ d → s.ctxAt c = some x → s.ctxAt d = some y → s.recAt x.slot = some r → s.recAt y.slot = some q →
    ¬ (ConflictingKinds x.prog.kind y.prog.kind ∧ NearAt s.tbc.site.span r q)

/-- The live record of every position of a relied row is LOCKED or SUSPECT (R39), and a DESTRESS context stands only in a
relieved row (R44). Before a start-up has ended there is no live record. -/
def DigLaw (s : State) : Prop :=
  (∀ row bay n r, 1 ≤ row → row ≤ s.tbc.site.digRow → s.isRelieved row = false → 1 ≤ bay → bay ≤ 400 →
    s.liveAt row bay = some n → s.recAt n = some r → r.state = .locked ∨ r.state = .suspect) ∧
    (∀ c x r, s.ctxAt c = some x → x.prog.kind = .destress → s.recAt x.slot = some r → s.isRelieved r.row = true) ∧
    (s.sys.phase ≠ .up → s.tbc.map = [])

/-- The channel map and the records' monitor bindings agree, each bound record is LOCKED, and each binding names a channel
0 to 7 of a station 1 to 15 (R128). -/
def ChannelLaw (s : State) : Prop :=
  (∀ n r b, s.recAt n = some r → r.binding = some b →
    r.state = .locked ∧ 1 ≤ b.station ∧ b.station ≤ 15 ∧ b.channel ≤ 7 ∧ s.channels.get? (channelKey b) = some n) ∧
    (∀ key n, s.channels.get? key = some n → ∃ r b, s.recAt n = some r ∧ r.binding = some b ∧ channelKey b = key)

/-- Revisions stay in their range and a record's retest count never passes 2 (R1, R56). -/
def RecordRanges (s : State) : Prop :=
  (∀ n, s.revAt n ≤ 65535) ∧ ∀ n r, s.recAt n = some r → r.retests ≤ 2

/-- The image memory keeps its canonical form. -/
def ImageCanonical (s : State) : Prop := Memory.wf s.isi.image

/-- While the IFU samples, no stop demand stands with the site CLEAR (R146, R152), and the key state is IDLE exactly while
the key combination does not hold (R150). -/
def InputLaw (s : State) : Prop :=
  s.sampling = true →
    (s.ifu.stop = none → stopDemand s.tbc.site s.ifu = false) ∧
      (s.ifu.key = .idle ↔ keyCombination s.tbc.site s.ifu = false)

/-- Works time keeps its width (R63), and so does the time of the header that a restore holds until it ends (R177, R180). -/
def ClockLaw (s : State) : Prop :=
  s.wck.time ≤ 4294967295 ∧ ∀ time, s.sys.phase = .readRecords (some time) → time ≤ 4294967295

/-! ## Used replies of bound stations (R57, R60, R109, R166) -/

/-- A context after a reply without BUSY (R57). -/
def heardContext (s : State) (x : Context) : Context :=
  if x.run = .suspended then
    { x with run := if s.ifu.stop = none then .running else .stopped, suspend := 0, limitDue := false }
  else x

/-- A slot after a record update for the station `st`: nothing where no field changes (R5). -/
def updatedSlot (s : State) (st : Nat) (f : Record → Record) (z : Slot) : Slot :=
  match z.rec? with
  | some r =>
    if f r = r then z
    else { rev := (z.rev + 1) % 65536, rec? := some { f r with stamp := { time := s.wck.time, station := st } } }
  | none => z

/-- A slot after a condition has been raised on its record, where `on` says that it is (R6). -/
def raisedSlot (s : State) (st : Nat) (c : Cond) (on : Bool) (z : Slot) : Slot :=
  if on then updatedSlot s st (fun r => { r with conds := addConds [c] r.conds }) z else z

/-- Slot `n` holds `z` after updates of its record: it is handed to the write queue where it has changed (R5). -/
def SlotBecomes (s t : State) (n : Nat) (z : Slot) : Prop :=
  SlotIs s t n z ∧ t.isi = (if z = s.slotAt n then s.isi else s.isi.handed [.slot n])

/-- A reply without BUSY, of the enrolled kind, in the window of its CALL, of a station that context `c` binds to the record
`r` of class `cls`. -/
def UsedReply (s : State) (n : Nat) (l : LineId) (y : Reply) (c : Nat) (x : Context) (r : Record) (cls : ClassEntry) :
    Prop :=
  WorkLaw s ∧ n < 16 ∧ s.busUp = true ∧ s.bmu.exchange = .call n l ∧ (∃ u, s.bmu.turn = some u ∧ u.station = n) ∧
    (s.stationAt n).kind = declaredKind y.data ∧ y.busy = false ∧ (s.stationAt n).ctx = some c ∧ s.ctxAt c = some x ∧
    x.station = n ∧ s.recAt x.slot = some r ∧ s.classOf r = some cls

/-- The attention list after a used reply has raised `cs` on the record `r` of slot `n`, in this order, and STATION_FAULT where
it carries FAULT (R6, R136, R166). A turn that ends may end the scan and mark the lines, so this is said where the turn
goes on with a FETCH. -/
def Told (s t : State) (y : Reply) (n : Nat) (r : Record) (cs : List Cond) : Prop :=
  y.srq = true → t.atu = toldNew s (.record n) r.conds (cs ++ if y.fault = true then [.stationFault] else [])

/-- The records on which the reply of monitor `n` raises LOAD_DRIFT anew, in ascending channel order (R131, R132). -/
def newDrifts (s : State) (n : Nat) (chs : List (Nat × Bool)) : List Nat :=
  (List.range chs.length).filterMap (fun k => match chs[k]?, s.channels.get? (n * 8 + k) with
    | some (v, true), some m =>
      if (s.recAt m).any (fun r => decide (.loadDrift ∉ r.conds) && r.lockoffLoad.any (fun held =>
        decide (held * s.tbc.site.drift / 1000 < (min v 30000 - held) + (held - min v 30000)))) then some m else none
    | _, _ => none)

/-- Context `c` stays bound after a used reply, with the progress `prog`. -/
def GoesOn (s t : State) (c : Nat) (x : Context) (prog : Progress) : Prop :=
  t.ctxAt c = some { heardContext s x with prog := prog } ∧ (∀ d, d ≠ c → t.ctxAt d = s.ctxAt d) ∧
    t.cxp.parting = s.cxp.parting

/-- Context `c` is released with a parting order, whatever becomes of its record (R53, R54). -/
def Freed (s t : State) (c : Nat) (x : Context) (p : Parting) : Prop :=
  t.ctxAt c = none ∧ (∀ d, d ≠ c → t.ctxAt d = s.ctxAt d) ∧
    t.cxp.parting.get? x.station = some p ∧ (∀ m, m ≠ x.station → t.cxp.parting.get? m = s.cxp.parting.get? m) ∧
    (t.stationAt x.station).ctx = none ∧ ∀ m, m ≠ x.station → (t.stationAt m).ctx = (s.stationAt m).ctx

/-! ## Stressing and destressing (chapter 6) -/

/-- The progress of a STRESS or a DESTRESS context. -/
def jackProgress (stress : Bool) (p : JackProg) : Progress := if stress then .stress p else .destress p

/-- A used reply of a bound jack with progress `p` and calibration `cal`. -/
def JackReply (s : State) (n : Nat) (l : LineId) (y : Reply) (c : Nat) (x : Context) (r : Record) (cls : ClassEntry)
    (cal : List CalPoint) (stress : Bool) (p : JackProg) : Prop :=
  UsedReply s n l y c x r cls ∧ s.calAt n = some cal ∧ x.prog = jackProgress stress p

/-- The load of a reply passes both load checks (R110). -/
def LoadPasses (cls : ClassEntry) (cal : List CalPoint) (pressure : Nat) : Prop :=
  (loadOf cal pressure).1 ≤ overloadLimit cls ∧ (loadOf cal pressure).2 = false

/-- Step 6 of R109 is made in full. -/
def InFull (s : State) (x : Context) (p : JackProg) (stress fault : Bool) : Prop :=
  (heardContext s x).run = .running ∧ fault = false ∧ (stress = true → p.register = .closed)

/-- The target load of a phase (Table 6-3); the test load in the phases of the test (R114). -/
def phaseLoad (cls : ClassEntry) (r : Record) (p : JackProg) : Nat :=
  match p.phase with
  | .datum | .unload => datumTarget cls
  | .stage => stageTarget cls p.index
  | .lockoff => jackLockoff cls r
  | .step => ((p.steps[p.index - 1]?).map Prod.fst).getD 0
  | _ => testLoad cls

/-- The band hold phases (Table 6-3). -/
def BandPhase (p : JackProg) : Prop :=
  p.phase = .datum ∨ p.phase = .stage ∨ p.phase = .unload ∨ p.phase = .lockoff ∨ p.phase = .step

/-- The hold duration of a band hold phase (Table 6-3). -/
def holdDuration (cls : ClassEntry) (p : JackProg) : Nat := if p.phase = .step then cls.destHold else cls.stageHold

/-- A load within the band around a target (R96). -/
def Within (cls : ClassEntry) (target load : Nat) : Prop := load ≤ target + band cls ∧ target ≤ load + band cls

/-- The PRESSURE order to a target load (R94, R106). -/
def pressing (cal : List CalPoint) (target : Nat) : Order := .pressure (pressureOf cal target).1

/-- A phase back in APPROACH: its timer stopped, no advance pending (R112). -/
def approaching (p : JackProg) : JackProg :=
  { p with holding := false, timer := none, elapsed := 0, counting := false, pendingAdv := false }

/-- A phase as it is entered, with its index and its order. -/
def entering (p : JackProg) (phase : JackPhase) (index : Nat) (order : Order) : JackProg :=
  { approaching p with phase := phase, index := index, order := order }

/-- The progress after the restroke tests of a used reply (R98, R122). -/
def restroked (cls : ClassEntry) (r : Record) (cal : List CalPoint) (p : JackProg) (load stroke : Nat)
    (restroking : Bool) : JackProg :=
  let seen : Restroke :=
    if p.register = .opened ∧ (restroking = true ∨ stroke < p.openStroke) then .underWay else p.register
  if p.register = .closed then p
  else if restroking = false ∧ seen = .underWay ∧ (load - p.preLoad) + (p.preLoad - load) ≤ p.preLoad * 2 / 100 then
    { p with register := .closed, origin := stroke, order := pressing cal (phaseLoad cls r p) }
  else { p with register := seen }

/-- The extension of a used reply (R97). -/
def extensionAt (p : JackProg) (stroke : Nat) : Int :=
  if p.register = .closed then p.acc + ((stroke : Int) - (p.origin : Int)) else p.acc

/-- The progress after steps 3 and 4 of R109, with the reply kept as the last used one. -/
def replied (cls : ClassEntry) (r : Record) (cal : List CalPoint) (stress : Bool) (p : JackProg) (fault : Bool)
    (pressure load stroke : Nat) (restroking : Bool) : JackProg :=
  let p3 := { p with faultHold := fault }
  let p4 := if stress then restroked cls r cal p3 load stroke restroking else p3
  { p4 with last := some { pressure := pressure, load := load, stroke := stroke, ext := extensionAt p4 stroke } }

/-- The apparent free length that the end of an UNLOAD hold forms (R100, R117). -/
def unloadLength (cls : ClassEntry) (p : JackProg) (closing : LastReply) : Nat :=
  let res : Reading := { ext := closing.ext, load := closing.load }
  apparentLength cls (p.closing.getD res) res

/-- The progress after the completion of a band hold with a closing reply (Table 6-3, R113, R117, R118, R125). -/
def holdCompleted (cls : ClassEntry) (r : Record) (cal : List CalPoint) (p : JackProg) (closing : LastReply) : JackProg :=
  match p.phase with
  | .datum =>
    let q := { p with acc := 0, origin := closing.stroke, last := some { closing with ext := 0 } }
    if cls.stages = [] then entering q .test 0 (pressing cal (testLoad cls))
    else entering q .stage 1 (pressing cal (stageTarget cls 1))
  | .stage =>
    if p.index < cls.stages.length then entering p .stage (p.index + 1) (pressing cal (stageTarget cls (p.index + 1)))
    else entering p .test 0 (pressing cal (testLoad cls))
  | .unload =>
    entering { p with
      residual := some { ext := closing.ext, load := closing.load }
      freeLength := some (unloadLength cls p closing) } .lockoff 0 (pressing cal (jackLockoff cls r))
  | .lockoff => entering { p with beforeSeat := some (closing.load, closing.stroke) } .seating 0 .seat
  | .step =>
    if p.index < p.steps.length then
      entering p .step (p.index + 1) (.pressure (((p.steps[p.index]?).map Prod.snd).getD 0))
    else entering p .free 0 .free
  | _ => p

/-- The stress result of a verdict (R121, Table 6-4): `length` is the apparent free length where one has been formed, `seat`
the jack lock-off load, the draw-in and the residual where the wedges have seated. -/
def verdictResult (cls : ClassEntry) (p : JackProg) (v : Verdict) (length : Option Nat) (seat : Option (Nat × Nat × Nat)) :
    StressResult where
  datumTarget := datumTarget cls
  testTarget := testLoad cls
  residualTarget := residualTarget cls
  windows := if p.creepB = none then .a else .aAndB
  creepA := p.creepA.getD 0
  creepB := p.creepB
  freeLength := length
  jackLoad := seat.map (fun x => x.1)
  drawIn := seat.map (fun x => x.2.1)
  residual := seat.map (fun x => x.2.2)
  makeups := p.makeups
  restrokes := p.restrokes
  verdict := v

/-- The record after a failing verdict (R120). -/
def failedRecord (result : StressResult) (c : Cond) (r : Record) : Record :=
  { r with state := .failed, context := none, stress := some result, conds := addConds [c] r.conds }

/-- The release order of CREEP_FAIL and LENGTH_FAIL: back to the datum pressure, and IDLE once it is reached (R120). -/
def unloadParting (cls : ClassEntry) (cal : List CalPoint) : Parting where
  order := pressing cal (datumTarget cls)
  until? := some ((pressureOf cal (datumTarget cls - band cls)).1, (pressureOf cal (datumTarget cls + band cls)).1)

/-- What the completion of a band hold with a closing reply does: the verdict LENGTH_FAIL at the end of an UNLOAD hold whose
length is outside its window, else the next phase (R112, R117, R120); `told` says what the attention list is once conditions
have been raised on the record. -/
def HoldEnds (s t : State) (n c : Nat) (x : Context) (r : Record) (cls : ClassEntry) (cal : List CalPoint) (stress : Bool)
    (p : JackProg) (closing : LastReply) (told : List Cond → Prop) : Prop :=
  let fails : Prop := p.phase = .unload ∧ lengthPasses cls r (unloadLength cls p closing) = false
  (fails → Freed s t c x (unloadParting cls cal) ∧ SlotBecomes s t x.slot (updatedSlot s n
    (failedRecord (verdictResult cls p .lengthFail (some (unloadLength cls p closing)) none) .lengthFail)
    (s.slotAt x.slot)) ∧ told [.lengthFail]) ∧
  (¬ fails → GoesOn s t c x (jackProgress stress (holdCompleted cls r cal p closing)) ∧
    SlotBecomes s t x.slot (s.slotAt x.slot) ∧ told [])

/-- A test hold as it starts, or starts again, on a reading (R114, R115). -/
def testStarted (cls : ClassEntry) (p : JackProg) (now : Reading) : JackProg :=
  let first (t : Nat) : Option Reading := if t = 0 then some now else none
  { p with
    phase := .holdA, elapsed := 0, counting := true, pendingAdv := false, atA0 := first cls.tA0, atA1 := first cls.tA1
    atB0 := first cls.tB0, atB1 := first cls.tB1, creepA := none, creepB := none, closing := none }

/-- A used reply is late for a time of the test hold (R115). -/
def TestLate (cls : ClassEntry) (p : JackProg) : Prop :=
  (p.atA0 = none ∧ cls.tA0 + 20 < p.elapsed) ∨ (p.atA1 = none ∧ cls.tA1 + 20 < p.elapsed) ∨
    (p.atB0 = none ∧ cls.tB0 + 20 < p.elapsed) ∨ (p.atB1 = none ∧ cls.tB1 + 20 < p.elapsed)

/-- The reading at a time: the one taken, or the first reply at or after the time (R115). -/
def readAt (t elapsed : Nat) (old : Option Reading) (now : Reading) : Option Reading :=
  old.or (if t ≤ elapsed then some now else none)

/-- The test hold after a used reply that is not late: its readings, creep A at the tA1 reading, and, in HOLD_B, creep B at
the tB1 reading (R99, R115, R116). -/
def testJudged (cls : ClassEntry) (p : JackProg) (now : Reading) : JackProg :=
  let q := { p with
    atA0 := readAt cls.tA0 p.elapsed p.atA0 now, atA1 := readAt cls.tA1 p.elapsed p.atA1 now
    atB0 := readAt cls.tB0 p.elapsed p.atB0 now, atB1 := readAt cls.tB1 p.elapsed p.atB1 now }
  let a := match q.creepA, q.atA0, q.atA1 with
    | none, some r0, some r1 =>
      if r1.ext - r0.ext ≤ (cls.limitA : Int) then { q with creepA := some (r1.ext - r0.ext), closing := some r1 }
      else { q with creepA := some (r1.ext - r0.ext), phase := .holdB }
    | _, _, _ => q
  match a.phase, a.creepB, a.atB0, a.atB1 with
  | .holdB, none, some r0, some r1 =>
    if r1.ext - r0.ext ≤ (cls.limitB : Int) then { a with creepB := some (r1.ext - r0.ext), closing := some r1 }
    else { a with creepB := some (r1.ext - r0.ext) }
  | _, _, _, _ => a

/-- The order of a running test hold follows the load (R114). -/
def loadFollowed (cls : ClassEntry) (cal : List CalPoint) (p : JackProg) (load : Nat) : JackProg :=
  if load + band cls < testLoad cls then
    if p.order = .hold then { p with order := pressing cal (testLoad cls), makeups := min 255 (p.makeups + 1) } else p
  else if testLoad cls + band cls < load then { p with order := .hold }
  else if p.order ≠ .hold ∧ testLoad cls ≤ load then { p with order := .hold }
  else p

/-! ## Arithmetic (section 3.3, R93 to R104) -/

/-- `m` is the quotient of `a` by `b` rounded to the nearest whole number, halves up (section 3.3). -/
def Rounds (a b m : Nat) : Prop := 2 * m * b ≤ 2 * a + b ∧ 2 * a + b < 2 * (m + 1) * b

/-- A calibration table as R89 allows it: 2 to 8 points in range, pressures and loads both rising. -/
def CalSound (cal : List CalPoint) : Prop :=
  2 ≤ cal.length ∧ cal.length ≤ 8 ∧
    (∀ p ∈ cal, 1 ≤ p.pressure ∧ p.pressure ≤ 100000 ∧ 1 ≤ p.load ∧ p.load ≤ 30000) ∧
    cal.Pairwise (fun a b => a.pressure < b.pressure) ∧ cal.Pairwise (fun a b => a.load < b.load)

/-- Two neighbouring points of a table. -/
def Segment (cal : List CalPoint) (a b : CalPoint) : Prop := ∃ before after, cal = before ++ a :: b :: after

/-- The ranges of Table 2-1 that the target loads rest on, and the checks of R29 on them. -/
def TargetsInRange (e : ClassEntry) : Prop :=
  100 ≤ e.dwl ∧ e.dwl ≤ 25000 ∧ 5 ≤ e.datum ∧ e.datum ≤ 20 ∧ 100 ≤ e.test ∧ e.test ≤ 175 ∧ 80 ≤ e.lockoff ∧
    e.lockoff ≤ e.test ∧ (∀ k ∈ e.stages, e.datum < k ∧ k < e.test) ∧ e.stages.Pairwise (fun a b => a < b) ∧
    testLoad e ≤ 30000

/-! ## Classes (R28, R29) -/

/-- A value within its range of Table 2-1. -/
def Ranged (lo hi n : Nat) : Prop := lo ≤ n ∧ n ≤ hi

/-- A value that is left out, or within its range. -/
def RangedIf (lo hi : Nat) (o : Option Nat) : Prop := ∀ n, o = some n → Ranged lo hi n

/-- The ranges of Table 2-1 from DWL to creep limit B. -/
def PartOneInRange (f : ClassPart1) : Prop :=
  Ranged 100 25000 f.dwl ∧ Ranged 5 20 f.datum ∧
    (∀ l, f.stages = some l → l.length ≤ 6 ∧ ∀ k ∈ l, Ranged 6 174 k) ∧ Ranged 100 175 f.test ∧ Ranged 80 130 f.lockoff ∧
    Ranged 10 100 f.lockWindow ∧ Ranged 5 50 f.tolerance ∧ Ranged 30 600 f.stageHold ∧ RangedIf 0 3599 f.tA0 ∧
    RangedIf 1 3600 f.tA1 ∧ RangedIf 10 1000 f.limitA ∧ RangedIf 0 7199 f.tB0 ∧ RangedIf 1 7200 f.tB1 ∧
    RangedIf 10 2000 f.limitB

/-- The ranges of Table 2-1 from strand count to destress step hold. -/
def PartTwoInRange (f : ClassPart2) : Prop :=
  Ranged 1 31 f.strands ∧ Ranged 50 300 f.area ∧ Ranged 150000 210000 f.modulus ∧ Ranged 3000 60000 f.freeLen ∧
    Ranged 3000 20000 f.bondLen ∧ Ranged 1000 3000 f.jacking ∧ RangedIf 80 100 f.lower ∧ RangedIf 0 100 f.upper ∧
    Ranged 0 1500 f.drawIn ∧ Ranged 0 1000 f.insTol ∧ Ranged 10 5000 f.maxPull ∧ Ranged 1 10000000 f.theoVol ∧
    Ranged 100 500 f.volCap ∧ Ranged 100 20000 f.refPress ∧ Ranged 10 900 f.refTime ∧ Ranged 101 30000 f.burst ∧
    Ranged 3600 2592000 f.cure ∧ Ranged 10 50 f.destStep ∧ Ranged 30 600 f.destHold

/-- The checks of R29 on the entry that two parts form. -/
def EntryConsistent (e : ClassEntry) : Prop :=
  (∀ k ∈ e.stages, e.datum < k ∧ k < e.test) ∧ e.stages.Pairwise (fun a b => a < b) ∧ e.lockoff ≤ e.test ∧
    testLoad e ≤ 30000 ∧ e.tA0 < e.tA1 ∧ e.tB0 < e.tB1 ∧ e.tA0 ≤ e.tB0 ∧ e.tA1 < e.tB1 ∧ e.refPress < e.burst

/-! ## Answers of the reads (R31, R153) -/

/-- The fields of Table 2-1 that part 1 of CLASS_READ answers, one item each (Table 11-8). -/
def partOneItems (e : ClassEntry) : List (List Field) :=
  [ [.u16 e.dwl], [.u8 e.datum], counted (e.stages.map (fun k => [.u8 k])), [.u8 e.test], [.u8 e.lockoff],
    [.u16 e.lockWindow], [.u16 e.tolerance], [.u16 e.stageHold], [.u16 e.tA0], [.u16 e.tA1], [.u16 e.limitA],
    [.u16 e.tB0], [.u16 e.tB1], [.u16 e.limitB] ]

/-- The fields of Table 2-1 that part 2 of CLASS_READ answers, one item each (Table 11-8). -/
def partTwoItems (e : ClassEntry) : List (List Field) :=
  [ [.u8 e.strands], [.u16 e.area], [.u32 e.modulus], [.u16 e.freeLen], [.u16 e.bondLen], [.u16 e.jacking], [.u8 e.lower],
    [.u8 e.upper], [.u16 e.drawIn], [.u16 e.insTol], [.u16 e.maxPull], [.u32 e.theoVol], [.u16 e.volCap],
    [.u16 e.refPress], [.u16 e.refTime], [.u16 e.burst], [.u32 e.cure], [.u8 e.destStep], [.u16 e.destHold] ]

/-- The derived loads that part 3 of CLASS_READ answers (R31). -/
def derivedItems (e : ClassEntry) : List (List Field) :=
  [ [.u16 (datumTarget e)], counted ((List.range e.stages.length).map (fun k => [.u16 (stageTarget e (k + 1))])),
    [.u16 (testLoad e)], [.u16 (residualTarget e)], [.u16 (band e)], [.u16 (overloadLimit e)] ]

/-- What CLASS_READ answers of a class in one part (R31): `inUse` and `count` are the in-use flag and the record count; an
UNSET class has none of the part's items. -/
def classAnswer (e : Option ClassEntry) (inUse : Bool) (count part : Nat) : List Field :=
  let items (n : Nat) (f : ClassEntry → List (List Field)) : List Field :=
    masked ((e.map (fun x => (f x).map some)).getD (List.replicate n none))
  match part with
  | 1 => [.u8 (if e.isSome then 2 else 1), flag8 inUse, .u16 count] ++ items 14 partOneItems
  | 2 => items 19 partTwoItems
  | _ => items 6 derivedItems

/-- The in-use flag and the record count of a class (R31). -/
def ClassFigures (s : State) (cls : Nat) (inUse : Bool) (count : Nat) : Prop :=
  (inUse = true ↔ ∃ n r, s.recAt n = some r ∧ r.cls = cls ∧ r.state.isWork = true) ∧
    count = ((List.range 512).filter (fun n => (s.recAt n).any (fun r => decide (r.cls = cls)))).length

/-- What CAL_READ answers of a station in part 1, or of its probes in part 2 (R92). -/
def calAnswer (s : State) (n part : Nat) (pressure load : Option Nat) : List Field :=
  match part with
  | 1 => [enum8 StationKind.all (s.stationAt n).kind, flag8 (s.stationAt n).ctx.isSome,
      .u8 (if (s.calAt n).isSome then 2 else 1)] ++
      masked [(s.calAt n).map (fun ps => counted (ps.map (fun p => [.u32 p.pressure, .u16 p.load])))]
  | _ => masked [
      (s.calAt n).bind (fun ps => pressure.map (fun p => [.u16 (loadOf ps p).1, flag8 (loadOf ps p).2])),
      (s.calAt n).bind (fun ps => load.map (fun l => [.u32 (pressureOf ps l).1, flag8 (pressureOf ps l).2])) ]

/-- Whether input `i` is asserted (R145): enabled, its accepted level the one it asserts at. -/
def readsAsserted (s : State) (i : Fin 4) : Bool :=
  s.tbc.site.inputs[i].enabled && decide (s.ifu.inputs[i].accepted = s.tbc.site.inputs[i].asserts)

/-- The readings of the four inputs, one bit each, input 0 in bit 0, set while the input is asserted (R148). -/
def inputReadings (s : State) : Field :=
  .u8 ((readsAsserted s 0).toNat + 2 * (readsAsserted s 1).toNat + 4 * (readsAsserted s 2).toNat +
    8 * (readsAsserted s 3).toNat)

/-- The three signals of R145, as they stand: stop demand, permit present, key combination. -/
def SignalsFollow (s : State) : Prop :=
  (stopDemand s.tbc.site s.ifu = true ↔ ∃ i : Fin 4, s.tbc.site.inputs[i].function = .stop ∧ readsAsserted s i = true) ∧
    (permitPresent s.tbc.site s.ifu = true ↔ ∃ i : Fin 4, s.tbc.site.inputs[i].function = .permit ∧ readsAsserted s i = true) ∧
    (keyCombination s.tbc.site s.ifu = true ↔
      (∃ i : Fin 4, s.tbc.site.inputs[i].enabled = true ∧ s.tbc.site.inputs[i].function = .restartKey) ∧
        ∀ i : Fin 4, s.tbc.site.inputs[i].enabled = true → s.tbc.site.inputs[i].function = .restartKey → readsAsserted s i = true)

/-- What INPUT_READ answers of one input (R153): its settings, the pin, the accepted level, the filter state, and whether
it is asserted. -/
def inputAnswer (x : InputSettings) (y : Input) : List Field :=
  [ .u8 (if x.enabled then 1 else 2), enum8 Contact.all x.asserts, .u8 x.filter, enum8 InputFunction.all x.function,
    enum8 Contact.all y.pin, enum8 Contact.all y.accepted, .u8 (if y.pendingChange then 2 else 1),
    flag8 (x.enabled && decide (y.accepted = x.asserts)) ]

/-- What INPUT_READ answers (R153): the four inputs, the three signals, the site state and the key state, and, while they
stand, the stop origin and the key timer. -/
def inputsAnswer (s : State) : List Field :=
  ([0, 1, 2, 3] : List (Fin 4)).flatMap (fun i => inputAnswer s.tbc.site.inputs[i] s.ifu.inputs[i]) ++
    [ .u8 (flags [stopDemand s.tbc.site s.ifu, permitPresent s.tbc.site s.ifu, keyCombination s.tbc.site s.ifu]),
      .u8 (if s.ifu.stop = none then 1 else 2),
      .u8 (match s.ifu.key with
        | .idle => 1
        | .timing _ => 2
        | .spent => 3) ] ++
    masked [ s.ifu.stop.map (fun o => [.u8 o.input, .u32 o.time]),
      match s.ifu.key with
      | .timing ms => some [.u16 ms]
      | _ => none ]

/-! ## Views (R12, R13, Table 1-6) -/

/-- The body of a view of the record `r` of slot `n`, item by item in the order of Table 1-6; `o` is the order in the next
CALL to the station of its context. -/
def viewParts (s : State) (n : Nat) (r : Record) (o : Order) (view : Nat) : List (Option (List Field)) :=
  let cls := s.classOf r
  let bound := r.context.bind s.ctxAt
  let u8 (v : Option Nat) : Option (List Field) := v.map (fun k => [.u8 k])
  let u16 (v : Option Nat) : Option (List Field) := v.map (fun k => [.u16 k])
  let u32 (v : Option Nat) : Option (List Field) := v.map (fun k => [.u32 k])
  match view with
  | 1 =>
    [ some [.u8 r.cls], some [.u32 r.stamp.time, .u8 r.stamp.station], u16 r.freeOv, u16 r.bondOv,
      u16 (r.freeOv.or (cls.map ClassEntry.freeLen)), u16 (r.bondOv.or (cls.map ClassEntry.bondLen)),
      u32 (cls.map (fun e => r.freeOv.getD e.freeLen + r.bondOv.getD e.bondLen + e.jacking)), u8 r.context,
      u8 (r.heldKind.map (codeIn CtxKind.all)), u8 (r.heldReason.map (codeIn HeldReason.all)), some [.u8 r.retests],
      u16 r.replaces, u16 r.replacedBy, u8 (r.retireReason.map (codeIn RetireReason.all)),
      some [.u8 ((if s.liveAt r.row r.bay = some n then 1 else 0) +
        2 * ((match s.isi.writer with
          | .writing i _ _ => if i = .slot n then 2 else 0
          | _ => 0) + if .slot n ∈ s.isi.queue then 1 else 0))] ]
  | 2 =>
    let prog := bound.bind (fun x => match x.prog with
      | .insert p => some p
      | _ => none)
    [u32 r.insertion, u16 (cls.map ClassEntry.insTol), u32 (prog.map payout), u8 (prog.map (fun _ => o.code))]
  | 3 =>
    let prog := bound.bind (fun x => match x.prog with
      | .grout p => some p
      | _ => none)
    [ r.grout.map GroutResult.fields, u32 r.cureEnd, u32 (cls.map ClassEntry.theoVol),
      u32 (cls.map (fun e => e.theoVol * e.volCap / 100)), u32 (prog.map volume), u32 (prog.map GroutProg.peak),
      u32 (prog.map GroutProg.refTimer) ]
  | 4 =>
    let prog := bound.bind (fun x => match x.prog with
      | .stress p => some (x, p)
      | .destress p => some (x, p)
      | _ => none)
    [ r.stress.map StressResult.fields, some [.u8 r.retests], u16 r.lockoffLoad, u16 r.liftoffLoad,
      u8 (prog.map (fun y => codeIn JackPhase.all y.2.phase)), u8 (prog.map (fun y => y.2.index)),
      u8 (prog.map (fun y => codeIn RunState.all y.1.run)),
      prog.map (fun _ => match o with
        | .pressure kpa => [.u8 6, .u32 kpa]
        | other => [.u8 other.code]) ]
  | 5 =>
    [ u16 r.lockoffLoad, r.binding.map (fun b => [.u8 b.station, .u8 b.channel]),
      r.monitored.map (fun m => [.u16 m.load, .u32 m.time]),
      u16 (r.lockoffLoad.map (fun load => load * s.tbc.site.drift / 1000)) ]
  | _ =>
    [ some (counted (r.conds.map (fun c => [enum8 Cond.all c, .u8 (levelOf s.tbc.site c % 4 +
        if s.atu.entries.any (fun e => e.subject = .record n ∧ e.cond = c) then 4 else 0)]))) ]

/-! ## Restored records (R178 to R180) -/

/-- Of two slots whose blocks give the same key, slot `n` is kept before slot `m` (R178). -/
def KeptBefore (taken : Nat → Taken) (n m : Nat) : Prop :=
  match taken n, taken m with
  | .sound _ r _, .sound _ q _ => q.stamp.time < r.stamp.time ∨ q.stamp.time = r.stamp.time ∧ n < m
  | .sound _ _ _, .suspect _ _ _ => True
  | .suspect _ _ _, .suspect _ _ _ => n < m
  | _, _ => False

/-- A byte of the header that has no meaning where Table 11-10 puts it: an enable, polarity or function byte of an input, the
status byte of a class or of a calibration table, or the kind byte of a station. -/
def HeaderByteWrong (s : State) : Prop :=
  let wrong (a top : Nat) : Prop := (s.isi.image.read a).toNat = 0 ∨ top < (s.isi.image.read a).toNat
  (∃ n, n < 4 ∧ (wrong (38 + 4 * n) 2 ∨ wrong (39 + 4 * n) 2 ∨ wrong (41 + 4 * n) 4)) ∨
    (∃ n, n < 16 ∧ wrong (256 + 128 * n) 2) ∨ (∃ n, n < 15 ∧ wrong (2304 + 64 * n) 2) ∨
    ∃ n, n < 16 ∧ wrong (3328 + 5 * n) 6

/-- The record of slot `n` is kept: no other slot of its key goes before it (R178). -/
def KeepsItsKey (taken : Nat → Taken) (n : Nat) : Prop :=
  (taken n).key ≠ none ∧ ∀ m, m < 512 → m ≠ n → (taken m).key = (taken n).key → KeptBefore taken n m

/-- The records that are kept, before any is changed (R178). -/
def KeptRecords (taken : Nat → Taken) (time : Nat) (kept : Nat → Option Record) : Prop :=
  (∀ n, 512 ≤ n ∨ ¬ KeepsItsKey taken n → kept n = none) ∧
    (∀ n rev r live, n < 512 → KeepsItsKey taken n → taken n = .sound rev r live → kept n = some r) ∧
    (∀ n row bay gen, n < 512 → KeepsItsKey taken n → taken n = .suspect row bay gen →
      kept n = some (suspectRecord row bay gen time))

/-- A link that a restore leaves standing (R179): it names a kept record of the same position that is not SUSPECT. -/
def LinkStays (kept : Nat → Option Record) (r : Record) (m : Nat) : Prop :=
  ∃ q, kept m = some q ∧ q.row = r.row ∧ q.bay = r.bay ∧ q.state ≠ .suspect

/-- What a restore makes of the kept record `r` of slot `n` (R179). -/
def Mended (s t : State) (kept : Nat → Option Record) (n : Nat) (r q : Record) : Prop :=
  q = { (match r.state.workKind with
      | some k => { r with state := .held, heldKind := some k, heldReason := some .power, context := none }
      | none => r) with
    conds := r.conds.filter (fun c => c ≠ .imageWrite), replaces := q.replaces, replacedBy := q.replacedBy
    binding := q.binding } ∧
    (∀ m, q.replaces = some m ↔ r.replaces = some m ∧ LinkStays kept r m) ∧
    (∀ m, q.replacedBy = some m ↔ r.replacedBy = some m ∧ LinkStays kept r m) ∧
    ∀ b, q.binding = some b ↔ r.binding = some b ∧ r.state = .locked ∧ (s.stationAt b.station).kind = .monitor ∧
      b.channel < (s.stationAt b.station).param.getD 0 ∧ ∀ m v, m < n → t.recAt m = some v → v.binding ≠ some b

/-- A record that may take the map entry of a position (R179). -/
def MapCandidate (t : State) (row bay n : Nat) (q : Record) : Prop :=
  n < 512 ∧ t.recAt n = some q ∧ q.row = row ∧ q.bay = bay ∧ q.state ≠ .retired

/-- A block that was sound and held the live flag (R172). -/
def HeldLive (taken : Nat → Taken) (n : Nat) : Prop := ∃ rev r, taken n = .sound rev r true

/-- Slot `n` takes the map entry of a position (R179): the highest generation among the records of sound blocks with the live
flag, or, where there is none, the SUSPECT record of the lowest. -/
def TakesTheEntry (t : State) (taken : Nat → Taken) (row bay n : Nat) : Prop :=
  ∃ q, MapCandidate t row bay n q ∧
    (HeldLive taken n ∧ (∀ m v, MapCandidate t row bay m v → HeldLive taken m → v.gen ≤ q.gen) ∨
      (∀ m v, MapCandidate t row bay m v → ¬ HeldLive taken m) ∧ q.state = .suspect ∧
        ∀ m v, MapCandidate t row bay m v → v.state = .suspect → q.gen ≤ v.gen)

/-- The value of R179: the deepest row such that every row down to it is relieved, or has no live record that is neither LOCKED
nor SUSPECT. -/
def RestoredValue (t : State) (q : Nat) : Prop :=
  let holds (row : Nat) : Prop := t.isRelieved row = true ∨ ∀ bay n r, 1 ≤ bay → bay ≤ 400 → t.liveAt row bay = some n →
    t.recAt n = some r → r.state = .locked ∨ r.state = .suspect
  q ≤ 12 ∧ (∀ row, 1 ≤ row → row ≤ q → holds row) ∧ (q < 12 → ¬ holds (q + 1))

/-- The marks that a restore enters, in their order: the site's, then each record's in ascending slot order (R180). -/
def restoredMarks (t : State) : List (Subject × Cond) :=
  (Subject.site :: (List.range 512).map Subject.record).flatMap (fun subj =>
    (Cond.all.filter (fun c => t.marked subj c)).map (fun c => (subj, c)))

/-! ## Blocks -/

/-- The widths of a record's fields in its block (Table 11-9), where the ranges of Table 1-1 do not keep them. -/
def Record.Fits (r : Record) : Prop :=
  let w : Nat := 4294967296
  let i (z : Int) : Prop := -2147483648 ≤ z ∧ z < 2147483648
  r.stamp.time < w ∧ (∀ n, r.insertion = some n → n < w) ∧ (∀ n, r.cureEnd = some n → n < w) ∧
    (∀ g, r.grout = some g → g.volume < w ∧ ∀ n, g.endTime = some n → n < w) ∧
    (∀ m, r.monitored = some m → m.time < w) ∧
    (∀ x, r.stress = some x → i x.creepA ∧ (∀ z, x.creepB = some z → i z) ∧ (∀ n, x.freeLength = some n → n < w) ∧
      x.makeups < 256)

/-- The widths of a class entry's fields in the header (Table 11-10), a list of stages of at most 8 among them. -/
def ClassEntry.Fits (e : ClassEntry) : Prop :=
  (∀ n ∈ [e.datum, e.test, e.lockoff, e.strands, e.lower, e.upper, e.destStep] ++ e.stages, n < 256) ∧
    (∀ n ∈ [e.dwl, e.lockWindow, e.tolerance, e.stageHold, e.tA0, e.tA1, e.limitA, e.tB0, e.tB1, e.limitB, e.area, e.freeLen,
      e.bondLen, e.jacking, e.drawIn, e.insTol, e.maxPull, e.volCap, e.refPress, e.refTime, e.burst, e.destHold], n < 65536) ∧
    (∀ n ∈ [e.modulus, e.theoVol, e.cure], n < 4294967296) ∧ e.stages.length ≤ 8

/-- What the header of a state holds keeps its widths (Table 11-10); a station has a kind parameter exactly where its kind has
one (R161). -/
def HeaderFits (s : State) : Prop :=
  let site := s.tbc.site
  s.wck.time < 4294967296 ∧
    (∀ n ∈ [site.span, site.digRow, site.alarm, site.silence] ++ site.levels.toList, n < 256) ∧
    (∀ n ∈ [site.drift, site.scanMin, site.suspend], n < 65536) ∧ (∀ i : Fin 4, site.inputs[i].filter < 256) ∧
    (∀ n e, s.classAt n = some e → e.Fits) ∧
    (∀ n ps, s.calAt n = some ps → ps.length ≤ 8 ∧ ∀ p ∈ ps, p.pressure < 4294967296 ∧ p.load < 65536) ∧
    ∀ n, n < 16 → ∀ x, x = s.stationAt n → x.retry < 256 ∧ (∀ p, x.param = some p → p < 65536) ∧
      (x.param.isSome ↔ x.kind = .winch ∨ x.kind = .grout ∨ x.kind = .monitor)

/-- A header gives what a state put into it (R172, R177): works time, site settings, classes, calibrations, and each station's
enrolment, all else of a station as after a power-on. -/
def HeaderGives (s : State) (hd : Header) : Prop :=
  hd.time = s.wck.time ∧ hd.site = s.tbc.site ∧ (∀ n, n < 16 → hd.classes.get? n = s.classAt n) ∧
    (∀ n, 1 ≤ n → n ≤ 15 → hd.cals.get? n = s.calAt n) ∧
    ∀ n : Fin 16, ∀ x, x = s.stationAt n → hd.stations[n] = Station.powered x.kind x.retry x.inhibits x.param

/-- Where the bytes of a header stand (Table 11-10): the works time at the head of block 0, a status and then the fields of each
class in 128 bytes from block 1 and of each calibration table in 64 from block 9, five bytes of enrolment for each station from
block 13, zeros in the last quarter of block 12 and behind, and the check of the 4,094 bytes at the end of block 15. -/
def HeaderLaidOut (s : State) (bytes : List Byte) : Prop :=
  bytes.length = 4096 ∧ bytes.drop 4094 = crcBytes (bytes.take 4094) ∧ bytes.take 4 = fieldBytes [.u32 s.wck.time] ∧
    (∀ n, n < 16 → bytes[256 + 128 * n]? = some (if (s.classAt n).isSome then 2 else 1)) ∧
    (∀ n, n < 15 → bytes[2304 + 64 * n]? = some (if (s.calAt (n + 1)).isSome then 2 else 1)) ∧
    (∀ n, n < 16 → (bytes.drop (3328 + 5 * n)).take 5 = fieldBytes [enum8 StationKind.all (s.stationAt n).kind,
      .u8 (s.stationAt n).retry, .u8 (flags [(s.stationAt n).inhibits.a, (s.stationAt n).inhibits.b]),
      .u16 ((s.stationAt n).param.getD 0)]) ∧
    ∀ k, (3264 ≤ k ∧ k < 3328 ∨ 3408 ≤ k ∧ k < 4094) → bytes[k]? = some 0

end Sys2Proof.Machine
end

