-- ==== Sys2Proof/Certificates/Slice0/Obligations.lean ====
section
/-! DEFINITION. The statements for the provers, each from the numbered rules of the spec. Where one
rests on a choice of the model, its docstring names the entry of the assumption log. Of every request: it is Served where its
ASK is taken, in its FETCH window or, by the model's choice, while no exchange is in progress (assumption log 6). -/

section

open Sys2Proof Sys2Proof.Machine

/-! ## Steps and reset -/

/-- A step takes the command at the front of the queue and is that command's effect on the state with the rest of the
queue. With no command waiting, one real millisecond passes: the key timer of R150 counts it, up to 3,000, and everything
else stays, which is the model's choice (assumption log 9). -/
def Obligations.StepRunsTheFrontCommand : Prop :=
  (∀ (c : Instr) (rest : List Instr) (s : State), s.pending = c :: rest → step s = exec c { s with pending := rest }) ∧
  ∀ s : State, s.pending = [] → step s = .next { s with ifu := { s.ifu with key := match s.ifu.key with
    | .timing ms => .timing (min 3000 (ms + 1))
    | key => key } }

/-- What a FRESH power-on leaves (R1, R9, R27, R33, R46, R63, R89, R128, R135, R155, R161, R173), the start that reset stands
for by the model's choice (assumption log 1): every slot FREE at revision 65535; an empty map; every class, calibration
table and context empty; the site settings at their defaults, the levels of the twenty conditions in ascending priority and
the four inputs' settings among them (Tables 2-2, 7-1, 8-1); works time 0, running at scale 1; both lines ACTIVE; station 0
enrolled as SUPERVISOR and SEEKING, with its inhibits clear (assumption log 4), the others not enrolled; an empty attention
list; the header and then every slot waiting for the writer. -/
def Obligations.ResetIsAFreshPart : Prop :=
  (∀ n, State.reset.slotAt n = { rev := 65535, rec? := none }) ∧
  (∀ row bay, State.reset.liveAt row bay = none) ∧
  (∀ c, State.reset.classAt c = none) ∧
  (∀ c, State.reset.ctxAt c = none) ∧
  (∀ n, State.reset.calAt n = none) ∧
  (∀ key, State.reset.channels.get? key = none) ∧
  (State.reset.tbc.site.span = 2 ∧ State.reset.tbc.site.digRow = 0 ∧ (∀ row, State.reset.isRelieved row = false) ∧
    State.reset.tbc.site.alarm = 3 ∧ State.reset.tbc.site.drift = 100 ∧ State.reset.tbc.site.scanMin = 100 ∧
    State.reset.tbc.site.silence = 5 ∧ State.reset.tbc.site.suspend = 120 ∧
    Cond.all.map (levelOf State.reset.tbc.site) = [3, 3, 3, 2, 2, 2, 2, 2, 2, 1, 1, 1, 1, 1, 1, 1, 1, 1, 1, 1] ∧
    State.reset.tbc.site.inputs[(0 : Fin 4)] = { enabled := true, asserts := .opened, filter := 2, function := .stop } ∧
    ∀ i : Fin 4, i ≠ 0 →
      State.reset.tbc.site.inputs[i] = { enabled := false, asserts := .opened, filter := 0, function := .none }) ∧
  State.reset.wck = { time := 0, clock := .running, scale := 1 } ∧
  (∀ l, (State.reset.lineAt l).state = .active ∧ (State.reset.lineAt l).timeout = 3 ∧ (State.reset.lineAt l).gap = 1 ∧
    (State.reset.lineAt l).noise = 0 ∧ (State.reset.lineAt l).test = none) ∧
  ((State.reset.stationAt 0).kind = .supervisor ∧ (State.reset.stationAt 0).state = .seeking ∧
    (State.reset.stationAt 0).retry = 1 ∧ (State.reset.stationAt 0).inhibits = { a := false, b := false }) ∧
  (∀ n, 1 ≤ n → n ≤ 15 → (State.reset.stationAt n).kind = .none ∧ (State.reset.stationAt n).state = .unused) ∧
  State.reset.atu = { entries := [], overflow := 0, alm := false } ∧
  State.reset.ifu.stop = none ∧
  State.reset.isi.writer = .idle ∧
  State.reset.isi.queue = .header :: (List.range 512).map Item.slot

/-! ## Requests in general -/

/-- A request whose ASK is taken is answered once, on the line of its ASK, and a refused one changes nothing but the works
bus that sends the ANSWER (R7, R168). An ASK is taken in its FETCH window; while no exchange is in progress it is taken
too, on a line that carries calls to its sender, which is the model's choice (assumption log 6). An ASK that is not taken is,
in an open window on its line, the frame that fails with CHECK (R160), and anywhere else changes nothing at all, which
is the model's choice too (assumption log 7). -/
def Obligations.RefusedRequestChangesNothing : Prop :=
  ∀ (c : Instr) (h : Ask) (q : Req) (s : State), ask? c = some (h, q) →
    ∃ t, exec c s = .next t ∧ (s.takesAsk h = false → AskMissed s t h) ∧
      (s.takesAsk h = true → ∃ a after, a.req = q.code ∧ t.bmu.exchange = .answer h a after ∧
        t.bmu.tx = [.frame h.line (.answer h.station a)] ∧
        (a.result ≠ .done → t = { s with bmu := s.bmu.answering h a }))

/-- The general refusal order (R169) and the comparison of revisions (R7). Station 0 may send every request; a winch, a
pump and a monitor FIND, BEGIN and END, a jack RESTROKE as well, no other station any; a request without authority is
refused NOT_PERMITTED. For the requests that carry a slot and a revision, alone (BORED, the five CLOSE, UNBIND) or with other
fields (AMEND, RETIRE, REPLACE, CERTIFY, START, RESUME, BIND): a slot above 511 or another field out of its range is
BAD_VALUE, then a FREE slot NO_RECORD, then another revision than the record's STALE, answered with the present revision and
state. PURGE and ABORT carry a slot alone: above 511 is BAD_VALUE, a FREE one NO_RECORD. An ASK that is no
request of the table is answered with its code: an unknown code, or bytes that do not fit, BAD_VALUE whoever sends it, a
field that selects no form BAD_VALUE after authority. The ANSWER carries the readings of the inputs to a RELEASE, one byte with
a bit for each by the model's layout (assumption log 13), and echoes
the part number that was brought, to a request in parts. Which step of R169 meets a field that selects no form, and what
the ANSWER of such an ASK carries, are the model's choices (assumption log 14, 32). -/
def Obligations.RequestsFollowTheGeneralRefusalOrder : Prop :=
  (∀ (s : State) (q : Req), s.permits 0 q = true) ∧
  (∀ (s : State) (n : Nat) (q : Req), n ≠ 0 →
    (s.permits n q = true ↔
      ((s.stationAt n).kind = .winch ∨ (s.stationAt n).kind = .grout ∨ (s.stationAt n).kind = .monitor ∨
        (s.stationAt n).kind = .jack) ∧ (q = .find ∨ q = .begin ∨ q = .endWork) ∨
      (s.stationAt n).kind = .jack ∧ q = .restroke)) ∧
  (∀ (c : Instr) (h : Ask) (q : Req) (s : State), ask? c = some (h, q) → s.takesAsk h = true →
    s.permits h.station q = false → ∃ body, exec c s = .next (Answered s h q .notPermitted body)) ∧
  (∀ (c : Instr) (h : Ask) (q : Req) (slot rev : Nat) (s : State), ask? c = some (h, q) →
    slotRevAndFields? c = some (slot, rev) → Served s h q →
    (512 ≤ slot ∨ ¬ FieldsInRange c → exec c s = .next (Answered s h q .badValue [])) ∧
    (slot < 512 → FieldsInRange c → s.recAt slot = none → exec c s = .next (Answered s h q .noRecord [])) ∧
    (∀ r, slot < 512 → FieldsInRange c → s.recAt slot = some r → rev ≠ s.revAt slot →
      exec c s = .next (Answered s h q .stale [.u16 (s.revAt slot), enum8 RecState.all r.state]))) ∧
  (∀ (c : Instr) (h : Ask) (q : Req) (slot : Nat) (s : State), ask? c = some (h, q) → slotAlone? c = some slot →
    Served s h q →
    (512 ≤ slot → exec c s = .next (Answered s h q .badValue [])) ∧
    (slot < 512 → s.recAt slot = none → exec c s = .next (Answered s h q .noRecord []))) ∧
  ∀ (h : Ask) (code : Nat) (d : AskDefect) (s : State), s.takesAsk h = true →
    ∀ (body : List Field) (answered : Result → State),
    body = (if code = 31 then [inputReadings s]
      else if code = 17 ∨ code = 18 ∨ code = 25 then (match d with
        | .unknownCode => []
        | .misfit part | .selector part => part.toList.map Field.u8)
      else []) →
    (∀ res, answered res = { s with bmu := s.bmu.answering h { req := code, result := res, body := body } }) →
    ((∀ part, d ≠ .selector part) → exec (.unknownRequest h code d) s = .next (answered .badValue)) ∧
    ∀ part q, d = .selector part → code = q.code →
      exec (.unknownRequest h code d) s =
        .next (answered (if s.permits h.station q = true then .badValue else .notPermitted))

/-! ## Records (chapter 1) -/

/-- FIND (R11, R12, R13): a taken one is answered DONE with the head and the items of its view, those that are absent behind
the mask, for a slot or for the live record of a position; a FREE slot, an empty map entry, or the MONITOR view of a record
that is not LOCKED, DESTRESSING or RETIRED answers NO_RECORD; a slot, a position or a view out of range BAD_VALUE. No FIND
changes anything but the works bus. The mask over the items of a view, with the live flag and the image status as one of them,
the class cap as the volume of R78 and the present order in the form it has in a CALL, is the model's layout (assumption log
13), and so is the one numbering of the phases through STRESS and DESTRESS (assumption log 15); that the present winch order is that of the next CALL, as R106 says of the
jack's, is the model's reading (assumption log 24). -/
def Obligations.FindAnswersTheNamedRecord : Prop :=
  (∀ (h : Ask) (target : Target) (view : Nat) (s : State), Served s h .find →
    (∃ n, target = .slot n ∧ 512 ≤ n) ∨
      (∃ row bay, target = .position row bay ∧ (row = 0 ∨ 12 < row ∨ bay = 0 ∨ 400 < bay)) ∨ view = 0 ∨ 6 < view →
    exec (.find h target view) s = .next (Answered s h .find .badValue [])) ∧
  ∀ (h : Ask) (target : Target) (view : Nat) (s : State), Served s h .find → 1 ≤ view → view ≤ 6 →
    ∀ names : Nat → Prop,
    (∀ n, names n ↔ target = .slot n ∧ n < 512 ∨
      ∃ row bay, target = .position row bay ∧ 1 ≤ row ∧ row ≤ 12 ∧ 1 ≤ bay ∧ bay ≤ 400 ∧ s.liveAt row bay = some n) →
    (∀ n r o, names n → s.recAt n = some r →
      (view = 5 → r.state = .locked ∨ r.state = .destressing ∨ r.state = .retired) →
      (view = 2 ∨ view = 4 → WorkLaw s ∧ ∀ x, r.context.bind s.ctxAt = some x → CallOrder s x.station o) →
      exec (.find h target view) s = .next (Answered s h .find .done
        ([.u8 view, .u16 n, .u8 r.row, .u16 r.bay, .u8 r.gen, enum8 RecState.all r.state, .u16 (s.revAt n)] ++
          masked (viewParts s n r o view)))) ∧
    (∀ n, names n → s.recAt n = none → exec (.find h target view) s = .next (Answered s h .find .noRecord [])) ∧
    (∀ row bay, target = .position row bay → 1 ≤ row → row ≤ 12 → 1 ≤ bay → bay ≤ 400 → s.liveAt row bay = none →
      exec (.find h target view) s = .next (Answered s h .find .noRecord [])) ∧
    (∀ n r, names n → s.recAt n = some r → view = 5 → r.state ≠ .locked → r.state ≠ .destressing →
      r.state ≠ .retired → exec (.find h target view) s = .next (Answered s h .find .noRecord []))

/-- LIST (R14): the first eight matching slots from the start slot on, in ascending order, and the slot after the eighth,
or 512 where fewer than eight match. An empty state set, a state code outside Table 1-4, a row range out of order or out of range
and a start slot above 511 are BAD_VALUE. -/
def Obligations.ListAnswersTheFirstEightMatches : Prop :=
  (∀ (h : Ask) (states : List Nat) (first last : Nat) (hasCond : Bool) (start : Nat) (s : State), Served s h .list →
    states = [] ∨ (∃ c ∈ states, c = 0 ∨ 14 < c) ∨ first = 0 ∨ last < first ∨ 12 < last ∨ 512 ≤ start →
    exec (.list h states first last hasCond start) s = .next (Answered s h .list .badValue [])) ∧
  ∀ (h : Ask) (states : List Nat) (first last : Nat) (hasCond : Bool) (start : Nat) (s : State),
    Served s h .list → TableLaw s → states ≠ [] → (∀ c ∈ states, 1 ≤ c ∧ c ≤ 14) → 1 ≤ first → first ≤ last →
    last ≤ 12 → start < 512 →
    ∀ found, found = ((List.range 512).filter (fun n => decide (start ≤ n) && (s.recAt n).any (fun r =>
        decide (codeIn RecState.all r.state ∈ states) && decide (first ≤ r.row) && decide (r.row ≤ last) &&
          (!hasCond || !r.conds.isEmpty)))).take 8 →
      exec (.list h states first last hasCond start) s = .next (Answered s h .list .done
        (counted (found.map (fun n => [.u16 n])) ++ [.u16 ((found[7]?.map (· + 1)).getD 512)]))

/-- CREATE (R15, R16): at a position without a live record, in a row that is not relied, with a generation of at most 3
and a FREE slot, it places a PLANNED record with the given class and overrides in the lowest FREE slot, at the slot
revision plus one, with the stamp of station 0, sets the position's map entry to it, hands the slot to the write queue, and
answers the slot and the revision. A row, bay, class or override out of range is BAD_VALUE; the own checks then come in their
order: OCCUPIED, RELIED_ON, LIMIT, FULL. -/
def Obligations.CreatePlacesAPlannedRecord : Prop :=
  (∀ (h : Ask) (row bay cls : Nat) (freeOv bondOv : Option Nat) (s : State), Served s h .create →
    row = 0 ∨ 12 < row ∨ bay = 0 ∨ 400 < bay ∨ 16 ≤ cls ∨ ¬ OverridesInRange freeOv bondOv →
    exec (.create h row bay cls freeOv bondOv) s = .next (Answered s h .create .badValue [])) ∧
  ∀ (h : Ask) (row bay cls : Nat) (freeOv bondOv : Option Nat) (s : State) (g : Nat),
    Served s h .create → TableLaw s → 1 ≤ row → row ≤ 12 → 1 ≤ bay → bay ≤ 400 → cls < 16 →
    (∀ f, freeOv = some f → 3000 ≤ f ∧ f ≤ 60000) → (∀ b, bondOv = some b → 3000 ≤ b ∧ b ≤ 20000) →
    NewGeneration s row bay g →
    (s.liveAt row bay ≠ none →
      exec (.create h row bay cls freeOv bondOv) s = .next (Answered s h .create .occupied [])) ∧
    (s.liveAt row bay = none → row ≤ s.tbc.site.digRow → s.isRelieved row = false →
      exec (.create h row bay cls freeOv bondOv) s = .next (Answered s h .create .reliedOn [])) ∧
    (s.liveAt row bay = none → s.tbc.site.digRow < row ∨ s.isRelieved row = true →
      (3 < g → exec (.create h row bay cls freeOv bondOv) s = .next (Answered s h .create .limit [])) ∧
      (g ≤ 3 → (∀ n, n < 512 → s.recAt n ≠ none) →
        exec (.create h row bay cls freeOv bondOv) s = .next (Answered s h .create .full [])) ∧
      (∀ n, g ≤ 3 → LowestFree s n → ∃ t, exec (.create h row bay cls freeOv bondOv) s = .next t ∧
        t.slotAt n = Slot.mk ((s.revAt n + 1) % 65536)
          (some (newRecord row bay g cls freeOv bondOv none { time := s.wck.time, station := 0 })) ∧
        (∀ m, m ≠ n → t.slotAt m = s.slotAt m) ∧ t.liveAt row bay = some n ∧
        (∀ key, key ≠ posKey row bay → t.tbc.map.get? key = s.tbc.map.get? key) ∧
        t.tbc = { s.tbc with slots := t.tbc.slots, map := t.tbc.map } ∧ t.isi = s.isi.handed [.slot n] ∧
        t.bmu = s.bmu.answering h (answerTo .create .done [.u16 n, .u16 ((s.revAt n + 1) % 65536)]) ∧
        OnlyIn [.tbc, .isi, .bmu] s t))

/-- AMEND (R17): a value out of range is BAD_VALUE; in PLANNED and BORED the class and the overrides become as asked in one
record update, which answers the revision after it, the revision unchanged where no field changes (R5); in any other state
it is refused WRONG_STATE. BORED (R18): a PLANNED record becomes BORED in one record update; in any other state it is
refused WRONG_STATE. -/
def Obligations.AmendAndBoredChangeAnEarlyRecord : Prop :=
  (∀ (h : Ask) (slot rev : Nat) (cls : Option Nat) (freeOv bondOv : OverrideAction) (s : State), Served s h .amend →
    ∀ good : Prop, (good ↔ slot < 512 ∧ (∀ c, cls = some c → c < 16) ∧ (∀ f, freeOv = .set f → 3000 ≤ f ∧ f ≤ 60000) ∧
      ∀ b, bondOv = .set b → 3000 ≤ b ∧ b ≤ 20000) →
    (¬ good → exec (.amend h slot rev cls freeOv bondOv) s = .next (Answered s h .amend .badValue [])) ∧
    ∀ r, good → s.recAt slot = some r → rev = s.revAt slot →
      (r.state = .planned ∨ r.state = .bored → ∃ t, exec (.amend h slot rev cls freeOv bondOv) s = .next t ∧
        RecordDone s t h .amend slot r { r with
          cls := cls.getD r.cls
          freeOv := (match freeOv with
            | .keep => r.freeOv
            | .set f => some f
            | .remove => none)
          bondOv := (match bondOv with
            | .keep => r.bondOv
            | .set b => some b
            | .remove => none) }) ∧
      (r.state ≠ .planned → r.state ≠ .bored →
        exec (.amend h slot rev cls freeOv bondOv) s = .next (Answered s h .amend .wrongState []))) ∧
  ∀ (h : Ask) (slot rev : Nat) (s : State) (r : Record),
    Served s h .bored → slot < 512 → s.recAt slot = some r → rev = s.revAt slot →
    (r.state = .planned → ∃ t, exec (.bored h slot rev) s = .next t ∧
      RecordDone s t h .bored slot r { r with state := .bored }) ∧
    (r.state ≠ .planned → exec (.bored h slot rev) s = .next (Answered s h .bored .wrongState []))

/-- RETIRE (R19) and CLOSE ABANDON of a FAILED record (R56): the entry to RETIRED of R8 with the given reason, answered DONE
with the new revision. A RETIRE of a record in a work state or RETIRED, and an ABANDON of one that is not FAILED, are
refused WRONG_STATE, a live record of a relied row RELIED_ON. -/
def Obligations.RetireAndAbandonEnterRetired : Prop :=
  ∀ (c : Instr) (h : Ask) (q : Req) (slot rev : Nat) (reason : RetireReason) (s : State) (r : Record),
    (q = .retire ∧ (reason = .abandoned ∧ c = .retire h slot rev 2 ∨ reason = .supervisor ∧ c = .retire h slot rev 4) ∨
      q = .close ∧ reason = .failed ∧ c = .closeAbandon h slot rev) →
    Served s h q → slot < 512 → s.recAt slot = some r → rev = s.revAt slot →
    ((if q = .retire then r.state.isWork = true ∨ r.state = .retired else r.state ≠ .failed) →
      exec c s = .next (Answered s h q .wrongState [])) ∧
    ((if q = .retire then r.state.isWork = false ∧ r.state ≠ .retired else r.state = .failed) →
      (LiveAndRelied s slot r → exec c s = .next (Answered s h q .reliedOn [])) ∧
      (¬ LiveAndRelied s slot r → r.replaces ≠ some slot → r.replacedBy ≠ some slot → ∃ t, exec c s = .next t ∧
        EntersRetired s t slot h.station reason r r ∧
        t.bmu = s.bmu.answering h (answerTo q .done [.u16 ((s.revAt slot + 1) % 65536)]) ∧
        OnlyIn [.tbc, .isi, .channels, .atu, .bmu] s t))

/-- PURGE (R20): the slot of a RETIRED record becomes FREE and keeps its revision, its attention entries leave, every link
to it is removed in an update of the record that holds it, in ascending slot order; in any other state it is refused
WRONG_STATE. -/
def Obligations.PurgeFreesARetiredSlot : Prop :=
  ∀ (h : Ask) (slot : Nat) (s : State) (r : Record),
    Served s h .purge → TableLaw s → slot < 512 → s.recAt slot = some r →
    (r.state ≠ .retired → exec (.purge h slot) s = .next (Answered s h .purge .wrongState [])) ∧
    (r.state = .retired → ∃ t, exec (.purge h slot) s = .next t ∧
      t.slotAt slot = { rev := s.revAt slot, rec? := none } ∧
      (∀ m q, m ≠ slot → s.recAt m = some q → (q.replaces = some slot ∨ q.replacedBy = some slot) →
        t.slotAt m = stepped s m h.station { q with
          replaces := if q.replaces = some slot then none else q.replaces
          replacedBy := if q.replacedBy = some slot then none else q.replacedBy }) ∧
      (∀ m, m ≠ slot → (∀ q, s.recAt m = some q → q.replaces ≠ some slot ∧ q.replacedBy ≠ some slot) →
        t.slotAt m = s.slotAt m) ∧
      t.tbc = { s.tbc with slots := t.tbc.slots } ∧
      t.isi = s.isi.handed (.slot slot :: ((List.range 512).filter (fun m => decide (m ≠ slot) &&
        (s.recAt m).any (fun q => decide (q.replaces = some slot ∨ q.replacedBy = some slot)))).map Item.slot) ∧
      t.atu = (s.atu.drop (fun e => e.subject = .record slot)).sound s.tbc.site.alarm ∧
      t.bmu = s.bmu.answering h (answerTo .purge .done []) ∧ OnlyIn [.tbc, .isi, .atu, .bmu] s t)

/-- REPLACE (R21, R22): a PLANNED record one generation up at the position of a live record that is neither in work nor
SUSPECT and has no "replaced by" link, linked both ways; the map is not changed. The own checks come in their order. -/
def Obligations.ReplaceLinksANewRecord : Prop :=
  ∀ (h : Ask) (slot rev : Nat) (cls : Option Nat) (s : State) (r : Record) (g : Nat),
    Served s h .replace → TableLaw s → slot < 512 → (∀ c, cls = some c → c < 16) → s.recAt slot = some r →
    rev = s.revAt slot → NewGeneration s r.row r.bay g →
    (s.liveAt r.row r.bay ≠ some slot ∨ r.state.isWork = true ∨ r.state = .suspect →
      exec (.replace h slot rev cls) s = .next (Answered s h .replace .wrongState [])) ∧
    (s.liveAt r.row r.bay = some slot → r.state.isWork = false → r.state ≠ .suspect →
      (r.replacedBy ≠ none → exec (.replace h slot rev cls) s = .next (Answered s h .replace .occupied [])) ∧
      (r.replacedBy = none → 3 < g → exec (.replace h slot rev cls) s = .next (Answered s h .replace .limit [])) ∧
      (r.replacedBy = none → g ≤ 3 → (∀ n, n < 512 → s.recAt n ≠ none) →
        exec (.replace h slot rev cls) s = .next (Answered s h .replace .full [])) ∧
      (∀ n, r.replacedBy = none → g ≤ 3 → LowestFree s n → ∃ t, exec (.replace h slot rev cls) s = .next t ∧
        t.slotAt slot = stepped s slot h.station { r with replacedBy := some n } ∧
        t.slotAt n = Slot.mk ((s.revAt n + 1) % 65536)
          (some (newRecord r.row r.bay g (cls.getD r.cls) none none (some slot) { time := s.wck.time, station := 0 })) ∧
        (∀ m, m ≠ slot → m ≠ n → t.slotAt m = s.slotAt m) ∧ t.tbc = { s.tbc with slots := t.tbc.slots } ∧
        t.isi = s.isi.handed [.slot slot, .slot n] ∧
        t.bmu = s.bmu.answering h (answerTo .replace .done
          [.u16 n, .u16 ((s.revAt n + 1) % 65536), .u16 ((s.revAt slot + 1) % 65536)]) ∧
        OnlyIn [.tbc, .isi, .bmu] s t))

/-- CERTIFY (R24, R25): a SUSPECT record takes the target state, the class, the overrides and the value the target needs, and
loses IMAGE_SUSPECT with its entry, in one record update; to RETIRED it enters as R8 gives. Any other record is refused
WRONG_STATE, a live one of a relied row to any state but LOCKED RELIED_ON. -/
def Obligations.CertifyMovesASuspectRecord : Prop :=
  ∀ (h : Ask) (slot rev code : Nat) (target : RecState) (cls : Nat) (freeOv bondOv cureEnd lockoff reason : Option Nat)
    (s : State) (r : Record),
    Served s h .certify → slot < 512 → cls < 16 → (∀ f, freeOv = some f → 3000 ≤ f ∧ f ≤ 60000) →
    (∀ b, bondOv = some b → 3000 ≤ b ∧ b ≤ 20000) →
    (code = 1 ∧ target = .planned ∨ code = 2 ∧ target = .bored ∨ code = 4 ∧ target = .inserted ∨
      code = 6 ∧ target = .curing ∨ code = 7 ∧ target = .ready ∨ code = 9 ∧ target = .locked ∨
      code = 13 ∧ target = .retired) →
    (if target = .curing then ∃ e, cureEnd = some e ∧ e ≤ 4294967295 else cureEnd = none) →
    (if target = .locked then ∃ l, lockoff = some l ∧ 1 ≤ l ∧ l ≤ 30000 else lockoff = none) →
    (if target = .retired then ∃ k, reason = some k ∧ 1 ≤ k ∧ k ≤ 4 else reason = none) →
    s.recAt slot = some r → rev = s.revAt slot →
    (r.state ≠ .suspect → exec (.certify h slot rev code cls freeOv bondOv cureEnd lockoff reason) s =
      .next (Answered s h .certify .wrongState [])) ∧
    (r.state = .suspect → LiveAndRelied s slot r → target ≠ .locked →
      exec (.certify h slot rev code cls freeOv bondOv cureEnd lockoff reason) s =
        .next (Answered s h .certify .reliedOn [])) ∧
    (r.state = .suspect → (LiveAndRelied s slot r → target = .locked) → target ≠ .retired →
      ∃ t, exec (.certify h slot rev code cls freeOv bondOv cureEnd lockoff reason) s = .next t ∧
        SlotIs s t slot (stepped s slot h.station { r with
          state := target, cls := cls, freeOv := freeOv, bondOv := bondOv, cureEnd := cureEnd, lockoffLoad := lockoff
          conds := r.conds.filter (fun c => c ≠ .imageSuspect) }) ∧
        t.isi = s.isi.handed [.slot slot] ∧
        t.atu = (s.atu.drop (fun e => e.subject = .record slot ∧ e.cond = .imageSuspect)).sound s.tbc.site.alarm ∧
        t.bmu = s.bmu.answering h (answerTo .certify .done [.u16 ((s.revAt slot + 1) % 65536)]) ∧
        OnlyIn [.tbc, .isi, .atu, .bmu] s t) ∧
    (r.state = .suspect → ¬ LiveAndRelied s slot r → target = .retired → r.replaces = none → r.replacedBy = none →
      ∃ t why, exec (.certify h slot rev code cls freeOv bondOv cureEnd lockoff reason) s = .next t ∧
        ofCode RetireReason.all (reason.getD 0) = some why ∧
        EntersRetired s t slot h.station why r { r with
          cls := cls, freeOv := freeOv, bondOv := bondOv, cureEnd := none, lockoffLoad := none } ∧
        t.bmu = s.bmu.answering h (answerTo .certify .done [.u16 ((s.revAt slot + 1) % 65536)]) ∧
        OnlyIn [.tbc, .isi, .channels, .atu, .bmu] s t)

/-! ## Work contexts (chapters 3, 4 and 6) -/

/-- START, BEGIN and RESUME (R48, R49, R51, R52): where every check of Table 3-3 passes, the lowest FREE context is bound, with
the first phase of its kind; the record enters the work state of Table 3-2 and names the context in one update stamped with
the sender; and the answer is DONE with the context and the new revision. -/
def Obligations.StartBeginAndResumeBindTheLowestFreeContext : Prop :=
  ∀ (cmd : Instr) (h : Ask) (q : Req) (k : CtxKind) (slot station c : Nat) (resumed : Bool) (s : State) (r : Record)
    (cls : ClassEntry),
    (q = .start ∧ resumed = false ∧ cmd = .start h (codeIn CtxKind.all k) slot station (s.revAt slot) ∨
      q = .begin ∧ resumed = false ∧ cmd = .begin h r.row r.bay ∧ station = h.station ∧
        s.liveAt r.row r.bay = some slot ∧ 1 ≤ r.row ∧ r.row ≤ 12 ∧ 1 ≤ r.bay ∧ r.bay ≤ 400 ∨
      q = .resume ∧ resumed = true ∧ cmd = .resume h slot (s.revAt slot) (some station)) →
    Served s h q → slot < 512 → 1 ≤ station → station ≤ 15 → s.recAt slot = some r → s.classOf r = some cls →
    (∀ b ∈ bindingChecks s k station r resumed, b.1 = false) → c < 12 → s.ctxAt c = none →
    (∀ d, d < c → s.ctxAt d ≠ none) →
    ∃ t prog, exec cmd s = .next t ∧ BindsWork s t c k slot station h.station r prog ∧
      StartsProgress s k station r cls resumed prog ∧
      t.bmu = { s.bmu with stations := t.bmu.stations }.answering h
        (answerTo q .done [.u8 c, .u16 ((s.revAt slot + 1) % 65536)]) ∧
      OnlyIn [.tbc, .cxp, .channels, .isi, .bmu] s t

/-- START, BEGIN and RESUME (R37, R50): the first check of Table 3-3 that fails gives the result, and nothing changes; CAPACITY
carries the class test load and the jack's last calibration load, CONFLICT the lowest context that forms the pair: its kind
conflicts by Table 2-3, and its record is near, in its row or the next and within the span of its bay (R36). A RESUME of
a record that is not HELD is refused WRONG_STATE before them, and one without a station, or with one out of range, BAD_VALUE
(R52). The kind of a BEGIN follows from its sender's (R49): a winch inserts, a pump grouts, a jack destresses a LOCKED record
and else stresses, and any other sender with authority is refused WRONG_KIND. A row or bay out of range is BAD_VALUE, an
empty map entry NO_RECORD; a sender that a context already binds to the live record is answered DONE with that context and
the record's revision, and nothing changes, whatever the site stop and the clock. That the empty entry answers NO_RECORD also
where a RETIRE has emptied it, for which R26 says WRONG_STATE, is the model's choice (assumption log 41). -/
def Obligations.BindingIsRefusedByTheFirstFailingCheck : Prop :=
  (∀ (cmd : Instr) (h : Ask) (q : Req) (k : CtxKind) (slot station : Nat) (resumed : Bool) (s : State) (r : Record)
      (res : Result),
    (q = .start ∧ resumed = false ∧ cmd = .start h (codeIn CtxKind.all k) slot station (s.revAt slot) ∨
      q = .resume ∧ resumed = true ∧ cmd = .resume h slot (s.revAt slot) (some station) ∧ r.state = .held ∧
        r.heldKind = some k) →
    Served s h q → slot < 512 → 1 ≤ station → station ≤ 15 → s.recAt slot = some r →
    ((bindingChecks s k station r resumed).find? Prod.fst).map Prod.snd = some res →
    ∃ body, exec cmd s = .next (Answered s h q res body) ∧ BindingFigures s k station r res body) ∧
  (∀ (h : Ask) (slot rev : Nat) (station : Option Nat) (s : State), Served s h .resume → slot < 512 →
    (station = none ∨ station = some 0 ∨ (∃ n, station = some n ∧ 15 < n) →
      exec (.resume h slot rev station) s = .next (Answered s h .resume .badValue [])) ∧
    (∀ n r, station = some n → 1 ≤ n → n ≤ 15 → s.recAt slot = some r → rev = s.revAt slot → r.state ≠ .held →
      exec (.resume h slot rev station) s = .next (Answered s h .resume .wrongState []))) ∧
  ∀ (h : Ask) (row bay : Nat) (s : State), Served s h .begin →
    (row = 0 ∨ 12 < row ∨ bay = 0 ∨ 400 < bay →
      exec (.begin h row bay) s = .next (Answered s h .begin .badValue [])) ∧
    (1 ≤ row → row ≤ 12 → 1 ≤ bay → bay ≤ 400 →
      (s.liveAt row bay = none → exec (.begin h row bay) s = .next (Answered s h .begin .noRecord [])) ∧
      (∀ n r c x, s.liveAt row bay = some n → s.recAt n = some r → (s.stationAt h.station).ctx = some c →
        s.ctxAt c = some x → x.slot = n →
        exec (.begin h row bay) s = .next (Answered s h .begin .done [.u8 c, .u16 (s.revAt n)])) ∧
      ∀ n r kind, s.liveAt row bay = some n → s.recAt n = some r → kind = (s.stationAt h.station).kind →
        (∀ c x, (s.stationAt h.station).ctx = some c → s.ctxAt c = some x → x.slot ≠ n) →
        (kind ≠ .winch → kind ≠ .grout → kind ≠ .jack →
          exec (.begin h row bay) s = .next (Answered s h .begin .wrongKind [])) ∧
        ∀ k res, (kind = .winch ∧ k = .insert ∨ kind = .grout ∧ k = .grout ∨
            kind = .jack ∧ k = (if r.state = .locked then .destress else .stress)) →
          ((bindingChecks s k h.station r false).find? Prod.fst).map Prod.snd = some res →
          ∃ body, exec (.begin h row bay) s = .next (Answered s h .begin res body) ∧
            BindingFigures s k h.station r res body)

/-- ABORT (R55): in any run state it releases the context that names the record, which goes HELD with reason ABORTED and the
stamp of station 0; the station parts with its stop order. A FREE slot is refused NO_RECORD, a record that is not in a work
state WRONG_STATE. -/
def Obligations.AbortHoldsTheRecord : Prop :=
  ∀ (h : Ask) (slot : Nat) (s : State), Served s h .abort → WorkLaw s → slot < 512 →
    (s.recAt slot = none → exec (.abort h slot) s = .next (Answered s h .abort .noRecord [])) ∧
    (∀ r, s.recAt slot = some r → r.state.isWork = false →
      exec (.abort h slot) s = .next (Answered s h .abort .wrongState [])) ∧
    (∀ r c x, s.recAt slot = some r → s.ctxAt c = some x → x.slot = slot → ∃ t, exec (.abort h slot) s = .next t ∧
      EndsWork s t c x (Parting.plain (stopOrder x.prog.kind.stationKind)) 0 [] r (heldRecord x.prog .aborted none r) ∧
      t.bmu = { s.bmu with stations := t.bmu.stations }.answering h
        (answerTo .abort .done [.u16 ((s.revAt slot + 1) % 65536)]) ∧
      OnlyIn [.tbc, .cxp, .isi, .bmu] s t)

/-- CLOSE (R56, Table 3-5) of a HELD record: WITHDRAW of an insertion back to BORED without its result, ACCEPT of a grouting
to CURING with end reason ACCEPTED and a cure end formed afresh, RESTART of a stressing to READY. RETEST of a FAILED record
makes it READY with one retest more; at two it is refused LIMIT. Each is refused WRONG_STATE for any other record. -/
def Obligations.CloseMovesAHeldOrFailedRecord : Prop :=
  ∀ (h : Ask) (slot rev : Nat) (s : State) (r : Record), Served s h .close → slot < 512 → s.recAt slot = some r →
    rev = s.revAt slot →
    (r.state = .held → r.heldKind = some .insert → ∃ t, exec (.closeWithdraw h slot rev) s = .next t ∧
      RecordDone s t h .close slot r { r with
        state := .bored, heldKind := none, heldReason := none, insertion := none }) ∧
    (∀ cls, r.state = .held → r.heldKind = some .grout → s.classOf r = some cls →
      ∃ t, exec (.closeAccept h slot rev) s = .next t ∧ RecordDone s t h .close slot r { r with
        state := .curing, heldKind := none, heldReason := none
        grout := some (GroutResult.mk ((r.grout.map GroutResult.volume).getD 0) ((r.grout.map GroutResult.peak).getD 0)
          (some .accepted) (some s.wck.time))
        cureEnd := some (min 4294967295 (s.wck.time + cls.cure)) }) ∧
    (r.state = .held → r.heldKind = some .grout → s.classOf r = none →
      exec (.closeAccept h slot rev) s = .next (Answered s h .close .notReady [])) ∧
    (r.state = .held → r.heldKind = some .stress → ∃ t, exec (.closeRestart h slot rev) s = .next t ∧
      RecordDone s t h .close slot r { r with state := .ready, heldKind := none, heldReason := none }) ∧
    (r.state ≠ .held ∨ r.heldKind ≠ some .insert →
      exec (.closeWithdraw h slot rev) s = .next (Answered s h .close .wrongState [])) ∧
    (r.state ≠ .held ∨ r.heldKind ≠ some .grout →
      exec (.closeAccept h slot rev) s = .next (Answered s h .close .wrongState [])) ∧
    (r.state ≠ .held ∨ r.heldKind ≠ some .stress →
      exec (.closeRestart h slot rev) s = .next (Answered s h .close .wrongState [])) ∧
    (r.state = .failed → r.retests < 2 → ∃ t, exec (.closeRetest h slot rev) s = .next t ∧
      RecordDone s t h .close slot r { r with state := .ready, retests := r.retests + 1 }) ∧
    (r.state = .failed → 2 ≤ r.retests →
      exec (.closeRetest h slot rev) s = .next (Answered s h .close .limit [])) ∧
    (r.state ≠ .failed → exec (.closeRetest h slot rev) s = .next (Answered s h .close .wrongState []))

/-- END of a sender that is bound to nothing is refused WRONG_STATE (R75). END of an insertion (R76): a payout within the
insertion tolerance of the tendon length makes the record INSERTED, one outside it HELD with INSERT_LENGTH raised; either
way the insertion result is the payout, and the winch parts with HOLD. END of a grouting (R83, R85): at or above the
theoretical volume the record goes to CURING with end reason OPERATOR and its cure end, below it HELD with GROUT_SHORT
raised; the pump parts with STOP. END of a jack's work (R123) holds the record with reason OPERATOR and writes no result; the
jack parts with HOLD. Each stamp names the sender. -/
def Obligations.EndJudgesTheWorkOfItsSender : Prop :=
  (∀ (h : Ask) (s : State), Served s h .endWork → (s.stationAt h.station).ctx = none →
    exec (.endWork h) s = .next (Answered s h .endWork .wrongState [])) ∧
  ∀ (h : Ask) (s : State) (c : Nat) (x : Context) (r : Record) (cls : ClassEntry),
    Served s h .endWork → WorkLaw s → (s.stationAt h.station).ctx = some c → s.ctxAt c = some x →
    s.recAt x.slot = some r → s.classOf r = some cls →
    ∀ length, length = r.freeOv.getD cls.freeLen + r.bondOv.getD cls.bondLen + cls.jacking →
    (∀ p, x.prog = .insert p → payout p ≤ length + cls.insTol → length ≤ payout p + cls.insTol →
      ∃ t, exec (.endWork h) s = .next t ∧
      EndsWork s t c x (Parting.plain .hold) h.station [] r { r with
        state := .inserted, context := none, insertion := some (payout p) } ∧
      t.bmu = { s.bmu with stations := t.bmu.stations }.answering h
        (answerTo .endWork .done [.u16 x.slot, .u8 4, .u16 ((s.revAt x.slot + 1) % 65536)]) ∧
      OnlyIn [.tbc, .cxp, .isi, .bmu] s t) ∧
    (∀ p, x.prog = .insert p → length + cls.insTol < payout p ∨ payout p + cls.insTol < length →
      ∃ t, exec (.endWork h) s = .next t ∧
      EndsWork s t c x (Parting.plain .hold) h.station [.insertLength] r (heldRecord x.prog .insertLength none r) ∧
      t.bmu = { s.bmu with stations := t.bmu.stations }.answering h
        (answerTo .endWork .done [.u16 x.slot, .u8 12, .u16 ((s.revAt x.slot + 1) % 65536)]) ∧
      OnlyIn [.tbc, .cxp, .isi, .atu, .bmu] s t) ∧
    (∀ p, x.prog = .grout p → cls.theoVol ≤ volume p → ∃ t, exec (.endWork h) s = .next t ∧
      EndsWork s t c x (Parting.plain .stop) h.station [] r { r with
        state := .curing, context := none
        grout := some (GroutResult.mk (volume p) p.peak (some .operator) (some s.wck.time))
        cureEnd := some (min 4294967295 (s.wck.time + cls.cure)) } ∧
      t.bmu = { s.bmu with stations := t.bmu.stations }.answering h
        (answerTo .endWork .done [.u16 x.slot, .u8 6, .u16 ((s.revAt x.slot + 1) % 65536)]) ∧
      OnlyIn [.tbc, .cxp, .isi, .bmu] s t) ∧
    (∀ p, x.prog = .grout p → volume p < cls.theoVol → ∃ t, exec (.endWork h) s = .next t ∧
      EndsWork s t c x (Parting.plain .stop) h.station [.groutShort] r
        (heldRecord x.prog .groutShort (some (.operator, s.wck.time)) r) ∧
      t.bmu = { s.bmu with stations := t.bmu.stations }.answering h
        (answerTo .endWork .done [.u16 x.slot, .u8 12, .u16 ((s.revAt x.slot + 1) % 65536)]) ∧
      OnlyIn [.tbc, .cxp, .isi, .atu, .bmu] s t) ∧
    (∀ p, x.prog = .stress p ∨ x.prog = .destress p → ∃ t, exec (.endWork h) s = .next t ∧
      EndsWork s t c x (Parting.plain .hold) h.station [] r (heldRecord x.prog .operator none r) ∧
      t.bmu = { s.bmu with stations := t.bmu.stations }.answering h
        (answerTo .endWork .done [.u16 x.slot, .u8 12, .u16 ((s.revAt x.slot + 1) % 65536)]) ∧
      OnlyIn [.tbc, .cxp, .isi, .bmu] s t)

/-- RESTROKE (R98, R122): in DATUM and STAGE in APPROACH, and in TEST, with the register CLOSED and fewer than eight restrokes
made, the extension accumulator gains the last used reply's stroke less the origin, the register opens, that reply's load
and stroke are kept, the order becomes HOLD, and the answer is the restroke count. With eight made it is LIMIT; in any other
phase, with the register not CLOSED, in a DESTRESS context or from a sender bound to none it is WRONG_STATE. Before any used
reply the load and the stroke are free values, for which the model's own counter moves (assumption log 3). -/
def Obligations.RestrokeOpensTheRegister : Prop :=
  (∀ (h : Ask) (s : State), Served s h .restroke →
    ((s.stationAt h.station).ctx = none ∨ (∃ c x p, (s.stationAt h.station).ctx = some c ∧ s.ctxAt c = some x ∧
      x.prog = .destress p) → exec (.restroke h) s = .next (Answered s h .restroke .wrongState []))) ∧
  ∀ (h : Ask) (s : State) (c : Nat) (x : Context) (p : JackProg), Served s h .restroke →
    (s.stationAt h.station).ctx = some c → s.ctxAt c = some x → x.prog = .stress p →
    ∀ allowed : Prop, (allowed ↔ p.register = .closed ∧
      ((p.phase = .datum ∨ p.phase = .stage) ∧ p.holding = false ∨ p.phase = .test)) →
    (¬ allowed → exec (.restroke h) s = .next (Answered s h .restroke .wrongState [])) ∧
    (allowed → 8 ≤ p.restrokes → exec (.restroke h) s = .next (Answered s h .restroke .limit [])) ∧
    (∀ l, allowed → p.restrokes < 8 → p.last = some l → ∃ t, exec (.restroke h) s = .next t ∧
      t.ctxAt c = some { x with prog := .stress { p with
        restrokes := p.restrokes + 1, register := .opened, order := .hold
        acc := p.acc + ((l.stroke : Int) - (p.origin : Int)), preLoad := l.load, openStroke := l.stroke } } ∧
      (∀ d, d ≠ c → t.ctxAt d = s.ctxAt d) ∧ t.cxp.parting = s.cxp.parting ∧
      t.bmu = s.bmu.answering h (answerTo .restroke .done [.u8 (p.restrokes + 1)]) ∧ OnlyIn [.cxp, .bmu] s t) ∧
    (allowed → p.restrokes < 8 → p.last = none → ∃ (t : State) (load stroke : Nat), exec (.restroke h) s = .next t ∧
      load ≤ 30000 ∧ stroke ≤ 30000 ∧ t.ctxAt c = some { x with prog := .stress { p with
        restrokes := p.restrokes + 1, register := .opened, order := .hold
        acc := p.acc + ((stroke : Int) - (p.origin : Int)), preLoad := load, openStroke := stroke } } ∧
      (∀ d, d ≠ c → t.ctxAt d = s.ctxAt d) ∧ t.cxp.parting = s.cxp.parting ∧
      t.bmu = s.bmu.answering h (answerTo .restroke .done [.u8 (p.restrokes + 1)]) ∧
      OnlyIn [.cxp, .bmu, .freeNext] s t)

/-- REAL_SECOND (R59, R61 to R63): a running clock moves works time by the time scale, up to 4,294,967,295, a held one not at
all; every jack timer falls and every counting elapsed count rises by what works time moved, as does a counting refusal
timer outside SUSPENDED; a SUSPENDED context gains one second of suspend time while no site stop is in force. The second
carries out no release and no expiry: a suspend time that reaches the limit, and a refusal timer that reaches the refusal
time in RUNNING, are marked due for the event that acts on them, which is the model's choice (assumption log 8). -/
def Obligations.RealSecondAdvancesTimeAndTimers : Prop :=
  ∀ s : State, ∃ t, exec .realSecond s = .next t ∧
    t.wck = { s.wck with time :=
      if s.wck.clock = .running then min 4294967295 (s.wck.time + s.wck.scale) else s.wck.time } ∧
    t.cxp.parting = s.cxp.parting ∧ (∀ c, t.ctxAt c = none ↔ s.ctxAt c = none) ∧
    (∀ c x, s.ctxAt c = some x → ∃ y, t.ctxAt c = some y ∧ y.slot = x.slot ∧ y.station = x.station ∧ y.run = x.run ∧
      (x.run = .suspended → s.ifu.stop = none → x.limitDue = false →
        y.suspend = x.suspend + 1 ∧ (y.limitDue = true ↔ s.tbc.site.suspend ≤ x.suspend + 1)) ∧
      (x.run ≠ .suspended ∨ s.ifu.stop ≠ none → y.suspend = x.suspend ∧ y.limitDue = x.limitDue) ∧
      (∀ p, x.prog = .insert p → y.prog = x.prog) ∧
      (∀ p, x.prog = .grout p → ∃ q, y.prog = .grout q ∧ q = { p with
          refTimer := if p.counting = true ∧ x.run ≠ .suspended then
            min 4294967295 (p.refTimer + (t.wck.time - s.wck.time)) else p.refTimer
          due := q.due } ∧
        ∀ r cls, s.recAt x.slot = some r → s.classOf r = some cls → (q.due = true ↔ p.due = true ∨
          p.counting = true ∧ x.run = .running ∧ p.refTimer < cls.refTime ∧ cls.refTime ≤ q.refTimer)) ∧
      (∀ p, x.prog = .stress p ∨ x.prog = .destress p → ∃ p', (x.prog = .stress p → y.prog = .stress p') ∧
        (x.prog = .destress p → y.prog = .destress p') ∧ p' = { p with
          timer := p.timer.map (fun n => n - (t.wck.time - s.wck.time))
          elapsed := if p.counting then min 4294967295 (p.elapsed + (t.wck.time - s.wck.time)) else p.elapsed })) ∧
    OnlyIn [.wck, .cxp] s t

/-- SUSPEND_LIMIT_REACHED (R59): a SUSPENDED context whose suspend time has reached the limit is released: the record goes
HELD with reason LOST and STATION_LOST raised, stamped for station 31, and the station parts with its stop order.
REFUSAL_COMPLETION (R82, R85): a RUNNING grouting whose refusal timer counts and has reached the refusal time in RUNNING
goes to CURING with end reason REFUSAL and its cure end, stamped for the pump, which parts with STOP; a time reached in
STOPPED waits for a used reply. CURE_EXPIRY (R86): while the clock runs, a CURING record whose cure end works time has
reached becomes READY in an update for station 31. That the end of a time is a command of its own, which does nothing where
the time has not ended, is the model's choice (assumption log 8). -/
def Obligations.TheEndOfATimeActsOnItsContextOrRecord : Prop :=
  (∀ (c : Nat) (s : State),
    (∀ x r, WorkLaw s → s.ctxAt c = some x → x.run = .suspended → x.limitDue = true → s.recAt x.slot = some r →
      ∃ t, exec (.suspendLimitReached c) s = .next t ∧
        EndsWork s t c x (Parting.plain (stopOrder x.prog.kind.stationKind)) 31 [.stationLost] r
          (heldRecord x.prog .lost none r) ∧
        t.bmu = { s.bmu with stations := t.bmu.stations } ∧ OnlyIn [.tbc, .cxp, .isi, .atu, .bmu] s t) ∧
    ((∀ x, s.ctxAt c = some x → x.run ≠ .suspended ∨ x.limitDue = false) → exec (.suspendLimitReached c) s = .next s)) ∧
  (∀ (c : Nat) (s : State) (x : Context) (p : GroutProg) (r : Record) (cls : ClassEntry), WorkLaw s →
    s.ctxAt c = some x → x.prog = .grout p → s.recAt x.slot = some r → s.classOf r = some cls →
    (x.run = .running → p.counting = true → p.due = true → cls.refTime ≤ p.refTimer →
      ∃ t, exec (.refusalCompletion c) s = .next t ∧
      EndsWork s t c x (Parting.plain .stop) x.station [] r { r with
        state := .curing, context := none
        grout := some (GroutResult.mk (volume p) p.peak (some .refusal) (some s.wck.time))
        cureEnd := some (min 4294967295 (s.wck.time + cls.cure)) } ∧
      t.bmu = { s.bmu with stations := t.bmu.stations } ∧ OnlyIn [.tbc, .cxp, .isi, .bmu] s t) ∧
    (x.run ≠ .running ∨ p.counting = false ∨ p.due = false ∨ p.refTimer < cls.refTime →
      exec (.refusalCompletion c) s = .next s)) ∧
  ∀ (slot : Nat) (s : State) (r : Record) (e : Nat), s.recAt slot = some r → r.cureEnd = some e →
    (s.wck.clock = .running → r.state = .curing → e ≤ s.wck.time → ∃ t, exec (.cureExpiry slot) s = .next t ∧
      RecordUpdate s t slot 31 r { r with state := .ready } ∧ OnlyIn [.tbc, .isi] s t) ∧
    (s.wck.clock = .held ∨ r.state ≠ .curing ∨ s.wck.time < e → exec (.cureExpiry slot) s = .next s)

/-- PHASE_TIMER_EXPIRY of a band hold, DATUM, STAGE k, UNLOAD, LOCKOFF or STEP k (R61, R112, Table 6-3): in a RUNNING context
without a fault hold whose last used load lies in the band, the hold completes with that reply as the closing reply: DATUM
zeroes the extension and leads to STAGE 1 or TEST (R113), a STAGE to the next or to TEST, UNLOAD through the verdict to
LOCKOFF, or to FAILED with LENGTH_FAIL, which is then listed (R117, R120, R136), LOCKOFF to SEATING (R118), a STEP to the next or to FREE (R125).
Outside RUNNING, under a fault hold, or with the last load outside the band the advance is marked pending. That an expiry
does nothing where no hold runs or its timer does not stand at 0 is the model's choice (assumption log 8). -/
def Obligations.BandHoldEndsOnItsTimer : Prop :=
  ∀ (c : Nat) (s : State) (x : Context) (stress : Bool) (p : JackProg) (r : Record) (cls : ClassEntry)
    (cal : List CalPoint) (l : LastReply),
    s.ctxAt c = some x → x.prog = jackProgress stress p → s.recAt x.slot = some r → s.classOf r = some cls →
    s.calAt x.station = some cal → BandPhase p → p.last = some l →
    (p.timer ≠ some 0 ∨ p.holding = false ∨ p.pendingAdv = true → ∃ t, exec (.phaseTimerExpiry c) s = .next t ∧
      t.ctxAt c = some x ∧ (∀ d, d ≠ c → t.ctxAt d = s.ctxAt d) ∧ OnlyIn [.cxp] s t ∧ t.cxp.parting = s.cxp.parting) ∧
    (p.timer = some 0 → p.holding = true → p.pendingAdv = false →
      ∀ acts : Prop, (acts ↔ x.run = .running ∧ p.faultHold = false ∧ Within cls (phaseLoad cls r p) l.load) →
      (acts → ∃ t, exec (.phaseTimerExpiry c) s = .next t ∧ HoldEnds s t x.station c x r cls cal stress p l
          (fun cs => t.atu = toldNew s (.record x.slot) r.conds cs) ∧
        (t.stationAt x.station).kind = (s.stationAt x.station).kind ∧ OnlyIn [.tbc, .cxp, .isi, .atu, .bmu] s t) ∧
      (¬ acts → ∃ t, exec (.phaseTimerExpiry c) s = .next t ∧
        t.ctxAt c = some { x with prog := jackProgress stress { p with pendingAdv := true } } ∧
        (∀ d, d ≠ c → t.ctxAt d = s.ctxAt d) ∧ OnlyIn [.cxp] s t ∧ t.cxp.parting = s.cxp.parting))

/-! ## Used replies of bound stations (chapters 4 and 6) -/

/-- A used reply of a bound pump (R62, R71, R72, R78 to R82), step by step: the pulses join the total, a setback raising
COUNT_SETBACK; the peak keeps the greatest pressure; at or above the burst pressure the record goes HELD with reason BURST,
BURST raised and no end reason; else, at or above the cap, HELD with reason GROUT_LOSS, GROUT_LOSS raised and end reason
VOLUME_CAP; else a pressure below the refusal pressure clears and stops the refusal timer, any other starts or keeps it, and
in RUNNING a timer that already stands at or above the refusal time completes the refusal into CURING. Otherwise the context
goes on, and a completion that was due has been decided. FAULT raises STATION_FAULT (R166) on the record, also on one that the
same reply has just released, after the handing-on and in an update of its own: that is the model's reading (assumption log
17). That the conditions of one reply are raised in updates of their own is the model's reading too (assumption log 18). -/
def Obligations.PumpReplyMakesItsStepsInOrder : Prop :=
  ∀ (n : Nat) (l : LineId) (y : Reply) (s : State) (c : Nat) (x : Context) (r : Record) (cls : ClassEntry)
    (p q : GroutProg) (count reported delta pressure cap : Nat) (z : Slot) (back : List Cond),
    UsedReply s n l y c x r cls → x.prog = .grout p → y.data = .grout count reported →
    p.baseline < 65536 → delta < 65536 → (p.baseline + delta) % 65536 = count → pressure = min reported 100000 →
    q = { p with
      baseline := count
      total := if 32768 ≤ delta then p.total else min 4294967295 (p.total + delta)
      peak := max p.peak pressure
      refTimer := if pressure < cls.refPress then 0 else p.refTimer
      counting := decide (cls.refPress ≤ pressure), due := false } →
    cap = cls.theoVol * cls.volCap / 100 → back = (if 32768 ≤ delta then [.countSetback] else []) →
    z = raisedSlot s n .countSetback (decide (32768 ≤ delta)) (s.slotAt x.slot) →
    ∃ t, exec (.replyReceived n l y) s = .next t ∧ OnlyIn [.tbc, .cxp, .isi, .atu, .bmu] s t ∧
      ∀ held : HeldReason → Cond → Option (EndReason × Nat) → Slot,
      (∀ reason cond ending, held reason cond ending = raisedSlot s n .stationFault y.fault (updatedSlot s n
        (fun v => { heldRecord (.grout q) reason ending v with conds := addConds [cond] v.conds }) z)) →
      ∀ refused : Prop, (refused ↔ (heardContext s x).run = .running ∧ cls.refPress ≤ pressure ∧
        cls.refTime ≤ q.refTimer) →
      (cls.burst ≤ pressure → Freed s t c x (Parting.plain .stop) ∧
        SlotBecomes s t x.slot (held .burst .burst none) ∧ Told s t y x.slot r (back ++ [.burst])) ∧
      (pressure < cls.burst → cap ≤ volume q → Freed s t c x (Parting.plain .stop) ∧
        SlotBecomes s t x.slot (held .groutLoss .groutLoss (some (.volumeCap, s.wck.time))) ∧
        Told s t y x.slot r (back ++ [.groutLoss])) ∧
      (pressure < cls.burst → volume q < cap → refused → Freed s t c x (Parting.plain .stop) ∧
        SlotBecomes s t x.slot (raisedSlot s n .stationFault y.fault (updatedSlot s n (fun v => { v with
          state := .curing, context := none
          grout := some (GroutResult.mk (volume q) q.peak (some .refusal) (some s.wck.time))
          cureEnd := some (min 4294967295 (s.wck.time + cls.cure)) }) z)) ∧ Told s t y x.slot r back) ∧
      (pressure < cls.burst → volume q < cap → ¬ refused → GoesOn s t c x (.grout q) ∧
        SlotBecomes s t x.slot (raisedSlot s n .stationFault y.fault z) ∧ Told s t y x.slot r back)

/-- A used reply of a bound jack before its phase is looked at (R107, R109 to R111, R124). A load above the overload limit, or
an overrange, ends the work: HELD with reason OVERLOAD, or else OVERRANGE, the conditions raised in one update, and HOLD for
the jack. A load above the search limit without LIFTED and without a lift-off load ends a LIFTOFF: HELD with reason and
condition NO_LIFTOFF. A reply that passes keeps or takes the fault hold from its FAULT. Where the context does not run, a
fault hold is in force or the restroke register was not CLOSED, the work goes on with the hold status, the timer, the
index and the makeup count as they were; the phase changes between HOLD_A and HOLD_B alone, and the order at the recapture
of a restroke alone. FAULT raises STATION_FAULT (R166) on the record, also on one that the same reply has just released, after
the ending and in an update of its own: that is the model's reading (assumption log 17). -/
def Obligations.JackReplyIsCheckedBeforeItsPhase : Prop :=
  ∀ (n : Nat) (l : LineId) (y : Reply) (s : State) (c : Nat) (x : Context) (r : Record) (cls : ClassEntry)
    (cal : List CalPoint) (stress : Bool) (p : JackProg) (pressure stroke load : Nat)
    (high seated lifted restroking released : Bool),
    JackReply s n l y c x r cls cal stress p → y.data = .jack pressure stroke seated lifted restroking released →
    loadOf cal pressure = (load, high) →
    ∃ t, exec (.replyReceived n l y) s = .next t ∧
      ∀ (held : HeldReason → List Cond → Slot) (lost : Prop),
      (∀ reason cs, held reason cs = raisedSlot s n .stationFault y.fault (updatedSlot s n
        (fun v => { heldRecord x.prog reason none v with conds := addConds cs v.conds }) (s.slotAt x.slot))) →
      (lost ↔ stress = false ∧ p.phase = .liftoff ∧ p.liftoff = none ∧ lifted = false ∧
        searchLimit (r.lockoffLoad.getD 0) < load) →
      (∀ cs, cs = (if overloadLimit cls < load then [Cond.overload] else []) ++
          (if high = true then [Cond.overrange] else []) →
        overloadLimit cls < load ∨ high = true → Freed s t c x (Parting.plain .hold) ∧
          SlotBecomes s t x.slot (held (if overloadLimit cls < load then .overload else .overrange) cs) ∧
          Told s t y x.slot r cs ∧ OnlyIn [.tbc, .cxp, .isi, .atu, .bmu] s t) ∧
      (LoadPasses cls cal pressure → lost → Freed s t c x (Parting.plain .hold) ∧
        SlotBecomes s t x.slot (held .noLiftoff [.noLiftoff]) ∧ Told s t y x.slot r [.noLiftoff] ∧
        OnlyIn [.tbc, .cxp, .isi, .atu, .bmu] s t) ∧
      (LoadPasses cls cal pressure → ¬ lost → ¬ InFull s x p stress y.fault → ∃ q,
        GoesOn s t c x (jackProgress stress q) ∧ q.faultHold = y.fault ∧ q.holding = p.holding ∧ q.timer = p.timer ∧
        q.index = p.index ∧ q.makeups = p.makeups ∧
        (q.phase = p.phase ∨ p.phase = .holdA ∧ q.phase = .holdB ∨ p.phase = .holdB ∧ q.phase = .holdA) ∧
        (q.order = p.order ∨ p.register ≠ .closed ∧ q.register = .closed) ∧
        OnlyIn [.tbc, .cxp, .isi, .atu, .bmu] s t)

/-- A used reply of a bound jack in a band hold phase or in TEST (R97, R98, R109, R112 to R114): the restroke tests run and the
extension is formed whatever the run state. In full, a load in the band starts the hold of its duration in APPROACH,
leaves a running hold alone, and completes a pending one; a load outside it ends a running hold and drops a pending advance.
In TEST a load in the band starts the test hold with order HOLD. Not in full, a band hold phase keeps its hold status, and
TEST marks the advance that the load would have made pending. No reply in these phases touches the record but for the
STATION_FAULT (R166) of its FAULT, raised after the rest in an update of its own, which is the model's reading (assumption log
17), and the verdict LENGTH_FAIL, which is listed (R136). -/
def Obligations.BandPhaseFollowsTheLoad : Prop :=
  ∀ (n : Nat) (l : LineId) (y : Reply) (s : State) (c : Nat) (x : Context) (r : Record) (cls : ClassEntry)
    (cal : List CalPoint) (stress : Bool) (p r0 : JackProg) (pressure stroke load : Nat)
    (seated lifted restroking released : Bool) (now : LastReply),
    JackReply s n l y c x r cls cal stress p → y.data = .jack pressure stroke seated lifted restroking released →
    load = (loadOf cal pressure).1 → LoadPasses cls cal pressure → BandPhase p ∨ p.phase = .test →
    r0 = replied cls r cal stress p y.fault (min pressure 100000) load (min stroke 30000) restroking → r0.last = some now →
    ∃ t, exec (.replyReceived n l y) s = .next t ∧
      ∀ (inBand : Prop) (keeps : JackProg → Prop), (inBand ↔ Within cls (phaseLoad cls r p) load) →
      (∀ q, keeps q ↔ GoesOn s t c x (jackProgress stress q) ∧ Told s t y x.slot r [] ∧
        SlotBecomes s t x.slot (raisedSlot s n .stationFault y.fault (s.slotAt x.slot))) →
      (InFull s x p stress y.fault →
        (BandPhase p →
          (p.pendingAdv = true → inBand → HoldEnds s t n c x r cls cal stress r0 now (Told s t y x.slot r)) ∧
          (p.pendingAdv = true ∨ p.holding = true → ¬ inBand → keeps (approaching r0)) ∧
          (p.pendingAdv = false → p.holding = true → inBand → keeps r0) ∧
          (p.pendingAdv = false → p.holding = false → inBand → keeps { r0 with
            holding := true, timer := some (holdDuration cls p), elapsed := 0, counting := true }) ∧
          (p.pendingAdv = false → p.holding = false → ¬ inBand → keeps r0)) ∧
        (p.phase = .test →
          (inBand → keeps { testStarted cls r0 { ext := now.ext, load := load } with order := .hold }) ∧
          (¬ inBand → keeps { r0 with pendingAdv := false }))) ∧
      (¬ InFull s x p stress y.fault →
        (BandPhase p → keeps r0) ∧
        (p.phase = .test → (inBand → keeps { r0 with pendingAdv := true }) ∧ (¬ inBand → keeps r0)))

/-- A used reply of a bound jack in the test hold (R99, R114 to R116, R120, R121): a reply more than 20 works seconds past a time
whose reading has not been taken starts the hold again; any other gives its reading to each time it has reached, forms creep
A at the tA1 reading, which closes the hold or leads to HOLD_B, and in HOLD_B creep B at the tB1 reading. Those are made
whatever the run state. In full, a closed hold leads to UNLOAD, a failed creep B to FAILED with CREEP_FAIL and the release
order back to the datum pressure, and an undecided hold follows the load with its order and its makeup count. Not in full, a
decided hold marks its advance pending. That readings and lateness go on while an advance is pending, that the tB0 reading stays
until the advance is made, that the closing reply moves neither the order nor the makeup count, and that a late reply, which
starts the hold again, meets the load logic in full, are the model's readings (assumption log 16); so is that FAULT raises
STATION_FAULT (R166) after the rest in an update of its own (assumption log 17). -/
def Obligations.TestHoldTakesItsReadings : Prop :=
  ∀ (n : Nat) (l : LineId) (y : Reply) (s : State) (c : Nat) (x : Context) (r : Record) (cls : ClassEntry)
    (cal : List CalPoint) (stress : Bool) (p r0 j : JackProg) (pressure stroke load : Nat)
    (seated lifted restroking released : Bool) (now : Reading),
    JackReply s n l y c x r cls cal stress p → y.data = .jack pressure stroke seated lifted restroking released →
    load = (loadOf cal pressure).1 → LoadPasses cls cal pressure → p.phase = .holdA ∨ p.phase = .holdB →
    r0 = replied cls r cal stress p y.fault (min pressure 100000) load (min stroke 30000) restroking →
    now = { ext := extensionAt r0 (min stroke 30000), load := load } →
    (TestLate cls p → j = testStarted cls r0 now) → (¬ TestLate cls p → j = testJudged cls r0 now) →
    ∃ t, exec (.replyReceived n l y) s = .next t ∧
      ∀ keeps : JackProg → Prop,
      (∀ q, keeps q ↔ GoesOn s t c x (jackProgress stress q) ∧ Told s t y x.slot r [] ∧
        SlotBecomes s t x.slot (raisedSlot s n .stationFault y.fault (s.slotAt x.slot))) →
      (InFull s x p stress y.fault →
        (j.closing ≠ none → keeps (entering { j with atB0 := if j.creepB = none then none else j.atB0 } .unload 0
          (pressing cal (datumTarget cls)))) ∧
        (j.closing = none → j.creepB ≠ none → Freed s t c x (unloadParting cls cal) ∧
          Told s t y x.slot r [.creepFail] ∧ SlotBecomes s t x.slot (updatedSlot s n
            (failedRecord (verdictResult cls j .creepFail none none) .creepFail) (s.slotAt x.slot))) ∧
        (j.closing = none → j.creepB = none → keeps (loadFollowed cls cal j load))) ∧
      (¬ InFull s x p stress y.fault →
        (j.closing ≠ none ∨ j.creepB ≠ none → keeps { j with pendingAdv := true }) ∧
        (j.closing = none → j.creepB = none → keeps j))

/-- A used reply of a bound jack in SEATING, LIFTOFF and FREE (R10, R103, R104, R119 to R121, R124 to R126). The first SEATED reply
gives the stroke after seating, the first LIFTED one the lift-off load, written into the record, with its steps; both
whatever the run state. In full: the residual in its window makes the record LOCKED with its stress result and the lock-off
load, the entry of its position moving to it where it replaces the live record; a residual outside it makes it FAILED with
LOCKOFF_FAIL; either way IDLE for the jack. A fixed lift-off load leads to STEP 1, or with no steps to FREE. A RELEASED
reply below 500 kPa in FREE retires the record DESTRESSED, with IDLE for the jack, for a record that links to itself neither way,
as no record does. Not in full, each marks its advance pending. FAULT raises STATION_FAULT (R166) on the record after what the
reply itself changes, the lift-off load among it, in an update of its own: that is the model's reading (assumption log 17). What
the attention list then holds is said where SRQ keeps the turn from ending the scan. -/
def Obligations.SeatingAndReleaseEndTheWork : Prop :=
  ∀ (n : Nat) (l : LineId) (y : Reply) (s : State) (c : Nat) (x : Context) (r : Record) (cls : ClassEntry)
    (cal : List CalPoint) (stress : Bool) (p r0 : JackProg) (pressure stroke load : Nat)
    (seated lifted restroking released : Bool),
    JackReply s n l y c x r cls cal stress p → y.data = .jack pressure stroke seated lifted restroking released →
    load = (loadOf cal pressure).1 → LoadPasses cls cal pressure →
    r0 = replied cls r cal stress p y.fault (min pressure 100000) load (min stroke 30000) restroking →
    ∃ t, exec (.replyReceived n l y) s = .next t ∧
      ∀ keeps : JackProg → Slot → Prop,
      (∀ q z, keeps q z ↔ GoesOn s t c x (jackProgress stress q) ∧ Told s t y x.slot r [] ∧
        SlotBecomes s t x.slot (raisedSlot s n .stationFault y.fault z)) →
      (p.phase = .seating → ∀ j, j = (if seated = true ∧ p.afterSeat = none then
          { r0 with afterSeat := some (min stroke 30000) } else r0) →
        (¬ InFull s x p stress y.fault →
          keeps (if j.afterSeat = none then j else { j with pendingAdv := true }) (s.slotAt x.slot)) ∧
        (InFull s x p stress y.fault →
          (j.beforeSeat = none ∨ j.afterSeat = none → keeps j (s.slotAt x.slot)) ∧
          ∀ before at0 at1 gone residual seat, j.beforeSeat = some (before, at0) → j.afterSeat = some at1 →
            gone = at0 - at1 → residual = residualLoad cls before gone (j.freeLength.getD 0) →
            seat = some (jackLockoff cls r, gone, residual) → Freed s t c x (Parting.plain .idle) ∧
            (lockoffPasses cls residual = false → Told s t y x.slot r [.lockoffFail] ∧
              SlotBecomes s t x.slot (updatedSlot s n
                (failedRecord (verdictResult cls j .lockoffFail j.freeLength seat) .lockoffFail) (s.slotAt x.slot))) ∧
            (lockoffPasses cls residual = true → Told s t y x.slot r [] ∧
              t.slotAt x.slot = updatedSlot s n (fun v => { v with
                state := .locked, context := none, lockoffLoad := some residual
                stress := some (verdictResult cls j .pass j.freeLength seat) }) (s.slotAt x.slot) ∧
              (∀ m, m ≠ x.slot → t.slotAt m = s.slotAt m) ∧
              t.tbc = { s.tbc with slots := t.tbc.slots, map := t.tbc.map } ∧
              (∀ m, r.replaces = some m → s.liveAt r.row r.bay = some m →
                t.liveAt r.row r.bay = some x.slot ∧ t.isi = s.isi.handed [.slot x.slot, .slot m] ∧
                ∀ key, key ≠ posKey r.row r.bay → t.tbc.map.get? key = s.tbc.map.get? key) ∧
              ((∀ m, r.replaces = some m → s.liveAt r.row r.bay ≠ some m) →
                t.tbc.map = s.tbc.map ∧ t.isi = s.isi.handed [.slot x.slot])))) ∧
      (stress = false → p.phase = .liftoff →
        (p.liftoff = none → lifted = false → load ≤ searchLimit (r.lockoffLoad.getD 0) → keeps r0 (s.slotAt x.slot)) ∧
        (p.liftoff ≠ none ∨ lifted = true → ∀ j z,
          j = (if p.liftoff = none then { r0 with
              liftoff := some load
              steps := (stepTargets load cls.destStep).map (fun k => (k, (pressureOf cal k).1)) } else r0) →
          z = (if p.liftoff = none then updatedSlot s n (fun v => { v with liftoffLoad := some load }) (s.slotAt x.slot)
            else s.slotAt x.slot) →
          (InFull s x p stress y.fault →
            (j.steps = [] → keeps (entering j .free 0 .free) z) ∧
            ∀ target kpa rest, j.steps = (target, kpa) :: rest → keeps (entering j .step 1 (.pressure kpa)) z) ∧
          (¬ InFull s x p stress y.fault → keeps { j with pendingAdv := true } z))) ∧
      (p.phase = .free → ∀ free : Prop, (free ↔ released = true ∧ min pressure 100000 < 500) →
        (¬ free → InFull s x p stress y.fault → keeps { r0 with pendingAdv := false } (s.slotAt x.slot)) ∧
        (¬ free → ¬ InFull s x p stress y.fault → keeps r0 (s.slotAt x.slot)) ∧
        (free → ¬ InFull s x p stress y.fault → keeps { r0 with pendingAdv := true } (s.slotAt x.slot)) ∧
        (free → InFull s x p stress y.fault → r.replaces ≠ some x.slot → r.replacedBy ≠ some x.slot →
          Freed s t c x (Parting.plain .idle) ∧ RetiresRecord s t x.slot n .destressed r r ∧
          (y.srq = true → t.atu = (s.atu.drop (fun e => e.subject = .record x.slot)).sound s.tbc.site.alarm)))

/-! ## Classes, site settings, dig release and calibration (chapters 2 and 5) -/

/-- CLASS_WRITE (R28 to R30, R183). A class number above 15 or a part with a value out of range is BAD_VALUE. A part 1 in
range is staged. An entry is made UNSET, or, by a part 2 that completes the staged part of its class to a consistent entry,
replaced as a whole with the defaults of Table 2-1, unless a record in a work state names the class: IN_USE. A part 2 with no
part staged for its class is WRONG_STATE, one that gives an inconsistent entry BAD_VALUE. The header is handed to the write
queue only where the entry changes, and the staged part is gone. Each ANSWER echoes the part number. The place of WRONG_STATE
among the checks of a part 2, and that UNSET is answered as part 1, are the model's choices (assumption log 30, 32). -/
def Obligations.ClassWriteReplacesTheWholeEntry : Prop :=
  ∀ (h : Ask) (cls : Nat) (s : State), Served s h .classWrite →
    (∀ part, 16 ≤ cls ∨ ¬ PartOneInRange part →
      exec (.classWritePart1 h cls part) s = .next (Answered s h .classWrite .badValue [.u8 1])) ∧
    (∀ part, cls < 16 → PartOneInRange part → exec (.classWritePart1 h cls part) s = .next { s with
      tbc := { s.tbc with staged := some (cls, part) }
      bmu := s.bmu.answering h (answerTo .classWrite .done [.u8 1]) }) ∧
    (16 ≤ cls → exec (.classWrite h cls .unset) s = .next (Answered s h .classWrite .badValue [.u8 1])) ∧
    (∀ f, 16 ≤ cls ∨ ¬ PartTwoInRange f →
      exec (.classWrite h cls (.part2 f)) s = .next (Answered s h .classWrite .badValue [.u8 2])) ∧
    (∀ f, cls < 16 → PartTwoInRange f →
      ((∀ p, s.tbc.staged ≠ some (cls, p)) →
        exec (.classWrite h cls (.part2 f)) s = .next (Answered s h .classWrite .wrongState [.u8 2])) ∧
      ∀ p, s.tbc.staged = some (cls, p) → ¬ EntryConsistent (joinParts p f) →
        exec (.classWrite h cls (.part2 f)) s = .next (Answered s h .classWrite .badValue [.u8 2])) ∧
    (∀ form entry part, cls < 16 → TableLaw s → (form = .unset ∧ entry = none ∧ part = 1 ∨ part = 2 ∧ ∃ p f,
        form = .part2 f ∧ PartTwoInRange f ∧ s.tbc.staged = some (cls, p) ∧ EntryConsistent (joinParts p f) ∧
        entry = some (joinParts p f)) →
      ((∃ n r, s.recAt n = some r ∧ r.cls = cls ∧ r.state.isWork = true) →
        exec (.classWrite h cls form) s = .next (Answered s h .classWrite .inUse [.u8 part])) ∧
      ((∀ n r, s.recAt n = some r → r.cls = cls → r.state.isWork = false) →
        ∃ t, exec (.classWrite h cls form) s = .next t ∧ t.classAt cls = entry ∧
          (∀ d, d ≠ cls → t.classAt d = s.classAt d) ∧
          t.tbc = { s.tbc with classes := t.tbc.classes, staged := none } ∧
          t.isi = (if s.classAt cls = entry then s.isi else s.isi.handed [.header]) ∧
          t.bmu = s.bmu.answering h (answerTo .classWrite .done [.u8 part]) ∧
          OnlyIn [.tbc, .isi, .bmu] s t))

/-- SITE_WRITE (R34, R38, R65): a carried value out of range is BAD_VALUE; with every one in range, a carried span that would
make two bound contexts a near conflicting pair is refused CONFLICT and another time scale while a context is bound or a
record is CURING IN_USE; otherwise every carried value is set in the one event, every other setting and the dig row and
relieved flags are kept, and the header is handed to the write queue where a value differs. The ANSWER of a write that begins
a site stop goes before the ALLSTOP of that stop (R168). The order of its effects within the event is the model's choice
(assumption log 19). -/
def Obligations.SiteWriteSetsTheCarriedSettings : Prop :=
  ∀ (h : Ask) (x : SiteItems) (s : State), Served s h .siteWrite →
    (¬ SiteInRange x s.sys.mode → exec (.siteWrite h x) s = .next (Answered s h .siteWrite .badValue [])) ∧
    (SiteInRange x s.sys.mode → ∀ conflict inUse : Bool,
    conflict = (x.span.any (fun n => decide (s.tbc.site.span < n) && pairAtSpan s n)) →
    inUse = (x.scale.any (fun n => decide (n ≠ s.wck.scale)) && (!s.cxp.contexts.isEmpty ||
      s.tbc.slots.any (fun p => p.2.rec?.any (fun r => decide (r.state = .curing))))) →
    (conflict = true → exec (.siteWrite h x) s = .next (Answered s h .siteWrite .conflict [])) ∧
    (conflict = false → inUse = true → exec (.siteWrite h x) s = .next (Answered s h .siteWrite .inUse [])) ∧
    (conflict = false → inUse = false → ∃ t, exec (.siteWrite h x) s = .next t ∧
      t.tbc.site.span = x.span.getD s.tbc.site.span ∧ t.tbc.site.alarm = x.alarm.getD s.tbc.site.alarm ∧
      t.tbc.site.drift = x.drift.getD s.tbc.site.drift ∧ t.tbc.site.scanMin = x.scanMin.getD s.tbc.site.scanMin ∧
      t.tbc.site.silence = x.silence.getD s.tbc.site.silence ∧
      t.tbc.site.suspend = x.suspend.getD s.tbc.site.suspend ∧
      (∀ i : Fin 17, t.tbc.site.levels[i] = x.levels[i].getD s.tbc.site.levels[i]) ∧
      (∀ i : Fin 4, x.inputs[i] = none → t.tbc.site.inputs[i] = s.tbc.site.inputs[i]) ∧
      (∀ (i : Fin 4) (y : InputCodes), x.inputs[i] = some y → (t.tbc.site.inputs[i].enabled = true ↔ y.enable = 1) ∧
        (t.tbc.site.inputs[i].asserts = .opened ↔ y.polarity = 1) ∧ t.tbc.site.inputs[i].filter = y.filter ∧
        codeIn InputFunction.all t.tbc.site.inputs[i].function = y.function) ∧
      t.tbc.site.digRow = s.tbc.site.digRow ∧ t.tbc.site.relieved = s.tbc.site.relieved ∧
      t.tbc = { s.tbc with site := t.tbc.site } ∧ t.wck = { s.wck with scale := x.scale.getD s.wck.scale } ∧
      t.isi = (if t.tbc.site = s.tbc.site ∧ t.wck.scale = s.wck.scale then s.isi else s.isi.handed [.header]) ∧
      (t.atu.alm = true ↔ ∃ e ∈ t.atu.entries, t.tbc.site.alarm ≤ e.level) ∧
      t.bmu.exchange = .answer h (answerTo .siteWrite .done [])
        (if s.ifu.stop = none ∧ t.ifu.stop ≠ none then .allstop else .nothing) ∧
      t.bmu.tx = [.frame h.line (.answer h.station (answerTo .siteWrite .done []))] ∧
      OnlyIn [.tbc, .wck, .atu, .cxp, .ifu, .isi, .bmu] s t))

/-- What a taken SITE_WRITE does beside setting its values (R138, R141, R149). The attention list is re-levelled kind by kind in
ascending priority: the entries of a kind take its new level in their places, or leave at level 0, and at another level every
marked subject without an entry is entered now, in ascending subject rank. A changed filter code restarts that input's filter.
Then the signals are formed afresh and acted on: a stop demand with the site CLEAR begins a site stop, a stop in force stays,
and the key state follows the key combination. That the list is re-levelled before the inputs are acted on is the model's
choice (assumption log 19). -/
def Obligations.SiteWriteRelevelsTheListAndTheInputs : Prop :=
  ∀ (h : Ask) (x : SiteItems) (s : State), Served s h .siteWrite → SiteInRange x s.sys.mode →
    (x.span.any (fun n => decide (s.tbc.site.span < n) && pairAtSpan s n)) = false →
    (x.scale.any (fun n => decide (n ≠ s.wck.scale)) && (!s.cxp.contexts.isEmpty ||
      s.tbc.slots.any (fun p => p.2.rec?.any (fun r => decide (r.state = .curing))))) = false →
    ∃ t u, exec (.siteWrite h x) s = .next t ∧
      InputsTaken { s with
          tbc := { s.tbc with site := t.tbc.site }, wck := { s.wck with scale := t.wck.scale }
          atu := listRelevelled s t.tbc.site } u
        (Vector.ofFn (fun i => refiltered s.tbc.site.inputs[i] t.tbc.site.inputs[i] s.ifu.inputs[i])) ∧
      t = { u with isi := t.isi, bmu := { u.bmu with exchange := t.bmu.exchange, tx := t.bmu.tx } }

/-- The reads of chapters 2, 5, 7, 8 and 9 answer DONE and change nothing else (R31, R35, R92, R140, R153, R163): SITE_READ with
the site settings, the time scale and the start-up mode; CLASS_READ in three parts with the status, the in-use flag and the
record count, and for a SET entry its fields and its derived loads; CAL_READ with the kind, the bound flag, the status and the
points, and in part 2 with the result of each probe on a SET table; INPUT_READ with the inputs, the signals, the stop origin and
the key timer; STATION_READ and LINE_READ with the entry and the line. ATTENTION_READ answers up to six entries from the start position in list order, the
number of entries, the highest level present (0 when the list is empty) and the overflow count as it stood, which the reset
flag then sets to 0. A class, a station, a line, a part, a probe or a start position out of range is BAD_VALUE. The layout of
these answers where chapter 11 gives none, that a JACK's kind parameter, its calibration table, is absent from STATION_READ, the
part number at their head, and the identity of the site are the model's choices (assumption log 13, 32, 35). -/
def Obligations.ReadsAnswerAndChangeNothing : Prop :=
  ∀ (h : Ask) (s : State),
    (Served s h .siteRead → exec (.siteRead h) s = .next (Answered s h .siteRead .done
      (s.tbc.site.fields ++ [.u8 s.wck.scale, enum8 StartMode.all s.sys.mode]))) ∧
    (∀ cls part, Served s h .classRead → cls < 16 → 1 ≤ part → part ≤ 3 → ∃ inUse count,
      exec (.classRead h cls part) s = .next (Answered s h .classRead .done
        (.u8 part :: classAnswer (s.classAt cls) inUse count part)) ∧
      (TableLaw s → ClassFigures s cls inUse count)) ∧
    (∀ cls part, Served s h .classRead → 16 ≤ cls ∨ part = 0 ∨ 3 < part →
      exec (.classRead h cls part) s = .next (Answered s h .classRead .badValue [.u8 part])) ∧
    (∀ n part pressure load, Served s h .calRead → n = 0 ∨ 15 < n ∨ part = 0 ∨ 2 < part ∨
        (∃ p, pressure = some p ∧ 100000 < p) ∨ (∃ l, load = some l ∧ 30000 < l) →
      exec (.calRead h part n pressure load) s = .next (Answered s h .calRead .badValue [.u8 part])) ∧
    (∀ n, Served s h .stationRead → 16 ≤ n →
      exec (.stationRead h n) s = .next (Answered s h .stationRead .badValue [])) ∧
    (∀ n, Served s h .lineRead → n = 0 ∨ 2 < n → exec (.lineRead h n) s = .next (Answered s h .lineRead .badValue [])) ∧
    (∀ n part pressure load, Served s h .calRead → 1 ≤ n → n ≤ 15 → 1 ≤ part → part ≤ 2 →
      (∀ p, pressure = some p → p ≤ 100000) → (∀ l, load = some l → l ≤ 30000) →
      exec (.calRead h part n pressure load) s = .next (Answered s h .calRead .done
        (.u8 part :: calAnswer s n part pressure load))) ∧
    (Served s h .inputRead → exec (.inputRead h) s = .next (Answered s h .inputRead .done (inputsAnswer s))) ∧
    (∀ n, Served s h .stationRead → n < 16 → exec (.stationRead h n) s = .next (Answered s h .stationRead .done
      ([enum8 StationKind.all (s.stationAt n).kind, enum8 StationState.all (s.stationAt n).state,
        .u8 (s.stationAt n).retry, .u8 (flags [(s.stationAt n).inhibits.a, (s.stationAt n).inhibits.b]),
        enum8 LineId.all (s.stationAt n).preferred, .u8 (s.stationAt n).failures, flag8 (s.stationAt n).faultMark] ++
        masked [ (s.stationAt n).lastError.map (fun e => [enum8 FrameError.all e]),
          (s.stationAt n).ctx.map (fun c => [.u8 c]), (s.stationAt n).param.map (fun p => [.u16 p]),
          (s.stationAt n).telemetry.map telemetryFields ]))) ∧
    (∀ l, Served s h .lineRead → exec (.lineRead h (codeIn LineId.all l)) s = .next (Answered s h .lineRead .done
      ([enum8 LineState.all (s.lineAt l).state, .u8 (s.lineAt l).timeout, .u8 (s.lineAt l).gap, .u16 (s.lineAt l).noise,
        .u16 (s.lineAt l).lastTally, .u8 (s.lineAt l).lastAttempts, .u8 (s.lineAt l).lastSuccesses,
        .u8 (flags [(s.lineAt l).faultMark, (s.lineAt l).noiseMark])] ++
        masked [(s.lineAt l).test.map LineTest.fields]))) ∧
    ∀ start reset, Served s h .attentionRead →
      (63 < start → exec (.attentionRead h start reset) s = .next (Answered s h .attentionRead .badValue [])) ∧
      (start ≤ 63 → ∃ top, exec (.attentionRead h start reset) s = .next { s with
          atu := { s.atu with overflow := if reset then 0 else s.atu.overflow }
          bmu := s.bmu.answering h (answerTo .attentionRead .done
            (counted (((s.atu.entries.drop start).take 6).map (fun e => [.u8 e.subject.kindCode, .u16 e.subject.ident,
              enum8 Cond.all e.cond, .u8 e.level, .u32 e.time])) ++
              [.u8 s.atu.entries.length, .u8 top, .u8 s.atu.overflow])) } ∧
        (∀ e ∈ s.atu.entries, e.level ≤ top) ∧ (top = 0 ∨ ∃ e ∈ s.atu.entries, e.level = top))

/-- DIG_QUERY (R40): the answer holds the query value, the present dig row and, below row 12, the blocking row with the number
and the lowest slot of its live records that are not LOCKED; at 12 none of these. Nothing changes. DIG_SET (R41): a row above
12 is BAD_VALUE; one above both the present dig row and the query value is refused RELIED_ON with the query value, the
blocking row, the count and the lowest slot; any other is taken, sets the dig row, and hands the header to the write queue
where it changed. The layout of both answers, zeros for the row and the count and an absent slot behind a mask at 12, and no
mask in a refused DIG_SET, is the model's choice (assumption log 13). -/
def Obligations.DigReleaseStopsAtTheQueryValue : Prop :=
  (∀ (h : Ask) (s : State), Served s h .digQuery → TableLaw s → ∃ q low, QueryValue s q ∧
    exec (.digQuery h) s = .next (Answered s h .digQuery .done
      ([.u8 q, .u8 s.tbc.site.digRow, .u8 (if q < 12 then q + 1 else 0),
        .u16 (if q < 12 then blockCount s (q + 1) else 0)] ++ masked [low.map (fun n => [.u16 n])])) ∧
    (q = 12 → low = none) ∧
    (q < 12 → 1 ≤ blockCount s (q + 1) ∧ ∃ n, low = some n ∧ Blocks s (q + 1) n ∧
      ∀ m, Blocks s (q + 1) m → n ≤ m)) ∧
  ∀ (h : Ask) (row : Nat) (s : State) (q : Nat), Served s h .digSet → TableLaw s → QueryValue s q →
    (12 < row → exec (.digSet h row) s = .next (Answered s h .digSet .badValue [])) ∧
    (∀ n, row ≤ 12 → s.tbc.site.digRow < row → q < row → Blocks s (q + 1) n → (∀ m, Blocks s (q + 1) m → n ≤ m) →
      exec (.digSet h row) s = .next (Answered s h .digSet .reliedOn
        [.u8 q, .u8 (q + 1), .u16 (blockCount s (q + 1)), .u16 n])) ∧
    (row ≤ 12 → row ≤ s.tbc.site.digRow ∨ row ≤ q → exec (.digSet h row) s = .next { s with
      tbc := { s.tbc with site := { s.tbc.site with digRow := row } }
      isi := if row = s.tbc.site.digRow then s.isi else s.isi.handed [.header]
      bmu := s.bmu.answering h (answerTo .digSet .done [.u8 row]) })

/-- RELIEVE (R42, R43): SET sets the row's flag in every case; CLEAR of a set flag is refused RELIED_ON where the row is not
below the dig row and some live record in it is not LOCKED, then IN_USE where a bound DESTRESS context names a record in it,
and otherwise clears the flag; the header is handed to the write queue where the flag changed. A row outside 1 to 12 is
BAD_VALUE. -/
def Obligations.RelieveSetsAndClearsTheFlag : Prop :=
  ∀ (h : Ask) (row : Nat) (s : State), Served s h .relieve → TableLaw s → WorkLaw s →
    (row = 0 ∨ 12 < row → exec (.relieveSet h row) s = .next (Answered s h .relieve .badValue []) ∧
      exec (.relieveClear h row) s = .next (Answered s h .relieve .badValue [])) ∧
    (1 ≤ row → row ≤ 12 → ∀ on : Bool, ∀ cmd, (on = true ∧ cmd = .relieveSet h row ∨ on = false ∧
        cmd = .relieveClear h row ∧ (s.isRelieved row = true →
          (s.tbc.site.digRow < row ∨ AllLocked s row) ∧
          ∀ c x r, s.ctxAt c = some x → x.prog.kind = .destress → s.recAt x.slot = some r → r.row ≠ row)) →
      ∃ t, exec cmd s = .next t ∧
        (∀ m, 1 ≤ m → m ≤ 12 → t.isRelieved m = if m = row then on else s.isRelieved m) ∧
        t.tbc = { s.tbc with site := { s.tbc.site with relieved := t.tbc.site.relieved } } ∧
        t.isi = (if s.isRelieved row = on then s.isi else s.isi.handed [.header]) ∧
        t.bmu = s.bmu.answering h (answerTo .relieve .done []) ∧ OnlyIn [.tbc, .isi, .bmu] s t) ∧
    (1 ≤ row → row ≤ 12 → s.isRelieved row = true →
      (row ≤ s.tbc.site.digRow → ¬ AllLocked s row →
        exec (.relieveClear h row) s = .next (Answered s h .relieve .reliedOn [])) ∧
      (s.tbc.site.digRow < row ∨ AllLocked s row →
        (∃ c x r, s.ctxAt c = some x ∧ x.prog.kind = .destress ∧ s.recAt x.slot = some r ∧ r.row = row) →
        exec (.relieveClear h row) s = .next (Answered s h .relieve .inUse [])))

/-- CAL_WRITE (R90, R91): a station outside 1 to 15, or a list that is not 2 to 8 points in range with pressures and loads both
rising from point to point, is BAD_VALUE; a station that is not a JACK is WRONG_KIND and a bound one STATION_BOUND; otherwise
the table is replaced as a whole and the header handed to the write queue where it changed, and the answer carries the last
calibration load, or none for UNSET. That the load stands behind a mask is the model's choice (assumption log 13). -/
def Obligations.CalWriteReplacesTheTable : Prop :=
  ∀ (h : Ask) (n : Nat) (points : Option (List CalPoint)) (s : State), Served s h .calWrite →
    ∀ good : Prop, (good ↔ 1 ≤ n ∧ n ≤ 15 ∧ ∀ ps, points = some ps → 2 ≤ ps.length ∧ ps.length ≤ 8 ∧
      (∀ p ∈ ps, 1 ≤ p.pressure ∧ p.pressure ≤ 100000 ∧ 1 ≤ p.load ∧ p.load ≤ 30000) ∧
      ps.Pairwise (fun a b => a.pressure < b.pressure) ∧ ps.Pairwise (fun a b => a.load < b.load)) →
    (¬ good → exec (.calWrite h n points) s = .next (Answered s h .calWrite .badValue [])) ∧
    (good → (s.stationAt n).kind ≠ .jack →
      exec (.calWrite h n points) s = .next (Answered s h .calWrite .wrongKind [])) ∧
    (good → (s.stationAt n).kind = .jack → (s.stationAt n).ctx ≠ none →
      exec (.calWrite h n points) s = .next (Answered s h .calWrite .stationBound [])) ∧
    (good → (s.stationAt n).kind = .jack → (s.stationAt n).ctx = none →
      ∃ t, exec (.calWrite h n points) s = .next t ∧ t.calAt n = points ∧ (∀ m, m ≠ n → t.calAt m = s.calAt m) ∧
        t.isi = (if s.calAt n = points then s.isi else s.isi.handed [.header]) ∧
        t.bmu = s.bmu.answering h (answerTo .calWrite .done (masked [points.map (fun ps => [.u16
          ((ps.getLast?.map CalPoint.load).getD 0)])])) ∧
        OnlyIn [.cals, .isi, .bmu] s t)

/-! ## Monitor bindings, conditions, the clock and the inputs (chapters 3, 7 and 8) -/

/-- BIND and UNBIND (R129, R130): on a LOCKED record, BIND to a channel of a MONITOR station that no other slot holds makes one
update of the binding and moves the channel map with it; UNBIND takes both away; a repeat changes nothing. Their own checks:
WRONG_STATE, WRONG_KIND, BAD_VALUE, OCCUPIED. -/
def Obligations.BindAndUnbindMoveTheChannel : Prop :=
  ∀ (h : Ask) (slot rev : Nat) (s : State) (r : Record), slot < 512 → s.recAt slot = some r → rev = s.revAt slot →
    (Served s h .bind → ∀ b : Binding, 1 ≤ b.station → b.station ≤ 15 → b.channel ≤ 7 →
      (r.state ≠ .locked →
        exec (.bind h slot rev b.station b.channel) s = .next (Answered s h .bind .wrongState [])) ∧
      (r.state = .locked → (s.stationAt b.station).kind ≠ .monitor →
        exec (.bind h slot rev b.station b.channel) s = .next (Answered s h .bind .wrongKind [])) ∧
      (r.state = .locked → (s.stationAt b.station).kind = .monitor →
        (s.stationAt b.station).param.getD 0 ≤ b.channel →
        exec (.bind h slot rev b.station b.channel) s = .next (Answered s h .bind .badValue [])) ∧
      (∀ m, r.state = .locked → (s.stationAt b.station).kind = .monitor →
        b.channel < (s.stationAt b.station).param.getD 0 → s.channels.get? (channelKey b) = some m → m ≠ slot →
        exec (.bind h slot rev b.station b.channel) s = .next (Answered s h .bind .occupied [])) ∧
      (r.state = .locked → (s.stationAt b.station).kind = .monitor →
        b.channel < (s.stationAt b.station).param.getD 0 →
        (s.channels.get? (channelKey b) = none ∨ s.channels.get? (channelKey b) = some slot) →
        ∃ t, exec (.bind h slot rev b.station b.channel) s = .next t ∧
          RecordUpdate s t slot h.station r { r with binding := some b } ∧
          t.channels = (if r.binding = some b then s.channels else
            (match r.binding with
              | some old => s.channels.erase (channelKey old)
              | none => s.channels).put (channelKey b) slot) ∧
          t.bmu = s.bmu.answering h
            (answerTo .bind .done [.u16 (revAfter s slot r { r with binding := some b })]) ∧
          OnlyIn [.tbc, .isi, .channels, .bmu] s t)) ∧
    (Served s h .unbind →
      (r.state ≠ .locked → exec (.unbind h slot rev) s = .next (Answered s h .unbind .wrongState [])) ∧
      (r.state = .locked → ∃ t, exec (.unbind h slot rev) s = .next t ∧
        RecordUpdate s t slot h.station r { r with binding := none } ∧
        t.channels = (match r.binding with
          | some old => s.channels.erase (channelKey old)
          | none => s.channels) ∧
        t.bmu = s.bmu.answering h (answerTo .unbind .done [.u16 (revAfter s slot r { r with binding := none })]) ∧
        OnlyIn [.tbc, .isi, .channels, .bmu] s t))

/-- CLEAR (R139): a condition that stands is removed from its subject and its entry from the list, on a record in one
update; one that does not stand changes nothing. SITE_STOP while a site stop is in force, and IMAGE_SUSPECT of a SUSPECT
record, are refused WRONG_STATE; a record subject whose slot is FREE NO_RECORD; a condition outside Table 7-1 or one that it does
not give for the subject, and an identity out of range, BAD_VALUE. Of the bus, beside the ANSWER, the mark alone is removed. That
the ANSWER has no mask and holds nothing for a subject that is no record (assumption log 13), that it carries the revision of
a record whether it has changed or not, and the site's identity 0 (assumption log 35) are the model's. -/
def Obligations.ClearRemovesACondition : Prop :=
  ∀ (h : Ask) (s : State) (c : Cond), Served s h .clear →
    (∀ kind ident, (∀ subj, subj.kindCode = kind → subj.ident = ident → c.allowedOn subj = false) →
      exec (.clear h kind ident (codeIn Cond.all c)) s = .next (Answered s h .clear .badValue [])) ∧
    (∀ kind ident code, code = 0 ∨ 20 < code ∨ kind = 1 ∧ 512 ≤ ident ∨ kind = 2 ∧ 16 ≤ ident →
      exec (.clear h kind ident code) s = .next (Answered s h .clear .badValue [])) ∧
    (∀ n, n < 512 → c ≠ .siteStop → c ≠ .lineFault → c ≠ .lineNoise →
      (s.recAt n = none →
        exec (.clear h 1 n (codeIn Cond.all c)) s = .next (Answered s h .clear .noRecord [])) ∧
      (∀ r, s.recAt n = some r → c = .imageSuspect → r.state = .suspect →
        exec (.clear h 1 n (codeIn Cond.all c)) s = .next (Answered s h .clear .wrongState [])) ∧
      (∀ r, s.recAt n = some r → ¬ (c = .imageSuspect ∧ r.state = .suspect) →
        ∃ t, exec (.clear h 1 n (codeIn Cond.all c)) s = .next t ∧
          RecordUpdate s t n h.station r { r with conds := r.conds.filter (fun d => d ≠ c) } ∧
          t.atu = (if c ∈ r.conds then
            (s.atu.drop (fun e => e.subject = .record n ∧ e.cond = c)).sound s.tbc.site.alarm else s.atu) ∧
          t.bmu = s.bmu.answering h (answerTo .clear .done
            [.u16 (revAfter s n r { r with conds := r.conds.filter (fun d => d ≠ c) })]) ∧
          OnlyIn [.tbc, .isi, .atu, .bmu] s t)) ∧
    (s.ifu.stop ≠ none → exec (.clear h 4 0 (codeIn Cond.all .siteStop)) s = .next (Answered s h .clear .wrongState [])) ∧
    (s.ifu.stop = none → exec (.clear h 4 0 (codeIn Cond.all .siteStop)) s = .next (Answered s h .clear .done [])) ∧
    (∀ subj, (∃ n, n < 16 ∧ subj = .station n ∧ c = .stationFault) ∨
        (∃ l, subj = .line l ∧ (c = .lineFault ∨ c = .lineNoise)) ∨
        subj = .site ∧ (c = .imageSuspect ∨ c = .imageWrite) →
      ∃ t, exec (.clear h subj.kindCode subj.ident (codeIn Cond.all c)) s = .next t ∧ t.marked subj c = false ∧
        (∀ other d, (other, d) ≠ (subj, c) → t.marked other d = s.marked other d) ∧
        t.atu = (if s.marked subj c then
          (s.atu.drop (fun e => e.subject = subj ∧ e.cond = c)).sound s.tbc.site.alarm else s.atu) ∧
        t.bmu = { s.bmu with stations := t.bmu.stations, lineA := t.bmu.lineA, lineB := t.bmu.lineB }.answering h
          (answerTo .clear .done []) ∧
        (∀ n, t.stationAt n = { s.stationAt n with faultMark := (t.stationAt n).faultMark }) ∧
        (∀ l, t.lineAt l = { s.lineAt l with
          faultMark := (t.lineAt l).faultMark, noiseMark := (t.lineAt l).noiseMark }) ∧
        t.isi = { s.isi with suspectMark := t.isi.suspectMark, writeMark := t.isi.writeMark } ∧
        OnlyIn [.isi, .atu, .bmu] s t)

/-- TIME_SET (R64, R86): a value below works time is BAD_VALUE with the present time and clock state; the present time with the
clock running changes nothing; otherwise works time is set, the clock runs, the header is handed to the write queue, and every
CURING record whose cure end is reached becomes READY, for station 31, in ascending slot order. No context timer moves. That
the header is handed before the slots of those cures is the model's reading (assumption log 19), and that the present time with
the clock running makes no expiry check its choice (assumption log 42). -/
def Obligations.TimeSetStartsTheClock : Prop :=
  ∀ (h : Ask) (time : Nat) (s : State), Served s h .timeSet → time ≤ 4294967295 →
    (time < s.wck.time → exec (.timeSet h time) s = .next (Answered s h .timeSet .badValue
      [.u32 s.wck.time, .u8 (if s.wck.clock = .running then 1 else 2)])) ∧
    (time = s.wck.time → s.wck.clock = .running →
      exec (.timeSet h time) s = .next (Answered s h .timeSet .done [.u32 time])) ∧
    (s.wck.time ≤ time → (time = s.wck.time → s.wck.clock = .held) → TableLaw s →
      ∀ due : Nat → Bool, (∀ n, due n = (s.recAt n).any (fun r => decide (r.state = .curing) &&
        r.cureEnd.any (fun e => decide (e ≤ time)))) →
      ∃ t, exec (.timeSet h time) s = .next t ∧ t.wck = { s.wck with time := time, clock := .running } ∧
        (∀ n r, due n = true → s.recAt n = some r → t.slotAt n =
          Slot.mk ((s.revAt n + 1) % 65536) (some { r with state := .ready, stamp := { time := time, station := 31 } })) ∧
        (∀ n, due n = false → t.slotAt n = s.slotAt n) ∧ t.tbc = { s.tbc with slots := t.tbc.slots } ∧
        t.isi = s.isi.handed (.header :: ((List.range 512).filter due).map Item.slot) ∧
        t.bmu = s.bmu.answering h (answerTo .timeSet .done [.u32 time]) ∧ OnlyIn [.tbc, .wck, .isi, .bmu] s t)

/-- RELEASE (R148): with the site CLEAR it is answered DONE and changes nothing; with a stop demand it is WRONG_STATE; with an
input of function PERMIT and no permit present it is NOT_PERMITTED; otherwise the site stop ends: its origin and SITE_STOP are
gone, every STOPPED context runs and no other moves, and no ALLSTOP is owed. Every answer carries the readings of the four
inputs, as one byte with a bit for each, which is the model's layout (assumption log 13). -/
def Obligations.ReleaseEndsASiteStop : Prop :=
  ∀ (h : Ask) (s : State), Served s h .release → ∀ body, body = [inputReadings s] →
    (s.ifu.stop = none → exec (.release h) s = .next (Answered s h .release .done body)) ∧
    (s.ifu.stop ≠ none → stopDemand s.tbc.site s.ifu = true →
      exec (.release h) s = .next (Answered s h .release .wrongState body)) ∧
    (s.ifu.stop ≠ none → stopDemand s.tbc.site s.ifu = false →
      (∃ i : Fin 4, s.tbc.site.inputs[i].function = .permit) → permitPresent s.tbc.site s.ifu = false →
      exec (.release h) s = .next (Answered s h .release .notPermitted body)) ∧
    (s.ifu.stop ≠ none → stopDemand s.tbc.site s.ifu = false →
      ((∃ i : Fin 4, s.tbc.site.inputs[i].function = .permit) → permitPresent s.tbc.site s.ifu = true) →
      ∃ t, exec (.release h) s = .next t ∧ t.ifu = { s.ifu with stop := none } ∧
        t.atu = (s.atu.drop (fun e => e.subject = .site ∧ e.cond = .siteStop)).sound s.tbc.site.alarm ∧
        (∀ c, t.ctxAt c = (s.ctxAt c).map (fun x => { x with run := if x.run = .stopped then .running else x.run })) ∧
        t.cxp.parting = s.cxp.parting ∧
        t.bmu = { s.bmu with
          lineA := { s.bmu.lineA with allstopDue := false }
          lineB := { s.bmu.lineB with allstopDue := false } }.answering h (answerTo .release .done body) ∧
        OnlyIn [.ifu, .atu, .cxp, .bmu] s t)

/-- RESTART (R151): it is answered DONE and changes nothing yet; the cabinet restart is made by the ANSWER_END of that
ANSWER, with the input filters. KEY_TIMER_EXPIRY (R150, R151): while the key state is TIMING it makes a cabinet restart,
or, with RST held or a start-up under way, makes the key state SPENT and nothing else; in any other key state nothing
happens. The restart keeps the attention list and the overflow count (R135) and every line item but a test under way (R155); a
site stop that its filters begin is listed and owed to each ACTIVE line. That KEY_TIMER_EXPIRY itself says that the 3,000 ms have passed is the model's (assumption log 8). -/
def Obligations.RequestAndKeyRestartTheCabinet : Prop :=
  (∀ (h : Ask) (s : State), Served s h .restart → exec (.restart h) s =
    .next { s with bmu := s.bmu.answering h (answerTo .restart .done []) .restart }) ∧
  (∀ (h : Ask) (a : Answer) (s : State), WorkLaw s → s.bmu.exchange = .answer h a .restart →
    ∃ t, exec .answerEnd s = .next t ∧ CabinetRestarted s t ∧ FiltersRestarted s t ∧ StopFollows s t ∧
      t.sys = s.sys) ∧
  ∀ s : State,
    (∀ ms, WorkLaw s → s.ifu.key = .timing ms → s.sys.rst = false → s.sys.phase = .up →
      ∃ t, exec .keyTimerExpiry s = .next t ∧ CabinetRestarted s t ∧ FiltersRestarted s t ∧ StopFollows s t ∧
        t.sys = s.sys) ∧
    (∀ ms, s.ifu.key = .timing ms → s.sys.rst = true ∨ s.sys.phase ≠ .up →
      exec .keyTimerExpiry s = .next { s with ifu := { s.ifu with key := .spent } }) ∧
    ((∀ ms, s.ifu.key ≠ .timing ms) → exec .keyTimerExpiry s = .next s)

/-! ## Stations and lines (chapter 9) -/

/-- STATION_WRITE (R162, with R54, R89, R130, R156): a value outside its range, a kind code outside 1 to 6 or a kind the station may not have is
BAD_VALUE; a change of kind of a bound station STATION_BOUND; a change of kind or inhibits that fails the line coverage test LAST_LINE.
Otherwise every carried item is set. A change of kind makes the entry UNUSED or SEEKING without failures, last error and
telemetry, the calibration table UNSET and the parting order that of the new kind, and for NONE takes the station's mark and
its attention entry away; the bindings to a monitor's channels that it takes away are removed, one update each; and the header
is handed to the write queue where the enrolment changes. That the slots of those bindings are handed before the header, and
that a write which changes neither kind nor inhibits is not put to the coverage test, are the model's readings (assumption
log 19, 27). -/
def Obligations.StationWriteSetsTheEntry : Prop :=
  (∀ (h : Ask) (n k : Nat) (retry : Option Nat) (inhibits : Option Inhibits) (param : Option Nat) (s : State),
    Served s h .stationWrite → k = 0 ∨ 6 < k →
    exec (.stationWrite h n (some k) retry inhibits param) s = .next (Answered s h .stationWrite .badValue [])) ∧
  ∀ (h : Ask) (n : Nat) (kind : Option StationKind) (retry : Option Nat) (inhibits : Option Inhibits) (param : Option Nat)
    (s : State) (x y : Station) (k : StationKind) (cmd : Instr),
    cmd = .stationWrite h n (kind.map (codeIn StationKind.all)) retry inhibits param → Served s h .stationWrite →
    x = s.stationAt n → k = kind.getD x.kind →
    y = (if k = x.kind then
        { x with retry := retry.getD x.retry, inhibits := inhibits.getD x.inhibits, param := param <|> x.param }
      else
        { x with
          kind := k, retry := retry.getD x.retry, inhibits := inhibits.getD x.inhibits, param := param
          state := if k = .none then .unused else .seeking, failures := 0, lastError := none, telemetry := none }) →
    ∀ (good covered : Prop) (lost : Nat → Bool),
    (good ↔ n < 16 ∧ (∀ v, retry = some v → v ≤ 3) ∧ (n = 0 ↔ k = .supervisor) ∧
      (∀ v, param = some v → k = .winch ∧ 1 ≤ v ∧ v ≤ 1000 ∨ k = .grout ∧ 1 ≤ v ∧ v ≤ 65535 ∨
        k = .monitor ∧ 1 ≤ v ∧ v ≤ 8) ∧
      (k ≠ x.kind → k = .winch ∨ k = .grout ∨ k = .monitor → param ≠ none)) →
    (covered ↔ Covers s.lineStates s.lineStates (fun m => if m = n then y.inhibits else (s.stationAt m).inhibits)
      (fun m => if m = n then k else (s.stationAt m).kind)) →
    (∀ m, lost m = (s.recAt m).any (fun r => r.binding.any (fun b => decide (b.station = n) && decide (x.kind = .monitor) &&
      (decide (k ≠ .monitor) ||
        decide (y.param.getD 0 < x.param.getD 0) && decide (y.param.getD 0 ≤ b.channel))))) →
    (¬ good → exec cmd s = .next (Answered s h .stationWrite .badValue [])) ∧
    (good → k ≠ x.kind → x.ctx ≠ none → exec cmd s = .next (Answered s h .stationWrite .stationBound [])) ∧
    (good → (k = x.kind ∨ x.ctx = none) → (k ≠ x.kind ∨ y.inhibits ≠ x.inhibits) → ¬ covered →
      exec cmd s = .next (Answered s h .stationWrite .lastLine [])) ∧
    (good → (k = x.kind ∨ x.ctx = none) → (k = x.kind ∧ y.inhibits = x.inhibits ∨ covered) → TableLaw s →
      ∃ t, exec cmd s = .next t ∧
        t.stationAt n = { y with faultMark := x.faultMark && !(decide (k ≠ x.kind) && decide (k = .none)) } ∧
        (∀ m, m ≠ n → t.stationAt m = s.stationAt m) ∧
        t.bmu = { s.bmu with stations := t.bmu.stations }.answering h (answerTo .stationWrite .done []) ∧
        t.calAt n = (if k = x.kind then s.calAt n else none) ∧ (∀ m, m ≠ n → t.calAt m = s.calAt m) ∧
        t.cxp.parting.get? n = (if k = x.kind then s.cxp.parting.get? n
          else if k = .winch ∨ k = .grout ∨ k = .jack then some (Parting.plain (unboundOrder k)) else none) ∧
        (∀ m, m ≠ n → t.cxp.parting.get? m = s.cxp.parting.get? m) ∧ t.cxp.contexts = s.cxp.contexts ∧
        (∀ m r, lost m = true → s.recAt m = some r → t.slotAt m = stepped s m h.station { r with binding := none }) ∧
        (∀ m, lost m = false → t.slotAt m = s.slotAt m) ∧ t.tbc = { s.tbc with slots := t.tbc.slots } ∧
        (∀ key, (∃ m r b, lost m = true ∧ s.recAt m = some r ∧ r.binding = some b ∧ channelKey b = key) →
          t.channels.get? key = none) ∧
        (∀ key, (∀ m r b, lost m = true → s.recAt m = some r → r.binding = some b → channelKey b ≠ key) →
          t.channels.get? key = s.channels.get? key) ∧
        t.isi = s.isi.handed (((List.range 512).filter lost).map Item.slot ++
          if k = x.kind ∧ y = x then [] else [.header]) ∧
        t.atu = (if k ≠ x.kind ∧ k = .none ∧ x.faultMark = true then
          (s.atu.drop (fun e => e.subject = .station n ∧ e.cond = .stationFault)).sound s.tbc.site.alarm else s.atu) ∧
        OnlyIn [.tbc, .cxp, .cals, .channels, .atu, .bmu, .isi] s t)

/-- LINE_WRITE without TEST (R157) sets the carried items of the line; with TEST (R158) it makes a QUIET line TESTING with
a new test result, whose copies begin once its ANSWER has been sent. Each TEST_PATTERN_COPY counts one repetition, and a
mismatch where the 16 bytes were not received in order, up to 255; the last completes the result and returns the line to
QUIET. Their refusals: BAD_VALUE, a line or state code outside its list among them, WRONG_STATE, LAST_LINE. That a state equal to the present one is not put to the coverage
test is the model's (assumption log 27). -/
def Obligations.LineWriteSetsTheLineAndTestsIt : Prop :=
  (∀ (h : Ask) (line : Nat) (s : State), Served s h .lineWrite →
    (∀ state timeout gap, line = 0 ∨ 2 < line ∨ (∃ v, state = some v ∧ (v = 0 ∨ 4 < v)) →
      exec (.lineWrite h line state timeout gap) s = .next (Answered s h .lineWrite .badValue [])) ∧
    ∀ pattern count, line = 0 ∨ 2 < line →
      exec (.lineWriteTest h line pattern count) s = .next (Answered s h .lineWrite .badValue [])) ∧
  (∀ (h : Ask) (l : LineId) (state : Option LineState) (timeout gap : Option Nat) (s : State) (cmd : Instr)
      (good covered : Prop), Served s h .lineWrite →
    cmd = .lineWrite h (codeIn LineId.all l) (state.map (codeIn LineState.all)) timeout gap →
    (good ↔ state ≠ some .testing ∧ (∀ v, timeout = some v → 1 ≤ v ∧ v ≤ 8) ∧ ∀ v, gap = some v → v ≤ 3) →
    (covered ↔ Covers s.lineStates (fun m => if m = l then state.getD (s.lineAt l).state else s.lineStates m)
      (fun n => (s.stationAt n).inhibits) (fun n => (s.stationAt n).kind)) →
    (¬ good → exec cmd s = .next (Answered s h .lineWrite .badValue [])) ∧
    (good → (s.lineAt l).state = .testing → exec cmd s = .next (Answered s h .lineWrite .wrongState [])) ∧
    (good → (s.lineAt l).state ≠ .testing → state.getD (s.lineAt l).state ≠ (s.lineAt l).state → ¬ covered →
      exec cmd s = .next (Answered s h .lineWrite .lastLine [])) ∧
    (good → (s.lineAt l).state ≠ .testing → (state.getD (s.lineAt l).state = (s.lineAt l).state ∨ covered) →
      ∃ t, exec cmd s = .next t ∧
        t.lineAt l = { s.lineAt l with
          state := state.getD (s.lineAt l).state, timeout := timeout.getD (s.lineAt l).timeout
          gap := gap.getD (s.lineAt l).gap } ∧
        t.lineAt (otherLine l) = s.lineAt (otherLine l) ∧
        t.bmu = { s.bmu with lineA := t.bmu.lineA, lineB := t.bmu.lineB }.answering h (answerTo .lineWrite .done []) ∧
        OnlyIn [.bmu] s t)) ∧
  (∀ (h : Ask) (l : LineId) (pattern : Vector Byte 16) (count : Nat) (s : State) (cmd : Instr) (covered : Prop),
    Served s h .lineWrite → cmd = .lineWriteTest h (codeIn LineId.all l) pattern count →
    (covered ↔ Covers s.lineStates (fun m => if m = l then .testing else s.lineStates m)
      (fun n => (s.stationAt n).inhibits) (fun n => (s.stationAt n).kind)) →
    (count = 0 ∨ 255 < count → exec cmd s = .next (Answered s h .lineWrite .badValue [])) ∧
    (1 ≤ count → count ≤ 255 → (s.lineAt l).state ≠ .quiet →
      exec cmd s = .next (Answered s h .lineWrite .wrongState [])) ∧
    (1 ≤ count → count ≤ 255 → (s.lineAt l).state = .quiet → ¬ covered →
      exec cmd s = .next (Answered s h .lineWrite .lastLine [])) ∧
    (1 ≤ count → count ≤ 255 → (s.lineAt l).state = .quiet → covered → ∃ t, exec cmd s = .next t ∧
      t.lineAt l = { s.lineAt l with
        state := .testing
        test := some { asked := count, sent := 0, mismatches := 0, phase := .answering, pattern := pattern } } ∧
      t.lineAt (otherLine l) = s.lineAt (otherLine l) ∧
      t.bmu = { s.bmu with lineA := t.bmu.lineA, lineB := t.bmu.lineB }.answering h (answerTo .lineWrite .done [])
        (.test l) ∧
      OnlyIn [.bmu] s t)) ∧
  (∀ (h : Ask) (a : Answer) (l : LineId) (x : LineTest) (s : State), s.bmu.exchange = .answer h a (.test l) →
    (s.lineAt l).test = some x → ∃ t, exec .answerEnd s = .next t ∧ t.bmu.exchange = .idle ∧
      (t.lineAt l).test = some { x with phase := .sending } ∧ (t.lineAt l).state = (s.lineAt l).state ∧
      t.bmu.tx = [.pattern l x.pattern] ∧ OnlyIn [.bmu, .atu] s t) ∧
  ∀ (l : LineId) (received : List Byte) (x : LineTest) (s : State), (s.lineAt l).state = .testing →
    (s.lineAt l).test = some x → x.phase = .sending → ∃ t, exec (.testPatternCopy l received) s = .next t ∧
      t.lineAt l = { s.lineAt l with
        state := if x.asked ≤ x.sent + 1 then .quiet else .testing
        test := some { x with
          sent := x.sent + 1
          mismatches := if received = x.pattern.toList then x.mismatches else min 255 (x.mismatches + 1)
          phase := if x.asked ≤ x.sent + 1 then .completed else .sending } } ∧
      t.lineAt (otherLine l) = s.lineAt (otherLine l) ∧
      t.bmu = { s.bmu with
        lineA := t.bmu.lineA, lineB := t.bmu.lineB
        tx := if x.asked ≤ x.sent + 1 then [] else [.pattern l x.pattern] } ∧
      OnlyIn [.bmu] s t

/-- The scan (R164, R165, R168). SCAN_START, with no scan under way and the bus working, clears the lines' figures, sends
ALLSTOP while a site stop is in force and TIME where it has changed on every ACTIVE line, and gives the first turn; an
ALLSTOP that a line still owes is among these, so the debt ends (assumption log 34). A CALL goes out on the preferred line,
or at a retry on the other one, where that is usable, and otherwise on the usable one, with the order or the attention summary
and the permissions; the first of a turn fixes the retry count (R162); a station that has no turn any more is passed over. A
FETCH goes out on the line it is due on. Either goes out on a line that still owes an ALLSTOP too, where it stands before that in
the queue, which is the model's choice (assumption log 34). The end of an ANSWER to station 0 that carried the further-request flag, with fewer
than four FETCHes sent and the line still usable, makes the next FETCH due; any other ends the turn; the end of an ANSWER that no FETCH of the turn under way led to, or with no
turn under way, moves none. That a FETCH on a line
that has become unusable ends the turn, and that an event out of its place changes nothing, are the model's choices
(assumption log 33, 7). -/
def Obligations.ScanGivesEachStationItsTurn : Prop :=
  ∀ s : State,
    (s.busUp = true → s.bmu.turn = none → s.bmu.exchange = .idle → ∃ t, exec .scanStart s = .next t ∧
      t.bmu.exchange = .idle ∧ TurnGoesTo s t 0 ∧ t.bmu.stations = s.bmu.stations ∧
      (∀ l, (t.lineAt l).tally = 0 ∧ (t.lineAt l).attempts = 0 ∧ (t.lineAt l).successes = 0 ∧
        (t.lineAt l).allstopDue = false ∧ (t.lineAt l).state = (s.lineAt l).state ∧
        (t.lineAt l).noiseMark = (s.lineAt l).noiseMark ∧ (t.lineAt l).faultMark = (s.lineAt l).faultMark) ∧
      t.bmu.lastTime = (if (s.lineAt .a).state = .active ∨ (s.lineAt .b).state = .active then
        some (s.wck.time, s.wck.clock) else s.bmu.lastTime) ∧
      t.bmu.tx = [LineId.a, LineId.b].flatMap (fun l => if (s.lineAt l).state = .active then
        (if s.ifu.stop = none then [] else [.frame l .allstop]) ++
          (if s.bmu.lastTime = some (s.wck.time, s.wck.clock) then [] else [.frame l (.time s.wck.time s.wck.clock)])
        else []) ∧ OnlyIn [.bmu] s t) ∧
    (s.busUp = false ∨ s.bmu.turn ≠ none ∨ s.bmu.exchange ≠ .idle → exec .scanStart s = .next s) ∧
    (∀ u, s.busUp = true → s.bmu.turn = some u → s.bmu.exchange = .idle → u.fetchLine = none →
      (∀ first l, HasTurn s u.station → first = (match u.lastLine with
          | some m => otherLine m
          | none => (s.stationAt u.station).preferred) →
        (s.usable u.station first = true ∧ l = first ∨
          s.usable u.station first = false ∧ s.usable u.station (otherLine first) = true ∧ l = otherLine first) →
        ∃ t body, exec .call s = .next t ∧
          t.bmu.tx = [.frame l (.call u.station (!(s.stationAt u.station).inhibits.a)
            (!(s.stationAt u.station).inhibits.b) body)] ∧
          (u.station = 0 → ∃ top, body = .summary top s.atu.entries.length s.atu.overflow ∧
            (∀ e ∈ s.atu.entries, e.level ≤ top) ∧ (top = 0 ∨ ∃ e ∈ s.atu.entries, e.level = top)) ∧
          (u.station ≠ 0 → ∃ o, body = .order o ∧ CallOrder s u.station o) ∧
          t.lineAt l = { s.lineAt l with attempts := (s.lineAt l).attempts + 1 } ∧
          t.lineAt (otherLine l) = s.lineAt (otherLine l) ∧
          t.bmu = { s.bmu with
            lineA := t.bmu.lineA, lineB := t.bmu.lineB, tx := t.bmu.tx, exchange := .call u.station l
            turn := some { u with
              tries := u.tries + 1, lastLine := some l
              retry := if u.tries = 0 then (s.stationAt u.station).retry else u.retry } } ∧ OnlyIn [.bmu] s t) ∧
      (¬ HasTurn s u.station → ∃ t, exec .call s = .next t ∧ TurnGoesTo s t (u.station + 1) ∧
        t.bmu.exchange = .idle ∧ t.bmu.stations = s.bmu.stations ∧ OnlyIn [.bmu, .atu] s t)) ∧
    (∀ u l, s.busUp = true → s.bmu.turn = some u → s.bmu.exchange = .idle → u.fetchLine = some l →
      ∀ may : Prop, (may ↔ (s.stationAt u.station).state ≠ .unused ∧ s.usable u.station l = true) →
      (may → exec .fetch s = .next { s with bmu := { s.bmu with
        turn := some { u with fetches := u.fetches + 1, fetchLine := none }, exchange := .fetch u.station l
        tx := [.frame l (.fetch u.station)] } }) ∧
      (¬ may → ∃ t, exec .fetch s = .next t ∧ TurnGoesTo s t (u.station + 1) ∧
        t.bmu.exchange = .idle ∧ t.bmu.stations = s.bmu.stations ∧ OnlyIn [.bmu, .atu] s t)) ∧
    ((s.busUp = false ∨ s.bmu.exchange ≠ .idle → exec .call s = .next s ∧ exec .fetch s = .next s) ∧
      (s.bmu.turn = none → exec .call s = .next s ∧ exec .fetch s = .next s) ∧
      ∀ u, s.bmu.turn = some u → (u.fetchLine ≠ none → exec .call s = .next s) ∧
        (u.fetchLine = none → exec .fetch s = .next s)) ∧
    ((∀ h a after, s.bmu.exchange ≠ .answer h a after) → exec .answerEnd s = .next s) ∧
    (∀ u h a after, s.bmu.exchange = .answer h a after → after = .nothing ∨ after = .allstop → s.bmu.turn = some u →
      u.station = h.station → 1 ≤ u.fetches → u.fetchLine = none → ∀ more : Prop,
      (more ↔ h.station = 0 ∧ h.further = true ∧ u.fetches < 4 ∧ (s.stationAt h.station).state ≠ .unused ∧
        s.usable h.station h.line = true) →
      (more → exec .answerEnd s = .next { s with bmu := { s.bmu with
        turn := some { u with fetchLine := some h.line }, exchange := .idle } }) ∧
      (¬ more → ∃ t, exec .answerEnd s = .next t ∧ t.bmu.exchange = .idle ∧ TurnGoesTo s t (u.station + 1) ∧
        t.bmu.stations = s.bmu.stations ∧ OnlyIn [.bmu, .atu] s t)) ∧
    (∀ h a after, s.bmu.exchange = .answer h a after → after = .nothing ∨ after = .allstop →
      (∀ u, s.bmu.turn = some u → ¬ (u.station = h.station ∧ 1 ≤ u.fetches ∧ u.fetchLine = none)) →
      exec .answerEnd s = .next { s with bmu := { s.bmu with exchange := .idle } })

/-- REPLY_RECEIVED in the window of its CALL (R57, R60, R160, R166): a reply of the enrolled kind, for a monitor of the enrolled
channel count, gives the station its telemetry, makes it PRESENT with no failures, prefers the line, and counts a success on
it. A bound station's context that the reply leaves SUSPENDED takes nothing else from it. SRQ makes a FETCH due on the line;
otherwise the turn ends. FAULT marks an unbound station with STATION_FAULT. A reply of another kind is the frame that fails
with KIND, a monitor's of another channel count, and a reply in the window of another CALL on the line or of a FETCH, the one
that fails with CHECK. A reply on the other line of the window, while an ANSWER is sent, or while the bus is down changes
nothing, which is the model's choice (assumption log 7). A reply with no exchange in progress stands for the exchange of its
own CALL: one that its station may be called for and that is good does what it does in that window but to the turn and the
lines, and any other changes nothing, which is the model's choice too (assumption log 6). -/
def Obligations.ReplyMakesTheStationPresent : Prop :=
  (∀ (n : Nat) (l : LineId) (y : Reply) (s : State) (u : Turn), WorkLaw s → n < 16 → s.busUp = true →
    s.bmu.exchange = .call n l → s.bmu.turn = some u → u.station = n →
    (declaredKind y.data = (s.stationAt n).kind →
      (∀ chs, y.data = .monitor chs → chs.length = (s.stationAt n).param.getD 0) →
      ∃ t, exec (.replyReceived n l y) s = .next t ∧ t.bmu.exchange = .idle ∧
        (t.stationAt n).telemetry = some y.data ∧ (t.stationAt n).state = .present ∧ (t.stationAt n).failures = 0 ∧
        (t.stationAt n).preferred = l ∧ (t.stationAt n).lastError = (s.stationAt n).lastError ∧
        (t.stationAt n).kind = (s.stationAt n).kind ∧
        (∀ m, m ≠ n → (t.stationAt m).state = (s.stationAt m).state ∧ (t.stationAt m).ctx = (s.stationAt m).ctx) ∧
        (y.srq = true → t.bmu.turn = some { u with fetchLine := some l } ∧
          t.lineAt l = { s.lineAt l with successes := (s.lineAt l).successes + 1 }) ∧
        (y.srq = false → TurnGoesTo s t (n + 1)) ∧
        ((s.stationAt n).ctx = none → (t.stationAt n).faultMark = (y.fault || (s.stationAt n).faultMark)) ∧
        (∀ c x, (s.stationAt n).ctx = some c → s.ctxAt c = some x → y.busy = true →
          t.ctxAt c = some (suspendedContext x) ∧ (∀ d, d ≠ c → t.ctxAt d = s.ctxAt d) ∧
          t.cxp.parting = s.cxp.parting ∧ (y.fault = false → OnlyIn [.bmu, .cxp, .atu] s t)) ∧
        t.wck = s.wck ∧ t.cals = s.cals ∧ t.ifu = s.ifu ∧ t.sys = s.sys ∧ t.pending = s.pending) ∧
    (declaredKind y.data ≠ (s.stationAt n).kind → exec (.replyReceived n l y) s = exec (.badFrame .kind) s) ∧
    (∀ chs, (s.stationAt n).kind = .monitor → y.data = .monitor chs → chs.length ≠ (s.stationAt n).param.getD 0 →
      exec (.replyReceived n l y) s = exec (.badFrame .check) s)) ∧
  ∀ (n m : Nat) (l : LineId) (y : Reply) (s : State),
    (s.busUp = true → s.bmu.exchange = .call m l ∧ m ≠ n ∨ s.bmu.exchange = .fetch m l →
      exec (.replyReceived n l y) s = exec (.badFrame .check) s) ∧
    (s.bmu.exchange = .call m (otherLine l) ∨ s.bmu.exchange = .fetch m (otherLine l) ∨ s.busUp = false ∨
        (∃ h a after, s.bmu.exchange = .answer h a after) → exec (.replyReceived n l y) s = .next s) ∧
    (s.busUp = true → s.bmu.exchange = .idle →
      ∀ fits : Prop, (fits ↔ (s.stationAt n).state ≠ .unused ∧ s.usable n l = true ∧
        declaredKind y.data = (s.stationAt n).kind ∧
        ∀ chs, y.data = .monitor chs → chs.length = (s.stationAt n).param.getD 0) →
      (¬ fits → exec (.replyReceived n l y) s = .next s) ∧
      ∀ (u : Turn) (w : State), w = { s with bmu := { s.bmu with exchange := .call n l, turn := some u } } → fits →
        ∃ t, exec (.replyReceived n l { y with srq := true }) w = .next t ∧
          exec (.replyReceived n l y) s = .next { t with bmu := { t.bmu with
            exchange := .idle, turn := s.bmu.turn, lineA := s.bmu.lineA, lineB := s.bmu.lineB } })

/-- A used reply of a bound winch (R60, R71, R72, R74): the pulse total grows by the count's move modulo 65,536 where that
is below 32,768, up to 4,294,967,295, and otherwise stays and COUNT_SETBACK is raised; the count is the new baseline. A
tension above the maximum pull makes the order HOLD and raises OVERPULL, one at or below nine tenths of it RUN, and one
between leaves it. The context stays bound, RUNNING or, while a site stop is in force, STOPPED. FAULT raises STATION_FAULT
(R166) on the record after the handing-on, in an update of its own: that is the model's reading (assumption log 17). That the
conditions of one reply are raised in updates of their own is the model's reading too (assumption log 18). -/
def Obligations.WinchReplyCountsThePulses : Prop :=
  ∀ (n : Nat) (l : LineId) (y : Reply) (s : State) (c : Nat) (x : Context) (r : Record) (cls : ClassEntry)
    (p : InsertProg) (count tension delta pull : Nat), UsedReply s n l y c x r cls → x.prog = .insert p →
    y.data = .winch count tension → p.baseline < 65536 → delta < 65536 → (p.baseline + delta) % 65536 = count →
    pull = min tension 30000 → ∃ t, exec (.replyReceived n l y) s = .next t ∧
      GoesOn s t c x (.insert { p with
        baseline := count
        total := if 32768 ≤ delta then p.total else min 4294967295 (p.total + delta)
        order := if cls.maxPull < pull then .hold else if pull ≤ cls.maxPull * 9 / 10 then .run else p.order }) ∧
      SlotBecomes s t x.slot (raisedSlot s n .stationFault y.fault (raisedSlot s n .overpull (decide (cls.maxPull < pull))
        (raisedSlot s n .countSetback (decide (32768 ≤ delta)) (s.slotAt x.slot)))) ∧
      Told s t y x.slot r ((if 32768 ≤ delta then [.countSetback] else []) ++
        if cls.maxPull < pull then [.overpull] else []) ∧
      OnlyIn [.tbc, .cxp, .isi, .atu, .bmu] s t

/-- Replies of stations that no context binds. A monitor's (R131, R132): for a channel that the channel map gives to one slot,
a valid reading that differs from the last monitored load sets it with the present works time, and one farther from the
lock-off load than the drift limit raises LOAD_DRIFT, both in the one update, stamped for the monitor; an invalid channel
changes nothing. The new LOAD_DRIFT marks are listed in ascending channel order (R136), and after them the STATION_FAULT of a
FAULT (R166), which is said where the turn goes on with a FETCH; that it comes after them is the model's reading (assumption
log 17). A jack's (R54, R120): a pressure, taken as at most 100,000, that lies within the end condition of its
parting order makes that order IDLE; any other reply leaves the parting order as it is. -/
def Obligations.UnboundRepliesAreReadAndEndTheUnload : Prop :=
  (∀ (n : Nat) (l : LineId) (y : Reply) (s : State) (u : Turn) (chs : List (Nat × Bool)), n < 16 → s.busUp = true →
    s.bmu.exchange = .call n l → s.bmu.turn = some u → u.station = n → (s.stationAt n).kind = .monitor →
    (s.stationAt n).ctx = none → (s.stationAt n).param = some chs.length → chs.length ≤ 8 → y.data = .monitor chs →
    TableLaw s → ChannelLaw s →
    ∃ t, exec (.replyReceived n l y) s = .next t ∧
      (∀ k v m r load drift raised, chs[k]? = some (v, true) → s.channels.get? (n * 8 + k) = some m →
        s.recAt m = some r → r.lockoffLoad = some drift → load = min v 30000 →
        raised = (if drift * s.tbc.site.drift / 1000 < (load - drift) + (drift - load) then [Cond.loadDrift] else []) →
        ∀ r', r' = { r with
          monitored := if r.monitored.map MonitoredLoad.load = some load then r.monitored
            else some { load := load, time := s.wck.time }
          conds := addConds raised r.conds } →
        t.slotAt m = if r' = r then s.slotAt m else stepped s m n r') ∧
      (∀ m, (∀ k v, chs[k]? = some (v, true) → s.channels.get? (n * 8 + k) ≠ some m) → t.slotAt m = s.slotAt m) ∧
      (∀ told, told = (newDrifts s n chs).foldl (fun a m => tellAtu s (.record m) a .loadDrift) s.atu → y.srq = true →
        t.atu = if y.fault = true ∧ (s.stationAt n).faultMark = false then tellAtu s (.station n) told .stationFault
          else told) ∧
      t.tbc = { s.tbc with slots := t.tbc.slots } ∧ OnlyIn [.tbc, .isi, .atu, .bmu] s t) ∧
  ∀ (n : Nat) (l : LineId) (y : Reply) (s : State) (u : Turn) (pressure stroke : Nat)
    (seated lifted restroking released : Bool), n < 16 → s.busUp = true → s.bmu.exchange = .call n l →
    s.bmu.turn = some u → u.station = n → (s.stationAt n).kind = .jack → (s.stationAt n).ctx = none →
    y.data = .jack pressure stroke seated lifted restroking released →
    ∃ t, exec (.replyReceived n l y) s = .next t ∧ t.cxp.contexts = s.cxp.contexts ∧
      (∀ m, m ≠ n → t.cxp.parting.get? m = s.cxp.parting.get? m) ∧ OnlyIn [.cxp, .atu, .bmu] s t ∧
      ∀ ends : Prop, (ends ↔ ∃ p lo hi, s.cxp.parting.get? n = some p ∧ p.until? = some (lo, hi) ∧
        lo ≤ min pressure 100000 ∧ min pressure 100000 ≤ hi) →
      (ends → t.cxp.parting.get? n = some (Parting.plain .idle)) ∧ (¬ ends → t.cxp.parting = s.cxp.parting)

/-- A window that fails (R57, R160, R162, R165, R167, R168): the attempt of a CALL is retried while attempts are left by the
retry count the call began with and the station can still be called, and nothing but the exchange changes; otherwise the
call has failed: the failure count rises, up to 255, the error is kept, a PRESENT station whose count reaches the silence
limit becomes SEEKING and its context SUSPENDED, and the turn ends. A FETCH that fails ends the turn and changes no
station. That a call with attempts left but no line to make one on has failed is the model's reading (assumption log 33), and
that the end of a window or a bad frame with no window open changes nothing is its choice (assumption log 7). -/
def Obligations.FailedWindowCountsAgainstTheStation : Prop :=
  (∀ (cmd : Instr) (e : FrameError) (s : State) (u : Turn), (cmd = .replyWindowTimeout ∧ e = .timeout ∨ cmd = .badFrame e) →
    s.bmu.turn = some u → u.station < 16 →
    (∀ l, s.bmu.exchange = .call u.station l →
      (u.tries ≤ u.retry → HasTurn s u.station →
        exec cmd s = .next { s with bmu := { s.bmu with exchange := .idle } }) ∧
      (u.retry < u.tries ∨ ¬ HasTurn s u.station →
        ∀ count lost, count = min 255 ((s.stationAt u.station).failures + 1) →
        (lost ↔ (s.stationAt u.station).state = .present ∧ s.tbc.site.silence ≤ count) →
        ∃ t, exec cmd s = .next t ∧ t.bmu.exchange = .idle ∧ TurnGoesTo s t (u.station + 1) ∧
          (lost → t.stationAt u.station = { s.stationAt u.station with
            failures := count, lastError := some e, state := .seeking }) ∧
          (¬ lost → t.stationAt u.station = { s.stationAt u.station with failures := count, lastError := some e }) ∧
          (∀ m, m ≠ u.station → t.stationAt m = s.stationAt m) ∧
          (∀ c, t.ctxAt c = s.ctxAt c ∨ lost ∧ (s.stationAt u.station).ctx = some c) ∧
          (∀ c x, lost → (s.stationAt u.station).ctx = some c → s.ctxAt c = some x →
            t.ctxAt c = some (suspendedContext x)) ∧
          t.cxp.parting = s.cxp.parting ∧ OnlyIn [.bmu, .cxp, .atu] s t)) ∧
    (∀ l, s.bmu.exchange = .fetch u.station l → ∃ t, exec cmd s = .next t ∧ t.bmu.exchange = .idle ∧
      TurnGoesTo s t (u.station + 1) ∧ t.bmu.stations = s.bmu.stations ∧ OnlyIn [.bmu, .atu] s t)) ∧
  ∀ (e : FrameError) (s : State), (∀ n l, s.bmu.exchange ≠ .call n l ∧ s.bmu.exchange ≠ .fetch n l) →
    exec .replyWindowTimeout s = .next s ∧ exec (.badFrame e) s = .next s

/-- Noise, the judgement of a scan, and ALLSTOP (R147, R159, R163, R168): a reception on an ACTIVE or QUIET line that
carries no exchange adds one to its noise count, up to 65,535, and to the scan's tally, on another line or in an exchange
nothing; when the last turn ends, each line keeps the scan's figures and is marked LINE_NOISE at a tally of 8 or more and
LINE_FAULT where every attempt on it failed while one on the other line succeeded, and each new mark is listed (R136); an ALLSTOP that an ACTIVE line owes goes
out once the line carries no exchange and no ANSWER of the request that began the stop is being sent. The debt itself is
read from the rules (assumption log 34); that an ALLSTOP not owed, on a line that is not ACTIVE, delayed, or with the bus
down, does nothing, and the order in which the marks of a scan are judged, are the model's choices (assumption log 7, 20). -/
def Obligations.NoiseIsCountedAndAllstopSent : Prop :=
  (∀ (l : LineId) (s : State), s.bmu.exchange.holds l = false → ∃ t, exec (.noiseReception l) s = .next t ∧
    t.lineAt l = (if (s.lineAt l).state = .active ∨ (s.lineAt l).state = .quiet then
      { s.lineAt l with noise := min 65535 ((s.lineAt l).noise + 1), tally := (s.lineAt l).tally + 1 } else s.lineAt l) ∧
    t.lineAt (otherLine l) = s.lineAt (otherLine l) ∧
    t.bmu = { s.bmu with lineA := t.bmu.lineA, lineB := t.bmu.lineB } ∧ OnlyIn [.bmu] s t) ∧
  (∀ (l : LineId) (s : State), s.bmu.exchange.holds l = true → exec (.noiseReception l) s = .next s) ∧
  (∀ (s : State) (u : Turn) (n : Nat) (l : LineId), s.bmu.turn = some u → s.bmu.exchange = .fetch n l →
    (∀ m, u.station + 1 ≤ m → ¬ HasTurn s m) → ∃ t, exec .replyWindowTimeout s = .next t ∧ t.bmu.turn = none ∧
      (∀ k, t.lineAt k = lineAtScanEnd (s.lineAt k) (s.lineAt (otherLine k))) ∧
      t.atu = (([(LineId.a, Cond.lineNoise), (.b, .lineNoise), (.a, .lineFault), (.b, .lineFault)].filter (fun x =>
        t.marked (.line x.1) x.2 && !s.marked (.line x.1) x.2)).foldl (fun a x => tellAtu s (.line x.1) a x.2) s.atu) ∧
      (∀ k c, c = .lineNoise ∨ c = .lineFault → t.marked (.line k) c = true → s.marked (.line k) c = false →
        1 ≤ levelOf s.tbc.site c → s.atu.entries.length + 4 ≤ 64 →
        ∃ e ∈ t.atu.entries, e.subject = .line k ∧ e.cond = c ∧ e.level = levelOf s.tbc.site c ∧ e.time = s.wck.time)) ∧
  ∀ (l : LineId) (s : State) (delayed : Prop),
    (delayed ↔ s.bmu.exchange.holds l = true ∨ ∃ h a, s.bmu.exchange = .answer h a .allstop) →
    (s.busUp = true → (s.lineAt l).allstopDue = true → (s.lineAt l).state = .active → ¬ delayed →
      ∃ t, exec (.allstop l) s = .next t ∧ t.lineAt l = { s.lineAt l with allstopDue := false } ∧
        t.lineAt (otherLine l) = s.lineAt (otherLine l) ∧
        t.bmu = { s.bmu with lineA := t.bmu.lineA, lineB := t.bmu.lineB, tx := [.frame l .allstop] } ∧
        OnlyIn [.bmu] s t) ∧
    (s.busUp = false ∨ (s.lineAt l).allstopDue = false ∨ (s.lineAt l).state ≠ .active ∨ delayed →
      exec (.allstop l) s = .next s)

/-! ## Pins, power and the image (chapters 8 and 10) -/

/-- FILTER_SAMPLE and PIN_CHANGE (R144 to R147, R150). A sample of an input with filter code 1 to 3: equal to the accepted level it
leaves the filter STEADY; a differing one makes a STEADY filter PENDING and changes the accepted level of a PENDING one. With
filter code 0 a change of the pin is accepted at once; otherwise it changes the pin alone. What is accepted is acted on in the
same event; while the input settings wait for a start-up, nothing is sampled. The three signals that are acted on follow from the
settings and the accepted levels as R145 says. That a stop begun by a sample or a pin change
while a restore reads its records is listed only at RESTORE_COMPLETE is the model's choice (assumption log 28; R152 says so
of the first samples). -/
def Obligations.InputsAreFilteredAndActedOn : Prop :=
  (∀ s : State, SignalsFollow s) ∧
  (∀ (i : Fin 4) (s : State), s.sampling = true → s.tbc.site.inputs[i].filter ≠ 0 → ∀ x y : Input, x = s.ifu.inputs[i] →
    y = (if x.pin = x.accepted then { x with pendingChange := false }
      else if x.pendingChange then { x with accepted := x.pin, pendingChange := false }
      else { x with pendingChange := true }) →
    ∃ t, exec (.filterSample i) s = .next t ∧ InputsTaken s t (s.ifu.inputs.set i y)) ∧
  (∀ (i : Fin 4) (s : State), s.sampling = false ∨ s.tbc.site.inputs[i].filter = 0 →
    exec (.filterSample i) s = .next s) ∧
  (∀ (i : Fin 4) (level : Contact) (s : State), s.sampling = true → s.tbc.site.inputs[i].filter = 0 →
    ∃ t, exec (.pinChange i level) s = .next t ∧ InputsTaken s t (s.ifu.inputs.set i
      { pin := level, accepted := level, pendingChange := false })) ∧
  ∀ (i : Fin 4) (level : Contact) (s : State), s.sampling = false ∨ s.tbc.site.inputs[i].filter ≠ 0 →
    exec (.pinChange i level) s = .next { s with ifu := { s.ifu with
      inputs := s.ifu.inputs.set i { s.ifu.inputs[i] with pin := level } } }

/-- POWER_ON, RST_ASSERT and RST_NEGATE (R151, R152, R176). A power-on with RST negated starts the part in the mode of MD1
and MD0, 01 and 11 alike RESTORE; with RST asserted it waits for the negation, which samples the pins. The image memory
keeps every byte but those of a block that was being written. The assertion of RST makes the cabinet restart of a running
part, which keeps the attention list and the line items (R135, R155) and whose inputs restart at the negation, and abandons a start-up under way; a repeated assertion or negation changes
nothing. What the part holds while RST delays its start, works time 0 with the clock HELD until a restore ends, and that a
repeated assertion or negation is nothing, are the model's choices (assumption log 36, 28, 7), as are the retry counts and
inhibits of the station table that a start leaves, for which R161 gives none (assumption log 4). -/
def Obligations.PowerAndRstStartThePart : Prop :=
  (∀ (md1 md0 : Bool) (left : Remnant) (s : State), s.sys.rst = false → ∃ t, exec (.powerOn md1 md0 left) s = .next t ∧
    (md1 = false → md0 = false → StartedEmpty s t .fresh) ∧ (md1 = true → md0 = false → StartedEmpty s t .commission) ∧
    (md0 = true → StartedRestore s t) ∧
    (∀ a, (∀ item b bytes rest, s.isi.writer = .writing item b (bytes :: rest) → a < 256 * b ∨ 256 * b + 256 ≤ a) →
      t.isi.image.read a = s.isi.image.read a) ∧ t.freeNext = s.freeNext ∧ t.pending = s.pending) ∧
  (∀ (md1 md0 : Bool) (left : Remnant) (s : State), s.sys.rst = true → ∃ t, exec (.powerOn md1 md0 left) s = .next t ∧
    t.sys.phase = .awaitRst ∧ t.sys.rst = true ∧ t.cxp.contexts = [] ∧ t.tbc.map = [] ∧ t.wck.clock = .held) ∧
  (∀ s : State, s.sys.rst = true → exec .rstAssert s = .next s) ∧
  (∀ s : State, s.sys.rst = false → s.sys.phase = .up → WorkLaw s → ∃ t, exec .rstAssert s = .next t ∧
    CabinetRestarted s t ∧ t.ifu = s.ifu ∧ StopFollows s t ∧ t.sys = { s.sys with rst := true }) ∧
  (∀ s : State, s.sys.rst = false → s.sys.phase ≠ .up → ∃ t, exec .rstAssert s = .next t ∧ t.sys.phase = .awaitRst ∧
    t.sys.rst = true ∧ t.isi.image = s.isi.image ∧ t.cxp.contexts = []) ∧
  (∀ (md1 md0 : Bool) (s : State), s.sys.rst = false → exec (.rstNegate md1 md0) s = .next s) ∧
  (∀ (md1 md0 : Bool) (s : State), s.sys.rst = true → s.sys.phase ≠ .awaitRst →
    ∃ t, exec (.rstNegate md1 md0) s = .next t ∧ FiltersRestarted s t ∧ StopFollows s t ∧
      (∀ l, t.lineAt l = { s.lineAt l with allstopDue := (t.lineAt l).allstopDue }) ∧ t.sys = { s.sys with rst := false } ∧
      t.cxp.parting = s.cxp.parting ∧ t.bmu.stations = s.bmu.stations ∧ OnlyIn [.ifu, .sys, .cxp, .bmu, .atu] s t) ∧
  ∀ (md1 md0 : Bool) (s : State), s.sys.rst = true → s.sys.phase = .awaitRst → ∃ t, exec (.rstNegate md1 md0) s = .next t ∧
    (md1 = false → md0 = false → StartedEmpty s t .fresh) ∧ (md1 = true → md0 = false → StartedEmpty s t .commission) ∧
    (md0 = true → StartedRestore s t) ∧ t.isi.image = s.isi.image

/-- HEADER_RESTORED, and RESTORE_COMPLETE where nothing needs a correction (R152, R177 to R180). A header that was delivered
whole and passes its check gives the site settings, classes, calibrations and enrolment; one that does not, or that holds a
byte without a meaning or otherwise does not read, leaves them as the power-on did and marks the site IMAGE_SUSPECT; either way the pins are accepted as they stand. The end of the restore
gives each slot what its block holds: an empty-marked block its revision; a failing block with a key of its own a SUSPECT
record at revision 0; a sound record of a key of its own that needs no correction itself; one in a work state a HELD record
with reason POWER. The works time is the greatest seen and stands HELD. What an undelivered block gives, and which contents
of a header or a block with a passing check count as broken, are the model's readings (assumption log 22, 31); that either command
changes nothing out of its phase is the model's choice (assumption log 7). -/
def Obligations.RestoreTakesTheImage : Prop :=
  (∀ (u : List Nat) (s : State), s.sys.phase = .readHeader →
    (∀ hd, s.isi.header u = some hd → ∃ t, exec (.headerRestored u) s = .next t ∧ t.tbc = { s.tbc with
        site := hd.site, classes := hd.classes } ∧ t.cals = hd.cals ∧ t.bmu.stations = hd.stations ∧
      t.sys.phase = .readRecords (some hd.time) ∧ FiltersRestarted s t ∧ t.isi = s.isi ∧ t.wck = s.wck) ∧
    (((∃ b, b < 16 ∧ (b ∈ u ∨ b ∈ s.isi.damaged)) ∨
        crcBytes (s.isi.image.readBytes 0 4094) ≠ s.isi.image.readBytes 4094 2 ∨ HeaderByteWrong s ∨
        s.isi.header u = none) →
      ∃ t, exec (.headerRestored u) s = .next t ∧ t.tbc = s.tbc ∧ t.cals = s.cals ∧ t.bmu.stations = s.bmu.stations ∧
        t.sys.phase = .readRecords none ∧ FiltersRestarted s t ∧ t.isi = { s.isi with suspectMark := true } ∧
        t.wck = s.wck)) ∧
  (∀ (u : List Nat) (s : State), s.sys.phase ≠ .readHeader → exec (.headerRestored u) s = .next s) ∧
  (∀ (u : List Nat) (s : State), (∀ x, s.sys.phase ≠ .readRecords x) → exec (.restoreComplete u) s = .next s) ∧
  ∀ (u : List Nat) (s : State) (headerTime : Option Nat) (taken : Nat → Taken), s.sys.phase = .readRecords headerTime →
    (∀ n, taken n = s.isi.takeAt u (16 + n)) → ∃ t time, exec (.restoreComplete u) s = .next t ∧
      RestoredTime headerTime taken time ∧ t.wck = { time := time, clock := .held, scale := 1 } ∧ t.sys.phase = .up ∧
      (∀ n rev, n < 512 → taken n = .free rev → t.slotAt n = { rev := rev, rec? := none }) ∧
      (∀ n row bay gen, n < 512 → taken n = .suspect row bay gen →
        (∀ m, m < 512 → m ≠ n → (taken m).key ≠ some (row, bay, gen)) →
        t.slotAt n = { rev := 0, rec? := some (suspectRecord row bay gen time) }) ∧
      (∀ n rev r live, n < 512 → taken n = .sound rev r live →
        (∀ m, m < 512 → m ≠ n → (taken m).key ≠ some (r.row, r.bay, r.gen)) →
        (r.state.isWork = false → r.replaces = none → r.replacedBy = none → r.binding = none → .imageWrite ∉ r.conds →
          t.slotAt n = { rev := rev, rec? := some r }) ∧
        (∀ k, r.state = CtxKind.workState k → ∃ q, t.slotAt n = { rev := (rev + 1) % 65536, rec? := some q } ∧
          q.state = .held ∧ q.heldKind = some k ∧ q.heldReason = some .power ∧ q.context = none ∧
          q.insertion = r.insertion ∧ q.grout = r.grout ∧ q.stamp = { time := time, station := 31 })) ∧
      (∀ n r, t.recAt n = some r → r.state.isWork = false) ∧ t.cals = s.cals ∧ t.bmu = s.bmu ∧ t.cxp = s.cxp ∧
      t.isi.image = s.isi.image ∧ t.isi.queue = s.isi.queue ∧ t.isi.writer = s.isi.writer

/-- RESTORE_COMPLETE, what a restore mends (R178 to R180). Of the slots whose blocks give one key one record is kept: a sound
one before a SUSPECT one, the later stamp, the lower slot; the others are FREE at revision 65535. A kept record leaves its
work state for HELD with reason POWER, and loses IMAGE_WRITE, the links that no longer hold and a binding that cannot stand,
in one step for station 31. The map names at each position the highest generation among the records with the live flag, or
else the SUSPECT record of the lowest. The dig row falls to the value of the rebuilt map, which marks the site IMAGE_SUSPECT.
The channel map follows the bindings, and the attention list is entered anew from the marks. That a record of state SUSPECT in
a sound block counts as sound is the model's reading (assumption log 40), as are the origin time of a stop that began during
the restore, what an undelivered block gives and which contents break a block (assumption log 28, 31, 22). -/
def Obligations.RestoreMendsTheRecordsAndTheMaps : Prop :=
  ∀ (u : List Nat) (s : State) (headerTime : Option Nat) (taken : Nat → Taken), s.sys.phase = .readRecords headerTime →
    (∀ n, taken n = s.isi.takeAt u (16 + n)) → ∃ t time kept deep, exec (.restoreComplete u) s = .next t ∧
      RestoredTime headerTime taken time ∧ t.wck = { time := time, clock := .held, scale := 1 } ∧
      KeptRecords taken time kept ∧
      (∀ n rev, n < 512 → kept n = none → rev = (match taken n with
          | .free v => v
          | _ => 65535) → t.slotAt n = { rev := rev, rec? := none }) ∧
      (∀ n r rev, kept n = some r → rev = (match taken n with
          | .sound v _ _ => v
          | _ => 0) →
        ∃ q, Mended s t kept n r q ∧ t.slotAt n = (if q = r then { rev := rev, rec? := some r } else
          { rev := (rev + 1) % 65536, rec? := some { q with stamp := { time := time, station := 31 } } })) ∧
      (∀ row bay, 1 ≤ row → row ≤ 12 → 1 ≤ bay → bay ≤ 400 →
        ∀ n, t.liveAt row bay = some n ↔ TakesTheEntry t taken row bay n) ∧
      RestoredValue t deep ∧
      t.tbc = { s.tbc with
        slots := t.tbc.slots, map := t.tbc.map
        site := { s.tbc.site with digRow := min s.tbc.site.digRow deep } } ∧
      t.isi = { s.isi with suspectMark := s.isi.suspectMark || decide (deep < s.tbc.site.digRow) } ∧
      (∀ key n, t.channels.get? key = some n ↔ ∃ q b, t.recAt n = some q ∧ q.binding = some b ∧ channelKey b = key) ∧
      t.ifu = { s.ifu with stop := s.ifu.stop.map (fun o => { o with time := time }) } ∧
      t.atu = (restoredMarks t).foldl (fun a m => tellAtu t m.1 a m.2) { entries := [], overflow := 0, alm := false } ∧
      t.sys = { s.sys with phase := .up } ∧ OnlyIn [.tbc, .channels, .wck, .isi, .ifu, .atu, .sys] s t

/-- The image writer (R172 to R175). An idle writer takes the head item off the queue with its snapshot: a record block
with the live flag, an empty-marked block, or the header's sixteen. An acknowledged block is in the image memory and no
other byte has changed; the last of an item makes the writer IDLE and takes IMAGE_WRITE off the subjects its failed
attempts named. A block that times out puts the item back at the head, makes the writer WAITING, marks the subject and
changes no byte outside the block. The end of the wait takes the head at once. A writer event in another writer state
changes nothing. That, that a failed item leaves its other place in the queue, and how a part-written block is remembered,
are the model's choices (assumption log 7, 21, 25). -/
def Obligations.WriterWritesItemsBlockByBlock : Prop :=
  (∀ (cmd : Instr) (s : State) (i : Item) (rest : List Item),
    (cmd = .writerTakeItem ∧ s.isi.writer = .idle ∨ cmd = .writerWaitEnd ∧ s.isi.writer = .waiting) →
    s.isi.queue = i :: rest → ∃ first blocks, exec cmd s = .next { s with isi := { s.isi with
        queue := rest, writer := .writing i first blocks } } ∧
      (i = .header → first = 0 ∧ blocks = s.snapshot .header ∧ blocks.length = 16 ∧ ∀ b ∈ blocks, b.length = 256) ∧
      (∀ n, i = .slot n → first = 16 + n ∧ blocks = [match s.recAt n with
        | some r => recordBlock (s.revAt n) r (decide (s.liveAt r.row r.bay = some n))
        | none => emptyBlock (s.revAt n)])) ∧
  (∀ s : State, s.isi.queue = [] → exec .writerTakeItem s = .next s ∧
    (s.isi.writer = .waiting → exec .writerWaitEnd s = .next { s with isi := { s.isi with writer := .idle } })) ∧
  (∀ s : State, (s.isi.writer ≠ .idle → exec .writerTakeItem s = .next s) ∧
    (s.isi.writer ≠ .waiting → exec .writerWaitEnd s = .next s) ∧
    ((∀ i b bs, s.isi.writer ≠ .writing i b bs) → exec .blockWriteAck s = .next s ∧
      ∀ left, exec (.blockWriteTimeout left) s = .next s)) ∧
  (∀ (s : State) (i : Item) (b : Nat) (bytes : List Byte) (rest : List (List Byte)),
    s.isi.writer = .writing i b (bytes :: rest) → bytes.length = 256 →
    (∃ t, exec .blockWriteAck s = .next t ∧
      (∀ k x, bytes[k]? = some x → t.isi.image.read (256 * b + k) = x) ∧
      (∀ a, a < 256 * b ∨ 256 * b + 256 ≤ a → t.isi.image.read a = s.isi.image.read a) ∧
      (rest ≠ [] → t.isi.writer = .writing i (b + 1) rest ∧ t.isi.queue = s.isi.queue ∧ OnlyIn [.isi] s t) ∧
      (rest = [] → t.isi.writer = .idle ∧ (∀ subj, (i, subj) ∉ t.isi.noted) ∧
        (∀ subj, (i, subj) ∈ s.isi.noted → subj = .site ∨ (∃ n, subj = .record n) → t.marked subj .imageWrite = false) ∧
        ((∀ subj, (i, subj) ∉ s.isi.noted) → t.isi.queue = s.isi.queue ∧ OnlyIn [.isi] s t) ∧
        OnlyIn [.isi, .tbc, .atu] s t)) ∧
    ∀ left, ∃ t subj, exec (.blockWriteTimeout left) s = .next t ∧
      (subj = match i with
        | .header => .site
        | .slot n => if s.recAt n = none then .site else .record n) ∧
      t.isi.writer = .waiting ∧ t.isi.queue = i :: s.isi.queue.erase i ∧ (i, subj) ∈ t.isi.noted ∧
      t.marked subj .imageWrite = true ∧
      (∀ a, a < 256 * b ∨ 256 * b + 256 ≤ a → t.isi.image.read a = s.isi.image.read a) ∧
      (left = .unchanged → t.isi.image = s.isi.image) ∧
      (∀ k x, left = .whole → bytes[k]? = some x → t.isi.image.read (256 * b + k) = x) ∧
      (∀ mix, left = .mixed mix → b ∈ t.isi.damaged) ∧
      (∀ n r, subj = .record n → s.recAt n = some r → .imageWrite ∉ r.conds →
        t.slotAt n = stepped s n 31 { r with conds := addConds [.imageWrite] r.conds }) ∧
      OnlyIn [.isi, .tbc, .atu] s t)

/-- A record block, and an empty-marked one, are read back as they were written (R172, R178, Table 11-9). A block that is
broken, or whose check does not pass, gives a SUSPECT record of its key where that is in range, and otherwise a FREE slot at
revision 65535; a passing block with a marker that is neither is taken as such a one. The sixteen blocks of a header hold what
Table 11-10 gives them where it places them, with one check at their end, and a restore to whose image they were written reads
back the works time, the site settings, the classes, the calibrations and the enrolment (R172, R174, R177). The order in which
a block lists its condition set, the bytes of a parameter that a station lacks and the bits of its inhibits are the model's
choices (assumption log 39). -/
def Obligations.ImageBlocksAreReadBackAsWritten : Prop :=
  (∀ (s t : State) (u : List Nat), HeaderFits s → HeaderLaidOut s (s.snapshot .header).flatten ∧
    (t.isi.image.readBytes 0 4096 = (s.snapshot .header).flatten → (∀ b, b < 16 → b ∉ u ∧ b ∉ t.isi.damaged) →
      ∃ hd, t.isi.header u = some hd ∧ HeaderGives s hd)) ∧
  (∀ (rev : Nat) (r : Record) (live : Bool), rev < 65536 → r.inRange = true → r.presence = true → r.Fits →
    (recordBlock rev r live).length = 256 ∧ takeBlock (recordBlock rev r live) false = .sound rev r live) ∧
  (∀ rev, rev < 65536 → (emptyBlock rev).length = 256 ∧ takeBlock (emptyBlock rev) false = .free rev) ∧
  ∀ (bytes : List Byte) (broken : Bool) (marker rev0 rev1 row bay0 bay1 gen : Byte) (rest : List Byte),
    bytes = marker :: rev0 :: rev1 :: row :: bay0 :: bay1 :: gen :: rest → bytes.length = 256 →
    (broken = true ∨ crcBytes (bytes.take 254) ≠ bytes.drop 254 ∨ marker.toNat ≠ 1 ∧ marker.toNat ≠ 2) →
    ∀ bay, bay = bay0.toNat * 256 + bay1.toNat →
    takeBlock bytes broken = (if 1 ≤ row.toNat ∧ row.toNat ≤ 12 ∧ 1 ≤ bay ∧ bay ≤ 400 ∧ gen.toNat ≤ 3 then
      .suspect row.toNat bay gen.toNat else .free 65535)

/-! ## Arithmetic (chapter 5) -/

/-- Load from pressure and pressure from load (R93, R94) through a calibration table: a reported pressure is taken as at most
100,000; a pressure and a target are converted on the segment they lie in, from 0 to the first point by proportion, rounded to
the nearest with halves up; above the last point the last point is given with the flag set. Every load lies at or below the last
calibration load. -/
def Obligations.LoadsAndPressuresFollowTheTable : Prop :=
  ∀ (first : CalPoint) (rest : List CalPoint), CalSound (first :: rest) →
    (∀ reported p, p = min reported 100000 →
      (p < first.pressure → ∃ m, Rounds (p * first.load) first.pressure m ∧ loadOf (first :: rest) reported = (m, false)) ∧
      (∀ a b, Segment (first :: rest) a b → a.pressure ≤ p → p < b.pressure → ∃ m,
        Rounds ((p - a.pressure) * (b.load - a.load)) (b.pressure - a.pressure) m ∧
          loadOf (first :: rest) reported = (a.load + m, false)) ∧
      (∀ last, (first :: rest).getLast? = some last → last.pressure ≤ p →
        loadOf (first :: rest) reported = (last.load, decide (last.pressure < p))) ∧
      (loadOf (first :: rest) reported).1 ≤ lastCalLoad (first :: rest)) ∧
    ∀ target,
      (target = 0 → pressureOf (first :: rest) target = (0, false)) ∧
      (0 < target → target < first.load → ∃ m, Rounds (target * first.pressure) first.load m ∧
        pressureOf (first :: rest) target = (m, false)) ∧
      (∀ a b, Segment (first :: rest) a b → a.load ≤ target → target ≤ b.load → ∃ m,
        Rounds ((target - a.load) * (b.pressure - a.pressure)) (b.load - a.load) m ∧
          pressureOf (first :: rest) target = (a.pressure + m, false)) ∧
      (∀ last, (first :: rest).getLast? = some last → last.load < target →
        pressureOf (first :: rest) target = (last.pressure, true))

/-- The target loads of a class that keeps the checks of R29 (R95, Table 5-2): each is DWL times its percentage over 100, rounded
to the nearest with halves up. All lie from 5 to 30,000; the datum target is below every stage target, the stage targets
rise strictly, and no stage target and no residual target passes the test load. -/
def Obligations.TargetLoadsKeepTheirOrder : Prop :=
  ∀ e : ClassEntry,
    (Rounds (e.dwl * e.datum) 100 (datumTarget e) ∧ Rounds (e.dwl * e.test) 100 (testLoad e) ∧
      Rounds (e.dwl * e.lockoff) 100 (residualTarget e) ∧
      ∀ k percent, 1 ≤ k → e.stages[k - 1]? = some percent → Rounds (e.dwl * percent) 100 (stageTarget e k)) ∧
    (TargetsInRange e → 5 ≤ datumTarget e ∧ datumTarget e < testLoad e ∧ 5 ≤ residualTarget e ∧
      residualTarget e ≤ testLoad e ∧
      testLoad e ≤ 30000 ∧
      (∀ k, 1 ≤ k → k ≤ e.stages.length → datumTarget e < stageTarget e k ∧ stageTarget e k ≤ testLoad e) ∧
      ∀ j k, 1 ≤ j → j < k → k ≤ e.stages.length → stageTarget e j < stageTarget e k)

/-- The limits and lengths that a stressing is judged by (R96, R99 to R104). The band is DWL times the tolerance over 1000,
floored and at least 1, and a load lies below it, within it or above it. The overload limit is 105 % of the test load, the
search limit 120 % of the lock-off load. The apparent free length is E × A × δ over ΔF × 10,000, at most 999,999, and 0
where δ or ΔF is not positive; its window runs from the lower bound of the free length to the free length and the upper
bound of the bond length. The jack lock-off load is the residual target with the expected loss, at most the test load; the
residual is the load before seating less the actual loss, at least 0, and passes within its window. The destress steps are
the rounded shares of the lift-off load, falling strictly and never 0. Each quotient is rounded once, halves up. -/
def Obligations.LimitsAndLengthsFollowTheirFormulas : Prop :=
  ∀ e : ClassEntry,
    (band e = (if e.dwl * e.tolerance / 1000 = 0 then 1 else e.dwl * e.tolerance / 1000) ∧
      Rounds (testLoad e * 105) 100 (overloadLimit e) ∧ (∀ lock, Rounds (lock * 120) 100 (searchLimit lock)) ∧
      ∀ target load, (belowBand e target load = true ↔ load + band e < target) ∧
        (aboveBand e target load = true ↔ target + band e < load) ∧
        (inBand e target load = true ↔ belowBand e target load = false ∧ aboveBand e target load = false)) ∧
    (∀ fin res : Reading,
      (fin.ext ≤ res.ext ∨ fin.load ≤ res.load → apparentLength e fin res = 0) ∧
      (∀ d : Nat, fin.ext = res.ext + d → 0 < d → res.load < fin.load →
        ∃ m, Rounds (e.modulus * (e.strands * e.area) * d) ((fin.load - res.load) * 10000) m ∧
          apparentLength e fin res = min 999999 m)) ∧
    (∀ (r : Record) (free bond : Nat), free = r.freeOv.getD e.freeLen → bond = r.bondOv.getD e.bondLen →
      (∀ length, lengthPasses e r length = true ↔ ∃ lo up, Rounds (free * e.lower) 100 lo ∧
        Rounds (bond * e.upper) 100 up ∧ lo ≤ length ∧ length ≤ free + up) ∧
      (0 < free → ∃ loss, Rounds (e.modulus * (e.strands * e.area) * e.drawIn) (free * 10000) loss ∧
        jackLockoff e r = min (residualTarget e + loss) (testLoad e))) ∧
    (∀ before at0 at1 length, 0 < length → ∃ loss,
      Rounds (e.modulus * (e.strands * e.area) * (at0 - at1)) (length * 10000) loss ∧
        residualLoad e before (drawIn at0 at1) length = before - loss) ∧
    (∀ residual window, window = residualTarget e * e.lockWindow / 1000 → (lockoffPasses e residual = true ↔
      residual ≤ residualTarget e + window ∧ residualTarget e ≤ residual + window)) ∧
    ∀ lift, 10 ≤ e.destStep → (stepTargets lift e.destStep).Pairwise (fun a b => b < a) ∧
      ∀ x, x ∈ stepTargets lift e.destStep ↔ 0 < x ∧ x < lift ∧
        ∃ k, 1 ≤ k ∧ k * e.destStep < 100 ∧ Rounds (lift * (100 - k * e.destStep)) 100 x

/-! ## Laws that every step keeps -/

/-- Every law of the part holds right after reset. That reset is a FRESH start with the contacts closed is the model's choice
(assumption log 1). -/
def Obligations.LawsHoldAtReset : Prop :=
  QueueDistinct State.reset ∧ AttentionLaw State.reset ∧ MarkLaw State.reset ∧ StartUpLaw State.reset ∧
    TableLaw State.reset ∧ WorkLaw State.reset ∧ ExclusionLaw State.reset ∧ DigLaw State.reset ∧
    ChannelLaw State.reset ∧ RecordRanges State.reset ∧ ImageCanonical State.reset ∧ InputLaw State.reset ∧
    ClockLaw State.reset

/-- Every step keeps the write queue without repeats (R173), the image memory canonical, revisions and retest counts in
range (R1, R56) and works time, with the time of the header that a restore holds, within its width; and while the part is up, no command but a power-on lowers works time
(R63). The content of an unlisted byte is the model's (assumption log 2). -/
def Obligations.StepKeepsTheBooks : Prop :=
  ∀ s t : State, step s = .next t →
    (QueueDistinct s → QueueDistinct t) ∧ (ImageCanonical s → ImageCanonical t) ∧ (RecordRanges s → RecordRanges t) ∧
    (ClockLaw s → ClockLaw t) ∧
    (ClockLaw s → s.sys.phase = .up → (∀ md1 md0 left, s.pending.head? ≠ some (.powerOn md1 md0 left)) → s.wck.time ≤ t.wck.time)

/-- Every step keeps the attention list in order, at most 64 entries long, with ALM following it (R135, R136, R141), no two
entries with one subject and condition, every entry's condition marked on its subject (R6, R134), and the part empty of work
and entries while a start-up is under way (R151, R176, R180); and it leaves no stop demand standing with the site CLEAR nor a
key state that does not follow the key combination (R146, R150, R152). In a list in order without a double, every entry that is
handled takes its place by level, priority, raised time and subject rank (R133, R135); a full list of 64 counts it, up to
255, and gives up the newest entry of its lowest level to a higher one (R136). -/
def Obligations.StepKeepsTheAttentionListAndTheInputs : Prop :=
  (∀ s t : State, step s = .next t → (AttentionLaw s → AttentionLaw t) ∧ (InputLaw s → InputLaw t) ∧
    (StartUpLaw s → StartUpLaw t) ∧ (StartUpLaw s → MarkLaw s → MarkLaw t)) ∧ ListOrder ∧
  ∀ (e : Entry) (a : Atu), a.entries.length ≤ 64 → a.entries.Pairwise (fun x y => y.before x = false) → a.entries.Nodup →
    HandlesEntry e a (a.place e)

/-- Every step of a part whose Anchor Table, Position Map, contexts and stations agree leaves them so (R1, R4, R9, R46, R47). -/
def Obligations.StepKeepsTheTableAndTheWork : Prop :=
  ∀ s t : State, step s = .next t → TableLaw s → WorkLaw s → TableLaw t ∧ WorkLaw t

/-- No step makes two bound contexts a near conflicting pair (R36 to R38): of kinds that Table 2-3 marks, on records whose rows
differ by 0 or 1 and whose bays differ by no more than the span. No step leaves a live record of a relied row other than
LOCKED or SUSPECT or a DESTRESS context in a row that is not relieved (R39 to R45), and none takes the channel map and the records'
bindings out of agreement (R128 to R130). -/
def Obligations.StepKeepsTheExclusionTheDigAndTheChannels : Prop :=
  ∀ s t : State, step s = .next t → TableLaw s → WorkLaw s →
    (ExclusionLaw s → ExclusionLaw t) ∧ (DigLaw s → DigLaw t) ∧ (ChannelLaw s → ChannelLaw t)

end
end

