-- ==== Sys2Proof/Laws/Attention.lean ====
section
/-! SUPPORT. The attention list and the exclusion, once each: where an entry goes, which entry is the newest of the lowest level
(R135, R136), which kinds conflict and which records are near (Table 2-3, R36). -/

namespace Sys2Proof.Machine

/-- The model's table of conflicting kinds is Table 2-3. -/
theorem kindsConflict_iff (k l : CtxKind) : kindsConflict k l = true ↔ ConflictingKinds k l := by
  cases k <;> cases l <;> decide

/-- The model's nearness is that of R36. -/
theorem near_iff (span : Nat) (x y : Record) : near span x y = true ↔ NearAt span x y := by
  unfold near NearAt distance
  simp only [decide_eq_true_eq]
  omega

/-- What stands before an entry stands before all that follows it in the order (R135). -/
theorem Entry.before_of_before_le {e x y : Entry} (h : e.before x = true) (hxy : y.before x = false) : e.before y = true := by
  simp only [Entry.before, decide_eq_true_eq, decide_eq_false_iff_not] at *
  omega

/-- An entry that is put into a list in order takes its place there (R135). -/
theorem insertEntry_putInPlace (e : Entry) (l : List Entry) (h : l.Pairwise (fun x y => y.before x = false)) :
    PutInPlace e l (insertEntry e l) := by
  induction l with
  | nil => exact ⟨[], [], rfl, rfl, nofun, nofun⟩
  | cons x l ih =>
    obtain ⟨hx, hl⟩ := List.pairwise_cons.mp h
    unfold insertEntry
    split
    · next hb =>
      refine ⟨[], x :: l, rfl, rfl, nofun, fun y hy => ?_⟩
      rcases List.mem_cons.mp hy with rfl | hy
      · exact hb
      · exact Entry.before_of_before_le hb (hx y hy)
    · next hb =>
      obtain ⟨hi, lo, rfl, h2, h3, h4⟩ := ih hl
      exact ⟨x :: hi, lo, rfl, by rw [h2]; rfl, fun y hy => by
        rcases List.mem_cons.mp hy with rfl | hy
        · simpa using hb
        · exact h3 y hy, h4⟩

/-- The least level of a list and a bound is at most each of them. -/
theorem foldl_min_le (l : List Entry) (m : Nat) :
    l.foldl (fun m e => min m e.level) m ≤ m ∧ ∀ x ∈ l, l.foldl (fun m e => min m e.level) m ≤ x.level := by
  induction l generalizing m with
  | nil => simp
  | cons a l ih =>
    obtain ⟨h1, h2⟩ := ih (min m a.level)
    refine ⟨Nat.le_trans h1 (Nat.min_le_left ..), fun x hx => ?_⟩
    rcases List.mem_cons.mp hx with rfl | hx
    · exact Nat.le_trans h1 (Nat.min_le_right ..)
    · exact h2 x hx

/-- The least level of a list and a bound is one of them. -/
theorem foldl_min_mem (l : List Entry) (m : Nat) :
    l.foldl (fun m e => min m e.level) m = m ∨ ∃ x ∈ l, x.level = l.foldl (fun m e => min m e.level) m := by
  induction l generalizing m with
  | nil => simp
  | cons a l ih =>
    rcases ih (min m a.level) with h | ⟨x, hx, h⟩
    · rw [List.foldl_cons, h]
      rcases Nat.le_total m a.level with h' | h'
      · left; omega
      · right; exact ⟨a, by simp, by omega⟩
    · exact .inr ⟨x, List.mem_cons_of_mem _ hx, h⟩

/-- The lowest level present is no higher than any, and one that is present (R136). -/
theorem lowestLevel_le {l : List Entry} {x : Entry} (h : x ∈ l) : lowestLevel l ≤ x.level := by
  cases l with
  | nil => cases h
  | cons a l =>
    rcases List.mem_cons.mp h with rfl | h
    · exact (foldl_min_le l _).1
    · exact (foldl_min_le l _).2 x h

theorem exists_lowestLevel {l : List Entry} (h : l ≠ []) : ∃ x ∈ l, x.level = lowestLevel l := by
  cases l with
  | nil => exact absurd rfl h
  | cons a l =>
    rcases foldl_min_mem l a.level with h | ⟨x, hx, h⟩
    · exact ⟨a, by simp, h.symm⟩
    · exact ⟨x, List.mem_cons_of_mem _ hx, h⟩

/-- The newest entry of a level, one entry further along the list. -/
theorem newestOf_append (lvl : Nat) (l : List Entry) (e : Entry) : newestOf lvl (l ++ [e]) =
    if e.level = lvl ∧ ((newestOf lvl l).map Entry.time).getD 0 ≤ e.time then some e else newestOf lvl l := by
  unfold newestOf; rw [List.foldl_append]; rfl

/-- The newest entry of a level is the latest raised of it, and among those the last in the order (R136). -/
theorem newestOf_spec (lvl : Nat) (l : List Entry) :
    match newestOf lvl l with
    | none => ∀ x ∈ l, x.level ≠ lvl
    | some old => ∃ hi lo, l = hi ++ old :: lo ∧ old.level = lvl ∧ (∀ y ∈ hi, y.level = lvl → y.time ≤ old.time) ∧
        ∀ y ∈ lo, y.level = lvl → y.time < old.time := by
  induction l using List.reverseRecOn with
  | nil => simp [newestOf]
  | append_singleton l e ih =>
    rw [newestOf_append]
    by_cases hc : e.level = lvl ∧ ((newestOf lvl l).map Entry.time).getD 0 ≤ e.time
    · rw [if_pos hc]
      cases hn : newestOf lvl l with
      | none =>
        rw [hn] at ih
        exact ⟨l, [], rfl, hc.1, fun y hy hy' => absurd hy' (ih y hy), nofun⟩
      | some old =>
        rw [hn] at ih hc
        obtain ⟨hi, lo, rfl, h2, h3, h4⟩ := ih
        simp only [Option.map_some, Option.getD_some] at hc
        refine ⟨_, [], rfl, hc.1, fun y hy hl => ?_, nofun⟩
        simp only [List.mem_append, List.mem_cons] at hy
        rcases hy with hy | rfl | hy
        · exact Nat.le_trans (h3 y hy hl) hc.2
        · exact hc.2
        · exact Nat.le_trans (Nat.le_of_lt (h4 y hy hl)) hc.2
    · rw [if_neg hc]
      cases hn : newestOf lvl l with
      | none =>
        rw [hn] at ih hc
        intro x hx
        rcases List.mem_append.mp hx with hx | hx
        · exact ih x hx
        · cases List.mem_singleton.mp hx
          intro h; exact hc ⟨h, by simp⟩
      | some old =>
        rw [hn] at ih hc
        obtain ⟨hi, lo, rfl, h2, h3, h4⟩ := ih
        refine ⟨hi, lo ++ [e], by simp, h2, h3, fun y hy hl => ?_⟩
        rcases List.mem_append.mp hy with hy | hy
        · exact h4 y hy hl
        · cases List.mem_singleton.mp hy
          simp only [Option.map_some, Option.getD_some] at hc
          by_contra hh
          exact hc ⟨hl, by omega⟩

/-- An entry that stands once leaves the rest of its list. -/
theorem erase_of_nodup {hi lo : List Entry} {old : Entry} (h : (hi ++ old :: lo).Nodup) : (hi ++ old :: lo).erase old = hi ++ lo := by
  have : old ∉ hi := fun hm => by
    have := List.nodup_append.mp h
    exact this.2.2 old hm old (by simp) rfl
  rw [List.erase_append_right _ this]; simp

end Sys2Proof.Machine
end

