-- ==== Sys2Proof/Laws/Checks.lean ====
section
/-! SUPPORT. Checks that the kernel can evaluate on a concrete state, and that imply the laws of Safety.lean: the witnesses
use them. -/

namespace Sys2Proof.Machine

/-! ## Tables -/

/-- What a table holds at a key stands in it. -/
theorem Table.mem_of_get? {α : Type} {t : Table α} {n : Nat} {v : α} (h : t.get? n = some v) : (n, v) ∈ t := by
  induction t with
  | nil => cases h
  | cons p t ih =>
    obtain ⟨k, w⟩ := p
    by_cases e : k = n
    · simp [Table.get?, e] at h; subst e h; exact List.mem_cons_self
    · simp [Table.get?, e] at h; exact List.mem_cons_of_mem _ (ih h)

/-- A record stands in the table of slots. -/
theorem State.mem_of_recAt {s : State} {n : Nat} {r : Record} (h : s.recAt n = some r) :
    ∃ x, (n, x) ∈ s.tbc.slots ∧ x.rec? = some r := by
  unfold State.recAt State.slotAt at h
  cases e : s.tbc.slots.get? n with
  | none => rw [e] at h; cases h
  | some x => rw [e] at h; exact ⟨x, Table.mem_of_get? e, h⟩

/-- What holds of every listed record holds of every record. -/
theorem State.recs_all {s : State} {p : Nat → Record → Bool}
    (h : s.tbc.slots.all (fun q => q.2.rec?.all (p q.1)) = true) {n : Nat} {r : Record} (hr : s.recAt n = some r) :
    p n r = true := by
  obtain ⟨x, hm, hx⟩ := State.mem_of_recAt hr
  have := List.all_eq_true.1 h _ hm
  simpa [hx] using this

/-- What holds of every listed context holds of every context. -/
theorem State.ctxs_all {s : State} {p : Nat → Context → Bool} (h : s.cxp.contexts.all (fun q => p q.1 q.2) = true)
    {c : Nat} {x : Context} (hx : s.ctxAt c = some x) : p c x = true :=
  List.all_eq_true.1 h _ (Table.mem_of_get? hx)

/-- What holds of the sixteen stations holds of every bound one: no other station is bound. -/
theorem State.bound_lt {s : State} {n c : Nat} (h : (s.stationAt n).ctx = some c) : n < 16 := by
  by_contra hn
  have : s.bmu.stations[n]? = none := by simp; omega
  simp [State.stationAt, this, Station.unenrolled, Station.powered] at h

/-! ## The checks -/

/-- The key of a record is in range and its links name records of its position. -/
def recordOk (s : State) (n : Nat) (r : Record) : Bool :=
  let link (o : Option Nat) : Bool := o.all (fun m => (s.recAt m).any (fun q => decide (q.row = r.row ∧ q.bay = r.bay)))
  decide (n < 512 ∧ 1 ≤ r.row ∧ r.row ≤ 12 ∧ 1 ≤ r.bay ∧ r.bay ≤ 400 ∧ r.gen ≤ 3) && link r.replacedBy && link r.replaces

/-- The check of TableLaw. -/
def tableOk (s : State) : Bool :=
  decide (Table.wf s.tbc.slots) && decide (Table.wf s.tbc.map) &&
    s.tbc.slots.all (fun p => p.2.rec?.all (recordOk s p.1)) &&
    s.tbc.slots.all (fun p => p.2.rec?.all (fun r => s.tbc.slots.all (fun q => q.2.rec?.all (fun r' =>
      decide (r.row = r'.row → r.bay = r'.bay → r.gen = r'.gen → p.1 = q.1))))) &&
    s.tbc.map.all (fun e => (s.recAt e.2).any (fun r => decide (posKey r.row r.bay = e.1 ∧ r.state ≠ .retired)))

theorem tableLaw_of_check {s : State} (h : tableOk s = true) : TableLaw s := by
  simp only [tableOk, Bool.and_eq_true, decide_eq_true_eq] at h
  obtain ⟨⟨⟨⟨h1, h2⟩, h3⟩, h4⟩, h5⟩ := h
  have ok : ∀ n r, s.recAt n = some r → recordOk s n r = true := fun n r hr => State.recs_all h3 hr
  refine ⟨h1, h2, ?_, ?_, ?_, ?_⟩
  · intro n r hr
    have := ok n r hr
    simp [recordOk] at this
    omega
  · intro n m r q hr hq e1 e2 e3
    have a := State.recs_all (p := fun n r => s.tbc.slots.all (fun q => q.2.rec?.all (fun r' =>
      decide (r.row = r'.row → r.bay = r'.bay → r.gen = r'.gen → n = q.1)))) h4 hr
    have b := State.recs_all (p := fun m r' => decide (r.row = r'.row → r.bay = r'.bay → r.gen = r'.gen → n = m)) a hq
    exact of_decide_eq_true b e1 e2 e3
  · intro key n hk
    have := List.all_eq_true.1 h5 _ (Table.mem_of_get? hk)
    cases e : s.recAt n with
    | none => simp [e] at this
    | some r => simp [e] at this; exact ⟨r, rfl, this.1, this.2⟩
  · intro n m r hr hl
    have := ok n r hr
    simp [recordOk] at this
    rcases hl with hl | hl
    · have := this.1.2
      rw [hl] at this
      cases e : s.recAt m with
      | none => simp [e] at this
      | some q => simp [e] at this; exact ⟨q, rfl, this⟩
    · have := this.2
      rw [hl] at this
      cases e : s.recAt m with
      | none => simp [e] at this
      | some q => simp [e] at this; exact ⟨q, rfl, this⟩

/-- The check of WorkLaw. -/
def workOk (s : State) : Bool :=
  decide (Table.wf s.cxp.contexts) &&
    s.cxp.contexts.all (fun p => decide (p.1 < 12) &&
      (s.recAt p.2.slot).any (fun r => decide (r.state = p.2.prog.kind.workState ∧ r.context = some p.1)) &&
      decide (p.2.station < 16 ∧ (s.stationAt p.2.station).kind = p.2.prog.kind.stationKind ∧
        (s.stationAt p.2.station).ctx = some p.1)) &&
    s.tbc.slots.all (fun p => p.2.rec?.all (fun r => !r.state.isWork ||
      s.cxp.contexts.any (fun q => decide (q.2.slot = p.1 ∧ s.ctxAt q.1 = some q.2)))) &&
    (List.range 16).all (fun n => (s.stationAt n).ctx.all (fun c => (s.ctxAt c).any (fun x => decide (x.station = n)))) &&
    decide (s.sys.phase = .up ∨ s.cxp.contexts = [])

theorem workLaw_of_check {s : State} (h : workOk s = true) : WorkLaw s := by
  simp only [workOk, Bool.and_eq_true, decide_eq_true_eq] at h
  obtain ⟨⟨⟨⟨h1, h2⟩, h3⟩, h4⟩, h5⟩ := h
  refine ⟨h1, ?_, ?_, ?_, ?_⟩
  · intro c x hx
    have := State.ctxs_all (p := fun c x => decide (c < 12) &&
      (s.recAt x.slot).any (fun r => decide (r.state = x.prog.kind.workState ∧ r.context = some c)) &&
      decide (x.station < 16 ∧ (s.stationAt x.station).kind = x.prog.kind.stationKind ∧
        (s.stationAt x.station).ctx = some c)) h2 hx
    simp only [Bool.and_eq_true, decide_eq_true_eq] at this
    obtain ⟨⟨a, b⟩, d⟩ := this
    cases e : s.recAt x.slot with
    | none => simp [e] at b
    | some r => simp [e] at b; exact ⟨a, ⟨r, rfl, b⟩, d⟩
  · intro n r hr hw
    have := State.recs_all (p := fun n r => !r.state.isWork ||
      s.cxp.contexts.any (fun q => decide (q.2.slot = n ∧ s.ctxAt q.1 = some q.2))) h3 hr
    rw [hw] at this
    simp only [Bool.not_true, Bool.false_or, List.any_eq_true, decide_eq_true_eq] at this
    obtain ⟨q, -, a, b⟩ := this
    exact ⟨q.1, q.2, b, a⟩
  · intro n c hc
    have := List.all_eq_true.1 h4 n (List.mem_range.2 (State.bound_lt hc))
    cases e : s.ctxAt c with
    | none => simp [hc, e] at this
    | some x => simp [hc, e] at this; exact ⟨x, rfl, this⟩
  · intro hp
    rcases h5 with h5 | h5
    · exact absurd h5 hp
    · exact h5

/-- The check of ChannelLaw. -/
def channelOk (s : State) : Bool :=
  s.tbc.slots.all (fun p => p.2.rec?.all (fun r => r.binding.all (fun b => decide (r.state = .locked ∧ 1 ≤ b.station ∧
    b.station ≤ 15 ∧ b.channel ≤ 7 ∧ s.channels.get? (channelKey b) = some p.1)))) &&
    s.channels.all (fun e => (s.recAt e.2).any (fun r => r.binding.any (fun b => decide (channelKey b = e.1))))

theorem channelLaw_of_check {s : State} (h : channelOk s = true) : ChannelLaw s := by
  simp only [channelOk, Bool.and_eq_true] at h
  refine ⟨?_, ?_⟩
  · intro n r b hr hb
    have := State.recs_all (p := fun n r => r.binding.all (fun b => decide (r.state = .locked ∧ 1 ≤ b.station ∧
      b.station ≤ 15 ∧ b.channel ≤ 7 ∧ s.channels.get? (channelKey b) = some n))) h.1 hr
    simpa [hb] using this
  · intro key n hk
    have := List.all_eq_true.1 h.2 _ (Table.mem_of_get? hk)
    cases e : s.recAt n with
    | none => simp [e] at this
    | some r =>
      cases e' : r.binding with
      | none => simp [e, e'] at this
      | some b => simp [e, e'] at this; exact ⟨r, b, rfl, e', this⟩

/-- The check of RecordRanges. -/
def rangesOk (s : State) : Bool :=
  s.tbc.slots.all (fun p => decide (p.2.rev ≤ 65535) && p.2.rec?.all (fun r => decide (r.retests ≤ 2)))

theorem recordRanges_of_check {s : State} (h : rangesOk s = true) : RecordRanges s := by
  have h' := List.all_eq_true.1 h
  refine ⟨fun n => ?_, fun n r hr => ?_⟩
  · unfold State.revAt State.slotAt
    cases e : s.tbc.slots.get? n with
    | none => simp [Slot.fresh]
    | some x =>
      have := h' _ (Table.mem_of_get? e)
      simp at this
      simpa using this.1
  · obtain ⟨x, hm, hx⟩ := State.mem_of_recAt hr
    have := h' _ hm
    simp [hx] at this
    exact this.2

/-- No record stands at a position, so its first generation is 0. -/
theorem newGeneration_zero {s : State} {row bay : Nat}
    (h : s.tbc.slots.all (fun p => p.2.rec?.all (fun r => decide (¬ (r.row = row ∧ r.bay = bay)))) = true) :
    NewGeneration s row bay 0 := by
  refine ⟨fun m r hr e1 e2 => ?_, Or.inl rfl⟩
  have := State.recs_all (p := fun _ r => decide (¬ (r.row = row ∧ r.bay = bay))) h hr
  exact absurd ⟨e1, e2⟩ (of_decide_eq_true this)

/-- The record of slot `n` has the highest generation at its position, so the next is one above it. -/
theorem newGeneration_next {s : State} {n : Nat} {r : Record} (hr : s.recAt n = some r)
    (h : s.tbc.slots.all (fun p => p.2.rec?.all (fun q =>
      decide (q.row = r.row → q.bay = r.bay → q.gen ≤ r.gen))) = true) :
    NewGeneration s r.row r.bay (r.gen + 1) := by
  refine ⟨fun m q hq e1 e2 => ?_, Or.inr ⟨n, r, hr, rfl, rfl, rfl⟩⟩
  have := State.recs_all (p := fun _ q => decide (q.row = r.row → q.bay = r.bay → q.gen ≤ r.gen)) h hq
  have := of_decide_eq_true this e1 e2
  omega

/-! ## Requests -/

/-- A request is served when both of its checks hold. -/
theorem served_of {s : State} {h : Ask} {q : Req} (e : (s.takesAsk h && s.permits h.station q) = true) : Served s h q := by
  simpa [Served] using e

/-! ## A table that lists every key -/

/-- What a table of consecutive keys holds. -/
theorem Table.get?_range' {α : Type} (f : Nat → α) (m a n : Nat) :
    Table.get? ((List.range' a m).map (fun k => (k, f k))) n = if a ≤ n ∧ n < a + m then some (f n) else none := by
  induction m generalizing a with
  | zero => simp [Table.get?]
  | succ m ih =>
    rw [List.range'_succ, List.map_cons]
    by_cases e : a = n
    · subst e; simp [Table.get?]
    · simp only [Table.get?, e, if_false]
      rw [ih]
      by_cases c : a + 1 ≤ n ∧ n < a + 1 + m
      · rw [if_pos c, if_pos (by omega)]
      · rw [if_neg c, if_neg (by omega)]

/-- A table of the keys 0 to `m - 1`. -/
theorem Table.get?_range {α : Type} (f : Nat → α) (m n : Nat) :
    Table.get? ((List.range m).map (fun k => (k, f k))) n = if n < m then some (f n) else none := by
  rw [List.range_eq_range', Table.get?_range']; simp

end Sys2Proof.Machine
end

