-- ==== Sys2Proof/Laws/Jack.lean ====
section
/-! SUPPORT. What each operation of the phase logic (chapter 6) does to the progress of a context, said once in the terms of
Safety, and the same of a pump's steps (R79) and of the turn of a station (R164). -/

namespace Sys2Proof.Machine

/-! ## Steps 3 and 4 of R109 -/

theorem pressOrder_eq (env : JackEnv) (target : Nat) : pressOrder env target = pressing env.cal target := rfl

theorem phaseTarget_eq (env : JackEnv) (p : JackProg) : phaseTarget env p = phaseLoad env.cls env.rcd p := by
  unfold phaseTarget phaseLoad; cases p.phase <;> rfl

theorem holdTime_eq (env : JackEnv) (p : JackProg) : holdTime env p = holdDuration env.cls p := by
  unfold holdTime holdDuration; cases p.phase <;> rfl

theorem inBand_iff (cls : ClassEntry) (target load : Nat) : inBand cls target load = true ↔ Within cls target load := by
  simp [inBand, Within]

theorem approach_eq (p : JackProg) : p.approach = approaching p := rfl

theorem restrokeTests_eq (p : JackProg) (env : JackEnv) (t : JackReading) :
    p.restrokeTests env t = restroked env.cls env.rcd env.cal p t.load t.stroke t.restroking := by
  unfold JackProg.restrokeTests restroked distance
  cases h : p.register with
  | closed => simp
  | opened => simp [pressOrder_eq, phaseTarget_eq]
  | underWay => simp [pressOrder_eq, phaseTarget_eq]

theorem extension_eq (p : JackProg) (stroke : Nat) : p.extension stroke = extensionAt p stroke := by
  unfold JackProg.extension extensionAt; cases p.register <;> rfl

/-- The reply as the last used one, its extension as R97 forms it. -/
theorem used_eq (p : JackProg) (t : JackReading) : t.used p =
    { pressure := t.pressure, load := t.load, stroke := t.stroke, ext := extensionAt p t.stroke } := by
  simp [JackReading.used, extension_eq]

/-- The progress after the fault hold, the restroke tests and the keeping of the reply. -/
theorem replied_eq (p : JackProg) (env : JackEnv) (stress fault : Bool) (t : JackReading) :
    (if stress then ({ p with faultHold := fault } : JackProg).restrokeTests env t
      else { p with faultHold := fault }).keep t =
      replied env.cls env.rcd env.cal stress p fault t.pressure t.load t.stroke t.restroking := by
  cases stress <;> simp [replied, JackProg.keep, used_eq, restrokeTests_eq]

/-! ## Band holds (R112, R113, R117, R118, R125) -/

theorem enter_eq (p : JackProg) (env : JackEnv) (phase : JackPhase) (index : Nat) :
    p.enter env phase index = entering p phase index (entryOrder env { p.approach with phase := phase, index := index }) :=
  rfl

/-- A band hold's completion: the verdict LENGTH_FAIL, or the progress of the next phase. -/
theorem completeHold_eq (p : JackProg) (env : JackEnv) (closing : LastReply) (h : BandPhase p) :
    p.completeHold env closing =
      if p.phase = .unload ∧ lengthPasses env.cls env.rcd (unloadLength env.cls p closing) = false then
        ({ p with
          residual := some { ext := closing.ext, load := closing.load }
          freeLength := some (unloadLength env.cls p closing), phase := .verdict }, .fails .lengthFail)
      else (holdCompleted env.cls env.rcd env.cal p closing, .goesOn) := by
  unfold JackProg.completeHold holdCompleted
  rcases h with h | h | h | h | h <;> rw [h]
  · by_cases g : env.cls.stages = [] <;> simp [g, enter_eq, entryOrder, phaseTarget, pressOrder_eq]
  · by_cases g : p.index < env.cls.stages.length <;> simp [g, enter_eq, entryOrder, phaseTarget, pressOrder_eq]
  · simp only [unloadLength]
    by_cases g : lengthPasses env.cls env.rcd (apparentLength env.cls
        (p.closing.getD { ext := closing.ext, load := closing.load }) { ext := closing.ext, load := closing.load }) = true <;>
      simp [g, enter_eq, entryOrder, phaseTarget, pressOrder_eq]
  · simp [enter_eq, entryOrder]
  · by_cases g : p.index < p.steps.length
    · simp only [g, if_true, enter_eq, entryOrder, JackProg.approach, Nat.add_sub_cancel]; simp
    · simp [g, enter_eq, entryOrder]

/-- A band hold phase on a reply within the band, for which step 6 is made in full: a due advance completes the hold, a
running one goes on, and APPROACH ends as the hold starts. -/
theorem bandLogic_within (p : JackProg) (env : JackEnv) (t : JackReading)
    (w : Within env.cls (phaseLoad env.cls env.rcd p) t.load) :
    p.bandLogic env t =
      if p.pendingAdv then p.completeHold env (t.used p)
      else if p.holding then (p, .goesOn)
      else ({ p with holding := true, timer := some (holdDuration env.cls p), elapsed := 0, counting := true }, .goesOn) := by
  unfold JackProg.bandLogic
  have e := (inBand_iff env.cls (phaseTarget env p) t.load).mpr (by rw [phaseTarget_eq]; exact w)
  simp only [e, holdTime_eq, if_true]

/-- The same outside the band: a hold, running or over, goes back to APPROACH. -/
theorem bandLogic_outside (p : JackProg) (env : JackEnv) (t : JackReading)
    (w : ¬ Within env.cls (phaseLoad env.cls env.rcd p) t.load) :
    p.bandLogic env t = (if p.pendingAdv ∨ p.holding then approaching p else p, .goesOn) := by
  unfold JackProg.bandLogic
  have e := Bool.eq_false_iff.mpr (fun x => w (phaseTarget_eq env p ▸ (inBand_iff env.cls (phaseTarget env p) t.load).mp x))
  simp only [e]
  cases p.pendingAdv <;> cases p.holding <;> simp [approach_eq]

/-! ## The test hold (R114 to R116) -/

theorem startTest_eq (p : JackProg) (cls : ClassEntry) (now : Reading) : p.startTest cls now = testStarted cls p now := by
  unfold JackProg.startTest testStarted readingAt
  simp

theorem readingAt_eq (elapsed t : Nat) (old : Option Reading) (now : Reading) :
    readingAt elapsed t old now = readAt t elapsed old now := by
  cases old <;> rfl

/-- The readings of a used reply in the test hold: it starts again, or takes its readings and forms its creeps. -/
theorem testReadings_eq (p : JackProg) (cls : ClassEntry) (now : Reading) :
    (TestLate cls p → p.testReadings cls now = testStarted cls p now) ∧
      (¬ TestLate cls p → p.testReadings cls now = testJudged cls p now) := by
  have e : (readingLate p.elapsed cls.tA0 p.atA0 ∨ readingLate p.elapsed cls.tA1 p.atA1 ∨
      readingLate p.elapsed cls.tB0 p.atB0 ∨ readingLate p.elapsed cls.tB1 p.atB1) ↔ TestLate cls p := by
    simp [readingLate, TestLate]
  unfold JackProg.testReadings
  refine ⟨fun h => ?_, fun h => ?_⟩
  · rw [if_pos (e.mpr h), startTest_eq]
  · rw [if_neg (fun x => h (e.mp x))]
    simp only [readingAt_eq]
    rfl

theorem followLoad_eq (p : JackProg) (env : JackEnv) (load : Nat) :
    p.followLoad env load = loadFollowed env.cls env.cal p load := by
  simp [JackProg.followLoad, loadFollowed, belowBand, aboveBand, pressOrder_eq, bump255]

theorem leaveTest_closed (p : JackProg) (env : JackEnv) (h : p.closing ≠ none) :
    p.leaveTest env = (entering { p with atB0 := if p.creepB = none then none else p.atB0 } .unload 0
      (pressing env.cal (datumTarget env.cls)), .goesOn) := by
  obtain ⟨c, hc⟩ := Option.ne_none_iff_exists'.mp h
  cases hb : p.creepB <;> simp [JackProg.leaveTest, hc, hb, enter_eq, entryOrder, phaseTarget, pressOrder_eq]

/-! ## Verdicts (R120, R121) -/

theorem stressResult_creep (env : JackEnv) (p : JackProg) :
    stressResult env p .creepFail none = verdictResult env.cls p .creepFail none none := by
  cases h : p.creepB <;> simp [stressResult, verdictResult, h]

theorem stressResult_length (env : JackEnv) (p : JackProg) :
    stressResult env p .lengthFail none = verdictResult env.cls p .lengthFail p.freeLength none := by
  cases h : p.creepB <;> simp [stressResult, verdictResult, h]

theorem stressResult_seated (env : JackEnv) (p : JackProg) (v : Verdict) (hv : v ≠ .creepFail) (res load at0 at1 : Nat)
    (hb : p.beforeSeat = some (load, at0)) (ha : p.afterSeat = some at1) :
    stressResult env p v (some res) =
      verdictResult env.cls p v p.freeLength (some (jackLockoff env.cls env.rcd, at0 - at1, res)) := by
  cases h : p.creepB <;> simp [stressResult, verdictResult, h, hb, ha, hv, drawIn]

theorem failParting_unload (env : JackEnv) (v : Verdict) (hv : v ≠ .lockoffFail) :
    failParting env v = unloadParting env.cls env.cal := by
  cases v <;> first | rfl | exact absurd rfl hv

/-! ## A pump's steps (R79) -/

theorem counterDelta_of (baseline delta count : Nat) (hb : baseline < 65536) (hd : delta < 65536)
    (h : (baseline + delta) % 65536 = count) : counterDelta count baseline = delta := by
  unfold counterDelta; omega

/-- The progress of a GROUT context after a used reply. -/
theorem groutRead_eq (p : GroutProg) (cls : ClassEntry) (count delta pressure : Nat) (hb : p.baseline < 65536)
    (hd : delta < 65536) (h : (p.baseline + delta) % 65536 = count) :
    p.read cls count pressure = { p with
      baseline := count
      total := if 32768 ≤ delta then p.total else min 4294967295 (p.total + delta)
      peak := max p.peak pressure
      refTimer := if pressure < cls.refPress then 0 else p.refTimer
      counting := decide (cls.refPress ≤ pressure), due := false } := by
  unfold GroutProg.read totalAfter isSetback grow
  rw [counterDelta_of p.baseline delta count hb hd h]
  by_cases g : cls.refPress ≤ pressure <;> simp [g, Config.max32]

/-! ## Turns (R162, R164, R165) -/

theorem mayCall_iff (s : State) (n : Nat) (l : LineId) :
    s.mayCall n l = true ↔ (s.stationAt n).state ≠ .unused ∧ s.usable n l = true := by
  simp [State.mayCall]

theorem stationAt_of_ge (s : State) (n : Nat) (h : 16 ≤ n) : s.stationAt n = Station.unenrolled := by
  unfold State.stationAt
  rw [Vector.getElem?_eq_none (by omega)]; rfl

theorem hasTurn_iff (s : State) (n : Nat) : s.hasTurn n = true ↔ HasTurn s n := by
  have e : s.hasTurn n = true ↔ s.mayCall n .a = true ∨ s.mayCall n .b = true := by
    unfold State.hasTurn; exact decide_eq_true_iff
  rw [e, mayCall_iff, mayCall_iff]
  constructor
  · intro h
    have hn : (s.stationAt n).state ≠ .unused := h.elim And.left And.left
    refine ⟨?_, hn, h.elim (fun x => ⟨.a, x.2⟩) (fun x => ⟨.b, x.2⟩)⟩
    by_contra g
    rw [stationAt_of_ge s n (by omega)] at hn
    exact hn rfl
  · rintro ⟨-, h, l, u⟩
    cases l
    · exact .inl ⟨h, u⟩
    · exact .inr ⟨h, u⟩

/-- A turn has a line for its next attempt exactly while its station has a turn. -/
theorem pickLine_isSome (s : State) (t : Turn) : (s.pickLine t).isSome = true ↔ HasTurn s t.station := by
  rw [← hasTurn_iff]
  have e : s.hasTurn t.station = true ↔ s.mayCall t.station .a = true ∨ s.mayCall t.station .b = true := by
    unfold State.hasTurn; exact decide_eq_true_iff
  have two : ∀ l : LineId, (if s.mayCall t.station l then some l
      else if s.mayCall t.station (otherLine l) then some (otherLine l) else none).isSome = true ↔
      s.mayCall t.station .a = true ∨ s.mayCall t.station .b = true := by
    intro l
    cases ha : s.mayCall t.station .a <;> cases hb : s.mayCall t.station .b <;> cases l <;> simp [otherLine, ha, hb]
  rw [e]
  exact two _

end Sys2Proof.Machine
end

