-- ==== Sys2Proof/Laws/State.lean ====
section
/-! SUPPORT. What each plain update of the state leaves alone, and what it sets: true by rfl, so that no later proof
unfolds a record update. -/

namespace Sys2Proof.Machine

/-! ## What is left alone -/

@[simp] theorem State.putSlot_cxp (s : State) (n : Nat) (x : Slot) : (s.putSlot n x).cxp = s.cxp := rfl
@[simp] theorem State.putSlot_cals (s : State) (n : Nat) (x : Slot) : (s.putSlot n x).cals = s.cals := rfl
@[simp] theorem State.putSlot_channels (s : State) (n : Nat) (x : Slot) : (s.putSlot n x).channels = s.channels := rfl
@[simp] theorem State.putSlot_atu (s : State) (n : Nat) (x : Slot) : (s.putSlot n x).atu = s.atu := rfl
@[simp] theorem State.putSlot_wck (s : State) (n : Nat) (x : Slot) : (s.putSlot n x).wck = s.wck := rfl
@[simp] theorem State.putSlot_bmu (s : State) (n : Nat) (x : Slot) : (s.putSlot n x).bmu = s.bmu := rfl
@[simp] theorem State.putSlot_ifu (s : State) (n : Nat) (x : Slot) : (s.putSlot n x).ifu = s.ifu := rfl
@[simp] theorem State.putSlot_isi (s : State) (n : Nat) (x : Slot) : (s.putSlot n x).isi = s.isi := rfl
@[simp] theorem State.putSlot_sys (s : State) (n : Nat) (x : Slot) : (s.putSlot n x).sys = s.sys := rfl
@[simp] theorem State.putSlot_freeNext (s : State) (n : Nat) (x : Slot) : (s.putSlot n x).freeNext = s.freeNext := rfl
@[simp] theorem State.putSlot_pending (s : State) (n : Nat) (x : Slot) : (s.putSlot n x).pending = s.pending := rfl

@[simp] theorem State.putCtx_tbc (s : State) (c : Nat) (x : Context) : (s.putCtx c x).tbc = s.tbc := rfl
@[simp] theorem State.putCtx_cals (s : State) (c : Nat) (x : Context) : (s.putCtx c x).cals = s.cals := rfl
@[simp] theorem State.putCtx_channels (s : State) (c : Nat) (x : Context) : (s.putCtx c x).channels = s.channels := rfl
@[simp] theorem State.putCtx_atu (s : State) (c : Nat) (x : Context) : (s.putCtx c x).atu = s.atu := rfl
@[simp] theorem State.putCtx_wck (s : State) (c : Nat) (x : Context) : (s.putCtx c x).wck = s.wck := rfl
@[simp] theorem State.putCtx_bmu (s : State) (c : Nat) (x : Context) : (s.putCtx c x).bmu = s.bmu := rfl
@[simp] theorem State.putCtx_ifu (s : State) (c : Nat) (x : Context) : (s.putCtx c x).ifu = s.ifu := rfl
@[simp] theorem State.putCtx_isi (s : State) (c : Nat) (x : Context) : (s.putCtx c x).isi = s.isi := rfl
@[simp] theorem State.putCtx_sys (s : State) (c : Nat) (x : Context) : (s.putCtx c x).sys = s.sys := rfl
@[simp] theorem State.putCtx_freeNext (s : State) (c : Nat) (x : Context) : (s.putCtx c x).freeNext = s.freeNext := rfl
@[simp] theorem State.putCtx_pending (s : State) (c : Nat) (x : Context) : (s.putCtx c x).pending = s.pending := rfl

@[simp] theorem State.putStation_tbc (s : State) (n : Nat) (x : Station) : (s.putStation n x).tbc = s.tbc := rfl
@[simp] theorem State.putStation_cxp (s : State) (n : Nat) (x : Station) : (s.putStation n x).cxp = s.cxp := rfl
@[simp] theorem State.putStation_cals (s : State) (n : Nat) (x : Station) : (s.putStation n x).cals = s.cals := rfl
@[simp] theorem State.putStation_channels (s : State) (n : Nat) (x : Station) : (s.putStation n x).channels = s.channels := rfl
@[simp] theorem State.putStation_atu (s : State) (n : Nat) (x : Station) : (s.putStation n x).atu = s.atu := rfl
@[simp] theorem State.putStation_wck (s : State) (n : Nat) (x : Station) : (s.putStation n x).wck = s.wck := rfl
@[simp] theorem State.putStation_ifu (s : State) (n : Nat) (x : Station) : (s.putStation n x).ifu = s.ifu := rfl
@[simp] theorem State.putStation_isi (s : State) (n : Nat) (x : Station) : (s.putStation n x).isi = s.isi := rfl
@[simp] theorem State.putStation_sys (s : State) (n : Nat) (x : Station) : (s.putStation n x).sys = s.sys := rfl
@[simp] theorem State.putStation_freeNext (s : State) (n : Nat) (x : Station) : (s.putStation n x).freeNext = s.freeNext := rfl
@[simp] theorem State.putStation_pending (s : State) (n : Nat) (x : Station) : (s.putStation n x).pending = s.pending := rfl

@[simp] theorem State.setExchange_tbc (s : State) (x : Exchange) : (s.setExchange x).tbc = s.tbc := rfl
@[simp] theorem State.setExchange_cxp (s : State) (x : Exchange) : (s.setExchange x).cxp = s.cxp := rfl
@[simp] theorem State.setExchange_cals (s : State) (x : Exchange) : (s.setExchange x).cals = s.cals := rfl
@[simp] theorem State.setExchange_channels (s : State) (x : Exchange) : (s.setExchange x).channels = s.channels := rfl
@[simp] theorem State.setExchange_atu (s : State) (x : Exchange) : (s.setExchange x).atu = s.atu := rfl
@[simp] theorem State.setExchange_wck (s : State) (x : Exchange) : (s.setExchange x).wck = s.wck := rfl
@[simp] theorem State.setExchange_ifu (s : State) (x : Exchange) : (s.setExchange x).ifu = s.ifu := rfl
@[simp] theorem State.setExchange_isi (s : State) (x : Exchange) : (s.setExchange x).isi = s.isi := rfl
@[simp] theorem State.setExchange_sys (s : State) (x : Exchange) : (s.setExchange x).sys = s.sys := rfl
@[simp] theorem State.setExchange_freeNext (s : State) (x : Exchange) : (s.setExchange x).freeNext = s.freeNext := rfl
@[simp] theorem State.setExchange_pending (s : State) (x : Exchange) : (s.setExchange x).pending = s.pending := rfl

@[simp] theorem State.transmit_tbc (s : State) (l : List Sent) : (s.transmit l).tbc = s.tbc := rfl
@[simp] theorem State.transmit_cxp (s : State) (l : List Sent) : (s.transmit l).cxp = s.cxp := rfl
@[simp] theorem State.transmit_cals (s : State) (l : List Sent) : (s.transmit l).cals = s.cals := rfl
@[simp] theorem State.transmit_channels (s : State) (l : List Sent) : (s.transmit l).channels = s.channels := rfl
@[simp] theorem State.transmit_atu (s : State) (l : List Sent) : (s.transmit l).atu = s.atu := rfl
@[simp] theorem State.transmit_wck (s : State) (l : List Sent) : (s.transmit l).wck = s.wck := rfl
@[simp] theorem State.transmit_ifu (s : State) (l : List Sent) : (s.transmit l).ifu = s.ifu := rfl
@[simp] theorem State.transmit_isi (s : State) (l : List Sent) : (s.transmit l).isi = s.isi := rfl
@[simp] theorem State.transmit_sys (s : State) (l : List Sent) : (s.transmit l).sys = s.sys := rfl
@[simp] theorem State.transmit_freeNext (s : State) (l : List Sent) : (s.transmit l).freeNext = s.freeNext := rfl
@[simp] theorem State.transmit_pending (s : State) (l : List Sent) : (s.transmit l).pending = s.pending := rfl

@[simp] theorem State.answer_tbc (s : State) (h : Ask) (a : Answer) (w : AfterAnswer) : (s.answer h a w).tbc = s.tbc := rfl
@[simp] theorem State.answer_cxp (s : State) (h : Ask) (a : Answer) (w : AfterAnswer) : (s.answer h a w).cxp = s.cxp := rfl
@[simp] theorem State.answer_cals (s : State) (h : Ask) (a : Answer) (w : AfterAnswer) : (s.answer h a w).cals = s.cals := rfl
@[simp] theorem State.answer_channels (s : State) (h : Ask) (a : Answer) (w : AfterAnswer) : (s.answer h a w).channels = s.channels := rfl
@[simp] theorem State.answer_atu (s : State) (h : Ask) (a : Answer) (w : AfterAnswer) : (s.answer h a w).atu = s.atu := rfl
@[simp] theorem State.answer_wck (s : State) (h : Ask) (a : Answer) (w : AfterAnswer) : (s.answer h a w).wck = s.wck := rfl
@[simp] theorem State.answer_ifu (s : State) (h : Ask) (a : Answer) (w : AfterAnswer) : (s.answer h a w).ifu = s.ifu := rfl
@[simp] theorem State.answer_isi (s : State) (h : Ask) (a : Answer) (w : AfterAnswer) : (s.answer h a w).isi = s.isi := rfl
@[simp] theorem State.answer_sys (s : State) (h : Ask) (a : Answer) (w : AfterAnswer) : (s.answer h a w).sys = s.sys := rfl
@[simp] theorem State.answer_freeNext (s : State) (h : Ask) (a : Answer) (w : AfterAnswer) : (s.answer h a w).freeNext = s.freeNext := rfl
@[simp] theorem State.answer_pending (s : State) (h : Ask) (a : Answer) (w : AfterAnswer) : (s.answer h a w).pending = s.pending := rfl

@[simp] theorem State.setTurn_tbc (s : State) (t : Turn) : (s.setTurn t).tbc = s.tbc := rfl
@[simp] theorem State.setTurn_cxp (s : State) (t : Turn) : (s.setTurn t).cxp = s.cxp := rfl
@[simp] theorem State.setTurn_cals (s : State) (t : Turn) : (s.setTurn t).cals = s.cals := rfl
@[simp] theorem State.setTurn_channels (s : State) (t : Turn) : (s.setTurn t).channels = s.channels := rfl
@[simp] theorem State.setTurn_atu (s : State) (t : Turn) : (s.setTurn t).atu = s.atu := rfl
@[simp] theorem State.setTurn_wck (s : State) (t : Turn) : (s.setTurn t).wck = s.wck := rfl
@[simp] theorem State.setTurn_ifu (s : State) (t : Turn) : (s.setTurn t).ifu = s.ifu := rfl
@[simp] theorem State.setTurn_isi (s : State) (t : Turn) : (s.setTurn t).isi = s.isi := rfl
@[simp] theorem State.setTurn_sys (s : State) (t : Turn) : (s.setTurn t).sys = s.sys := rfl
@[simp] theorem State.setTurn_freeNext (s : State) (t : Turn) : (s.setTurn t).freeNext = s.freeNext := rfl
@[simp] theorem State.setTurn_pending (s : State) (t : Turn) : (s.setTurn t).pending = s.pending := rfl

@[simp] theorem State.untell_tbc (s : State) (p : Entry → Bool) : (s.untell p).tbc = s.tbc := rfl
@[simp] theorem State.untell_cxp (s : State) (p : Entry → Bool) : (s.untell p).cxp = s.cxp := rfl
@[simp] theorem State.untell_cals (s : State) (p : Entry → Bool) : (s.untell p).cals = s.cals := rfl
@[simp] theorem State.untell_channels (s : State) (p : Entry → Bool) : (s.untell p).channels = s.channels := rfl
@[simp] theorem State.untell_wck (s : State) (p : Entry → Bool) : (s.untell p).wck = s.wck := rfl
@[simp] theorem State.untell_bmu (s : State) (p : Entry → Bool) : (s.untell p).bmu = s.bmu := rfl
@[simp] theorem State.untell_ifu (s : State) (p : Entry → Bool) : (s.untell p).ifu = s.ifu := rfl
@[simp] theorem State.untell_isi (s : State) (p : Entry → Bool) : (s.untell p).isi = s.isi := rfl
@[simp] theorem State.untell_sys (s : State) (p : Entry → Bool) : (s.untell p).sys = s.sys := rfl
@[simp] theorem State.untell_freeNext (s : State) (p : Entry → Bool) : (s.untell p).freeNext = s.freeNext := rfl
@[simp] theorem State.untell_pending (s : State) (p : Entry → Bool) : (s.untell p).pending = s.pending := rfl

@[simp] theorem State.untellOne_tbc (s : State) (subj : Subject) (c : Cond) : (s.untellOne subj c).tbc = s.tbc := rfl
@[simp] theorem State.untellOne_cxp (s : State) (subj : Subject) (c : Cond) : (s.untellOne subj c).cxp = s.cxp := rfl
@[simp] theorem State.untellOne_cals (s : State) (subj : Subject) (c : Cond) : (s.untellOne subj c).cals = s.cals := rfl
@[simp] theorem State.untellOne_channels (s : State) (subj : Subject) (c : Cond) : (s.untellOne subj c).channels = s.channels := rfl
@[simp] theorem State.untellOne_wck (s : State) (subj : Subject) (c : Cond) : (s.untellOne subj c).wck = s.wck := rfl
@[simp] theorem State.untellOne_bmu (s : State) (subj : Subject) (c : Cond) : (s.untellOne subj c).bmu = s.bmu := rfl
@[simp] theorem State.untellOne_ifu (s : State) (subj : Subject) (c : Cond) : (s.untellOne subj c).ifu = s.ifu := rfl
@[simp] theorem State.untellOne_isi (s : State) (subj : Subject) (c : Cond) : (s.untellOne subj c).isi = s.isi := rfl
@[simp] theorem State.untellOne_sys (s : State) (subj : Subject) (c : Cond) : (s.untellOne subj c).sys = s.sys := rfl
@[simp] theorem State.untellOne_freeNext (s : State) (subj : Subject) (c : Cond) : (s.untellOne subj c).freeNext = s.freeNext := rfl
@[simp] theorem State.untellOne_pending (s : State) (subj : Subject) (c : Cond) : (s.untellOne subj c).pending = s.pending := rfl

@[simp] theorem State.eachCtx_tbc (s : State) (f : Context → Context) : (s.eachCtx f).tbc = s.tbc := rfl
@[simp] theorem State.eachCtx_cals (s : State) (f : Context → Context) : (s.eachCtx f).cals = s.cals := rfl
@[simp] theorem State.eachCtx_channels (s : State) (f : Context → Context) : (s.eachCtx f).channels = s.channels := rfl
@[simp] theorem State.eachCtx_atu (s : State) (f : Context → Context) : (s.eachCtx f).atu = s.atu := rfl
@[simp] theorem State.eachCtx_wck (s : State) (f : Context → Context) : (s.eachCtx f).wck = s.wck := rfl
@[simp] theorem State.eachCtx_bmu (s : State) (f : Context → Context) : (s.eachCtx f).bmu = s.bmu := rfl
@[simp] theorem State.eachCtx_ifu (s : State) (f : Context → Context) : (s.eachCtx f).ifu = s.ifu := rfl
@[simp] theorem State.eachCtx_isi (s : State) (f : Context → Context) : (s.eachCtx f).isi = s.isi := rfl
@[simp] theorem State.eachCtx_sys (s : State) (f : Context → Context) : (s.eachCtx f).sys = s.sys := rfl
@[simp] theorem State.eachCtx_freeNext (s : State) (f : Context → Context) : (s.eachCtx f).freeNext = s.freeNext := rfl
@[simp] theorem State.eachCtx_pending (s : State) (f : Context → Context) : (s.eachCtx f).pending = s.pending := rfl

@[simp] theorem State.eachLine_tbc (s : State) (f : Line → Line) : (s.eachLine f).tbc = s.tbc := rfl
@[simp] theorem State.eachLine_cxp (s : State) (f : Line → Line) : (s.eachLine f).cxp = s.cxp := rfl
@[simp] theorem State.eachLine_cals (s : State) (f : Line → Line) : (s.eachLine f).cals = s.cals := rfl
@[simp] theorem State.eachLine_channels (s : State) (f : Line → Line) : (s.eachLine f).channels = s.channels := rfl
@[simp] theorem State.eachLine_atu (s : State) (f : Line → Line) : (s.eachLine f).atu = s.atu := rfl
@[simp] theorem State.eachLine_wck (s : State) (f : Line → Line) : (s.eachLine f).wck = s.wck := rfl
@[simp] theorem State.eachLine_ifu (s : State) (f : Line → Line) : (s.eachLine f).ifu = s.ifu := rfl
@[simp] theorem State.eachLine_isi (s : State) (f : Line → Line) : (s.eachLine f).isi = s.isi := rfl
@[simp] theorem State.eachLine_sys (s : State) (f : Line → Line) : (s.eachLine f).sys = s.sys := rfl
@[simp] theorem State.eachLine_freeNext (s : State) (f : Line → Line) : (s.eachLine f).freeNext = s.freeNext := rfl
@[simp] theorem State.eachLine_pending (s : State) (f : Line → Line) : (s.eachLine f).pending = s.pending := rfl

@[simp] theorem State.setKey_tbc (s : State) (k : KeyState) : (s.setKey k).tbc = s.tbc := rfl
@[simp] theorem State.setKey_cxp (s : State) (k : KeyState) : (s.setKey k).cxp = s.cxp := rfl
@[simp] theorem State.setKey_cals (s : State) (k : KeyState) : (s.setKey k).cals = s.cals := rfl
@[simp] theorem State.setKey_channels (s : State) (k : KeyState) : (s.setKey k).channels = s.channels := rfl
@[simp] theorem State.setKey_atu (s : State) (k : KeyState) : (s.setKey k).atu = s.atu := rfl
@[simp] theorem State.setKey_wck (s : State) (k : KeyState) : (s.setKey k).wck = s.wck := rfl
@[simp] theorem State.setKey_bmu (s : State) (k : KeyState) : (s.setKey k).bmu = s.bmu := rfl
@[simp] theorem State.setKey_isi (s : State) (k : KeyState) : (s.setKey k).isi = s.isi := rfl
@[simp] theorem State.setKey_sys (s : State) (k : KeyState) : (s.setKey k).sys = s.sys := rfl
@[simp] theorem State.setKey_freeNext (s : State) (k : KeyState) : (s.setKey k).freeNext = s.freeNext := rfl
@[simp] theorem State.setKey_pending (s : State) (k : KeyState) : (s.setKey k).pending = s.pending := rfl

@[simp] theorem State.followKey_tbc (s : State) : (s.followKey).tbc = s.tbc := rfl
@[simp] theorem State.followKey_cxp (s : State) : (s.followKey).cxp = s.cxp := rfl
@[simp] theorem State.followKey_cals (s : State) : (s.followKey).cals = s.cals := rfl
@[simp] theorem State.followKey_channels (s : State) : (s.followKey).channels = s.channels := rfl
@[simp] theorem State.followKey_atu (s : State) : (s.followKey).atu = s.atu := rfl
@[simp] theorem State.followKey_wck (s : State) : (s.followKey).wck = s.wck := rfl
@[simp] theorem State.followKey_bmu (s : State) : (s.followKey).bmu = s.bmu := rfl
@[simp] theorem State.followKey_isi (s : State) : (s.followKey).isi = s.isi := rfl
@[simp] theorem State.followKey_sys (s : State) : (s.followKey).sys = s.sys := rfl
@[simp] theorem State.followKey_freeNext (s : State) : (s.followKey).freeNext = s.freeNext := rfl
@[simp] theorem State.followKey_pending (s : State) : (s.followKey).pending = s.pending := rfl

@[simp] theorem State.settleKey_tbc (s : State) : (s.settleKey).tbc = s.tbc := rfl
@[simp] theorem State.settleKey_cxp (s : State) : (s.settleKey).cxp = s.cxp := rfl
@[simp] theorem State.settleKey_cals (s : State) : (s.settleKey).cals = s.cals := rfl
@[simp] theorem State.settleKey_channels (s : State) : (s.settleKey).channels = s.channels := rfl
@[simp] theorem State.settleKey_atu (s : State) : (s.settleKey).atu = s.atu := rfl
@[simp] theorem State.settleKey_wck (s : State) : (s.settleKey).wck = s.wck := rfl
@[simp] theorem State.settleKey_bmu (s : State) : (s.settleKey).bmu = s.bmu := rfl
@[simp] theorem State.settleKey_isi (s : State) : (s.settleKey).isi = s.isi := rfl
@[simp] theorem State.settleKey_sys (s : State) : (s.settleKey).sys = s.sys := rfl
@[simp] theorem State.settleKey_freeNext (s : State) : (s.settleKey).freeNext = s.freeNext := rfl
@[simp] theorem State.settleKey_pending (s : State) : (s.settleKey).pending = s.pending := rfl

@[simp] theorem State.setRst_tbc (s : State) (on : Bool) : (s.setRst on).tbc = s.tbc := rfl
@[simp] theorem State.setRst_cxp (s : State) (on : Bool) : (s.setRst on).cxp = s.cxp := rfl
@[simp] theorem State.setRst_cals (s : State) (on : Bool) : (s.setRst on).cals = s.cals := rfl
@[simp] theorem State.setRst_channels (s : State) (on : Bool) : (s.setRst on).channels = s.channels := rfl
@[simp] theorem State.setRst_atu (s : State) (on : Bool) : (s.setRst on).atu = s.atu := rfl
@[simp] theorem State.setRst_wck (s : State) (on : Bool) : (s.setRst on).wck = s.wck := rfl
@[simp] theorem State.setRst_bmu (s : State) (on : Bool) : (s.setRst on).bmu = s.bmu := rfl
@[simp] theorem State.setRst_ifu (s : State) (on : Bool) : (s.setRst on).ifu = s.ifu := rfl
@[simp] theorem State.setRst_isi (s : State) (on : Bool) : (s.setRst on).isi = s.isi := rfl
@[simp] theorem State.setRst_freeNext (s : State) (on : Bool) : (s.setRst on).freeNext = s.freeNext := rfl
@[simp] theorem State.setRst_pending (s : State) (on : Bool) : (s.setRst on).pending = s.pending := rfl

@[simp] theorem State.stage_cxp (s : State) (p : Option (Nat × ClassPart1)) : (s.stage p).cxp = s.cxp := rfl
@[simp] theorem State.stage_cals (s : State) (p : Option (Nat × ClassPart1)) : (s.stage p).cals = s.cals := rfl
@[simp] theorem State.stage_channels (s : State) (p : Option (Nat × ClassPart1)) : (s.stage p).channels = s.channels := rfl
@[simp] theorem State.stage_atu (s : State) (p : Option (Nat × ClassPart1)) : (s.stage p).atu = s.atu := rfl
@[simp] theorem State.stage_wck (s : State) (p : Option (Nat × ClassPart1)) : (s.stage p).wck = s.wck := rfl
@[simp] theorem State.stage_bmu (s : State) (p : Option (Nat × ClassPart1)) : (s.stage p).bmu = s.bmu := rfl
@[simp] theorem State.stage_ifu (s : State) (p : Option (Nat × ClassPart1)) : (s.stage p).ifu = s.ifu := rfl
@[simp] theorem State.stage_isi (s : State) (p : Option (Nat × ClassPart1)) : (s.stage p).isi = s.isi := rfl
@[simp] theorem State.stage_sys (s : State) (p : Option (Nat × ClassPart1)) : (s.stage p).sys = s.sys := rfl
@[simp] theorem State.stage_freeNext (s : State) (p : Option (Nat × ClassPart1)) : (s.stage p).freeNext = s.freeNext := rfl
@[simp] theorem State.stage_pending (s : State) (p : Option (Nat × ClassPart1)) : (s.stage p).pending = s.pending := rfl

@[simp] theorem State.spreadStop_tbc (s : State) : (s.spreadStop).tbc = s.tbc := rfl
@[simp] theorem State.spreadStop_cals (s : State) : (s.spreadStop).cals = s.cals := rfl
@[simp] theorem State.spreadStop_channels (s : State) : (s.spreadStop).channels = s.channels := rfl
@[simp] theorem State.spreadStop_atu (s : State) : (s.spreadStop).atu = s.atu := rfl
@[simp] theorem State.spreadStop_wck (s : State) : (s.spreadStop).wck = s.wck := rfl
@[simp] theorem State.spreadStop_ifu (s : State) : (s.spreadStop).ifu = s.ifu := rfl
@[simp] theorem State.spreadStop_isi (s : State) : (s.spreadStop).isi = s.isi := rfl
@[simp] theorem State.spreadStop_sys (s : State) : (s.spreadStop).sys = s.sys := rfl
@[simp] theorem State.spreadStop_freeNext (s : State) : (s.spreadStop).freeNext = s.freeNext := rfl
@[simp] theorem State.spreadStop_pending (s : State) : (s.spreadStop).pending = s.pending := rfl

@[simp] theorem State.endStop_tbc (s : State) : (s.endStop).tbc = s.tbc := rfl
@[simp] theorem State.endStop_cals (s : State) : (s.endStop).cals = s.cals := rfl
@[simp] theorem State.endStop_channels (s : State) : (s.endStop).channels = s.channels := rfl
@[simp] theorem State.endStop_wck (s : State) : (s.endStop).wck = s.wck := rfl
@[simp] theorem State.endStop_isi (s : State) : (s.endStop).isi = s.isi := rfl
@[simp] theorem State.endStop_sys (s : State) : (s.endStop).sys = s.sys := rfl
@[simp] theorem State.endStop_freeNext (s : State) : (s.endStop).freeNext = s.freeNext := rfl
@[simp] theorem State.endStop_pending (s : State) : (s.endStop).pending = s.pending := rfl

@[simp] theorem State.tick_tbc (s : State) : (s.tick).tbc = s.tbc := rfl
@[simp] theorem State.tick_cxp (s : State) : (s.tick).cxp = s.cxp := rfl
@[simp] theorem State.tick_cals (s : State) : (s.tick).cals = s.cals := rfl
@[simp] theorem State.tick_channels (s : State) : (s.tick).channels = s.channels := rfl
@[simp] theorem State.tick_atu (s : State) : (s.tick).atu = s.atu := rfl
@[simp] theorem State.tick_wck (s : State) : (s.tick).wck = s.wck := rfl
@[simp] theorem State.tick_bmu (s : State) : (s.tick).bmu = s.bmu := rfl
@[simp] theorem State.tick_isi (s : State) : (s.tick).isi = s.isi := rfl
@[simp] theorem State.tick_sys (s : State) : (s.tick).sys = s.sys := rfl
@[simp] theorem State.tick_freeNext (s : State) : (s.tick).freeNext = s.freeNext := rfl
@[simp] theorem State.tick_pending (s : State) : (s.tick).pending = s.pending := rfl
/-! ## What is set -/

@[simp] theorem State.putCtx_contexts (s : State) (c : Nat) (x : Context) :
    (s.putCtx c x).cxp.contexts = s.cxp.contexts.put c x := rfl
@[simp] theorem State.putCtx_parting (s : State) (c : Nat) (x : Context) :
    (s.putCtx c x).cxp.parting = s.cxp.parting := rfl
@[simp] theorem State.putSlot_map (s : State) (n : Nat) (x : Slot) : (s.putSlot n x).tbc.map = s.tbc.map := rfl
@[simp] theorem State.putSlot_classes (s : State) (n : Nat) (x : Slot) :
    (s.putSlot n x).tbc.classes = s.tbc.classes := rfl
@[simp] theorem State.putSlot_site (s : State) (n : Nat) (x : Slot) : (s.putSlot n x).tbc.site = s.tbc.site := rfl
@[simp] theorem State.putSlot_staged (s : State) (n : Nat) (x : Slot) : (s.putSlot n x).tbc.staged = s.tbc.staged := rfl
@[simp] theorem State.setExchange_exchange (s : State) (x : Exchange) : (s.setExchange x).bmu.exchange = x := rfl
@[simp] theorem State.setTurn_turn (s : State) (t : Turn) : (s.setTurn t).bmu.turn = some t := rfl
@[simp] theorem State.transmit_tx (s : State) (l : List Sent) : (s.transmit l).bmu.tx = l := rfl
@[simp] theorem State.transmit_exchange (s : State) (l : List Sent) : (s.transmit l).bmu.exchange = s.bmu.exchange := rfl
@[simp] theorem State.answer_exchange (s : State) (h : Ask) (a : Answer) (w : AfterAnswer) :
    (s.answer h a w).bmu.exchange = .answer h a w := rfl
@[simp] theorem State.answer_stations (s : State) (h : Ask) (a : Answer) (w : AfterAnswer) :
    (s.answer h a w).bmu.stations = s.bmu.stations := rfl
@[simp] theorem State.answer_turn (s : State) (h : Ask) (a : Answer) (w : AfterAnswer) :
    (s.answer h a w).bmu.turn = s.bmu.turn := rfl
@[simp] theorem State.setKey_key (s : State) (k : KeyState) : (s.setKey k).ifu.key = k := rfl
@[simp] theorem State.setKey_stop (s : State) (k : KeyState) : (s.setKey k).ifu.stop = s.ifu.stop := rfl
@[simp] theorem State.stage_staged (s : State) (p : Option (Nat × ClassPart1)) : (s.stage p).tbc.staged = p := rfl
@[simp] theorem State.stage_slots (s : State) (p : Option (Nat × ClassPart1)) :
    (s.stage p).tbc.slots = s.tbc.slots := rfl
@[simp] theorem State.endStop_stop (s : State) : s.endStop.ifu.stop = none := rfl

end Sys2Proof.Machine
end

