-- ==== Sys2Proof/Laws/Table.lean ====
section
/-! SUPPORT. Sparse tables and the image memory: a read after a write, every other place alone, and the canonical form
kept by every operation. -/

namespace Sys2Proof.Machine

variable {α : Type}

/-! ## Reading after writing -/

@[simp] theorem Table.get?_put_same (t : Table α) (n : Nat) (v : α) : (Table.put t n v).get? n = some v := by
  induction t with
  | nil => simp [Table.put, Table.get?]
  | cons p t ih =>
    obtain ⟨k, w⟩ := p
    by_cases h1 : n < k
    · simp [Table.put, Table.get?, h1]
    · by_cases h2 : n = k
      · simp [Table.put, Table.get?, h2]
      · have h3 : ¬ k = n := fun h => h2 h.symm
        simp [Table.put, Table.get?, h1, h2, h3, ih]

theorem Table.get?_put_ne (t : Table α) (n m : Nat) (v : α) (h : m ≠ n) : (Table.put t n v).get? m = t.get? m := by
  have h' : ¬ n = m := fun e => h e.symm
  induction t with
  | nil => simp [Table.put, Table.get?, h']
  | cons p t ih =>
    obtain ⟨k, w⟩ := p
    by_cases h1 : n < k
    · simp [Table.put, Table.get?, h1, h']
    · by_cases h2 : n = k
      · subst h2
        simp [Table.put, Table.get?, h']
      · simp only [Table.put, h1, h2, if_false, Table.get?, ih]

@[simp] theorem Table.get?_erase_same (t : Table α) (n : Nat) : (Table.erase t n).get? n = none := by
  induction t with
  | nil => simp [Table.erase, Table.get?]
  | cons p t ih =>
    obtain ⟨k, w⟩ := p
    by_cases h : k = n
    · simpa [Table.erase, h] using ih
    · simpa [Table.erase, Table.get?, h] using ih

theorem Table.get?_erase_ne (t : Table α) (n m : Nat) (h : m ≠ n) : (Table.erase t n).get? m = t.get? m := by
  induction t with
  | nil => simp [Table.erase, Table.get?]
  | cons p t ih =>
    obtain ⟨k, w⟩ := p
    by_cases h1 : k = n
    · have h2 : ¬ k = m := fun e => h (e ▸ h1)
      have h3 : ¬ n = m := fun e => h e.symm
      simpa [Table.erase, Table.get?, h1, h2, h3] using ih
    · by_cases h2 : k = m
      · simp [Table.erase, Table.get?, h2, h]
      · simpa [Table.erase, Table.get?, h1, h2] using ih

@[simp] theorem Table.get?_set_same (t : Table α) (n : Nat) (v : Option α) : (Table.set t n v).get? n = v := by
  cases v <;> simp [Table.set]

theorem Table.get?_set_ne (t : Table α) (n m : Nat) (v : Option α) (h : m ≠ n) :
    (Table.set t n v).get? m = t.get? m := by
  cases v
  · exact Table.get?_erase_ne t n m h
  · exact Table.get?_put_ne t n m _ h

theorem Table.get?_mapValues (t : Table α) (f : α → α) (n : Nat) :
    (Table.mapValues t f).get? n = (t.get? n).map f := by
  induction t with
  | nil => rfl
  | cons p t ih =>
    obtain ⟨k, w⟩ := p
    by_cases h : k = n
    · simp [Table.mapValues, Table.get?, h]
    · simpa [Table.mapValues, Table.get?, h] using ih

/-! ## The canonical form -/

theorem Table.mem_put {t : Table α} {n : Nat} {v : α} {p : Nat × α} (h : p ∈ Table.put t n v) :
    p = (n, v) ∨ p ∈ t := by
  induction t with
  | nil => simpa [Table.put] using h
  | cons q t ih =>
    obtain ⟨k, w⟩ := q
    simp only [Table.put] at h
    split at h
    · rcases List.mem_cons.1 h with h | h
      · exact .inl h
      · exact .inr h
    · split at h
      · rcases List.mem_cons.1 h with h | h
        · exact .inl h
        · exact .inr (List.mem_cons_of_mem _ h)
      · rcases List.mem_cons.1 h with h | h
        · exact .inr (h ▸ List.mem_cons_self)
        · rcases ih h with h | h
          · exact .inl h
          · exact .inr (List.mem_cons_of_mem _ h)

theorem Table.wf_put {t : Table α} (h : t.wf) (n : Nat) (v : α) : (Table.put t n v).wf := by
  induction t with
  | nil => simp [Table.put, Table.wf]
  | cons q t ih =>
    obtain ⟨k, w⟩ := q
    obtain ⟨hk, ht⟩ := List.pairwise_cons.1 h
    simp only [Table.put]
    split
    · rename_i h1
      refine List.pairwise_cons.2 ⟨?_, h⟩
      intro p hp
      rcases List.mem_cons.1 hp with rfl | hp
      · exact h1
      · exact lt_trans h1 (hk p hp)
    · split
      · rename_i h2
        subst h2
        exact List.pairwise_cons.2 ⟨hk, ht⟩
      · rename_i h1 h2
        refine List.pairwise_cons.2 ⟨?_, ih ht⟩
        intro p hp
        rcases Table.mem_put hp with rfl | hp
        · exact lt_of_le_of_ne (Nat.le_of_not_lt h1) (fun e => h2 e.symm)
        · exact hk p hp

theorem Table.wf_erase {t : Table α} (h : t.wf) (n : Nat) : (Table.erase t n).wf := List.Pairwise.filter _ h

theorem Table.wf_set {t : Table α} (h : t.wf) (n : Nat) (v : Option α) : (Table.set t n v).wf := by
  cases v
  · exact Table.wf_erase h n
  · exact Table.wf_put h n _

theorem Table.wf_mapValues {t : Table α} (h : t.wf) (f : α → α) : (Table.mapValues t f).wf :=
  List.pairwise_map.2 h

/-! ## The image memory -/

@[simp] theorem Memory.read_write_same (m : Memory) (a : Nat) (b : Byte) : (m.write a b).read a = b := by
  by_cases h : b = Memory.unlisted <;> simp [Memory.read, Memory.write, h]

theorem Memory.read_write_ne (m : Memory) (a c : Nat) (b : Byte) (h : c ≠ a) : (m.write a b).read c = m.read c := by
  simp [Memory.read, Memory.write, Table.get?_set_ne _ _ _ _ h]

theorem Memory.wf_write {m : Memory} (h : m.wf) (a : Nat) (b : Byte) : (m.write a b).wf := by
  refine ⟨Table.wf_set h.1 a _, ?_⟩
  intro c hc
  by_cases hb : b = Memory.unlisted
  · simp only [Memory.write, hb, if_true, Table.set, Table.erase, List.mem_filter] at hc
    exact h.2 c hc.1
  · simp only [Memory.write, hb, if_false, Table.set] at hc
    rcases Table.mem_put hc with rfl | hc
    · exact hb
    · exact h.2 c hc

theorem Memory.wf_writeBytes {m : Memory} (h : m.wf) (a : Nat) (bs : List Byte) : (m.writeBytes a bs).wf := by
  induction bs generalizing m a with
  | nil => exact h
  | cons b bs ih => exact ih (Memory.wf_write h a b) (a + 1)

/-- Bytes outside the ones written read as before. -/
theorem Memory.read_writeBytes_outside (m : Memory) (a c : Nat) (bs : List Byte) (h : c < a ∨ a + bs.length ≤ c) :
    (m.writeBytes a bs).read c = m.read c := by
  induction bs generalizing m a with
  | nil => rfl
  | cons b bs ih =>
    simp only [List.length_cons] at h
    rw [Memory.writeBytes, ih (m.write a b) (a + 1) (by omega), Memory.read_write_ne _ _ _ _ (by omega)]

/-- A byte written reads back. -/
theorem Memory.read_writeBytes_inside (m : Memory) (a i : Nat) (bs : List Byte) (h : i < bs.length) :
    (m.writeBytes a bs).read (a + i) = bs[i] := by
  induction bs generalizing m a i with
  | nil => simp at h
  | cons b bs ih =>
    cases i with
    | zero =>
      rw [Memory.writeBytes, Memory.read_writeBytes_outside _ _ _ _ (by omega)]
      simp
    | succ i =>
      have := ih (m.write a b) (a + 1) i (by simpa using h)
      rw [Memory.writeBytes, show a + (i + 1) = a + 1 + i by omega, this]
      simp

/-- The image memory at reset has the canonical form. -/
theorem reset_image_wf : State.reset.isi.image.wf := by
  refine ⟨List.Pairwise.nil, ?_⟩
  intro c hc
  exact absurd hc (List.not_mem_nil)

/-- Every operation of the writer on the image memory keeps its canonical form. -/
theorem Isi.wf_store {i : Isi} (h : i.image.wf) (b : Nat) (bytes : List Byte) : (i.store b bytes).image.wf :=
  Memory.wf_writeBytes h _ _

theorem Isi.wf_leave {i : Isi} (h : i.image.wf) (b : Nat) (bytes : List Byte) (left : Remnant) :
    (i.leave b bytes left).image.wf := by
  cases left with
  | unchanged => exact h
  | whole => exact Isi.wf_store h b bytes
  | mixed mix => exact Isi.wf_store h b mix

end Sys2Proof.Machine
end

