-- ==== Sys2Proof/Laws/Ops.lean ====
section
/-! SUPPORT. The shared operations, once each: which blocks of the state an operation leaves alone, and what it does to the
block it acts on. Proofs about a meaning cite these and do not unfold the operation. -/

namespace Sys2Proof.Machine

/-- A fold of steps that each leave a view of the state alone leaves it alone. -/
theorem foldl_same {σ β γ : Type} (g : σ → γ) (f : σ → β → σ) (h : ∀ t x, g (f t x) = g t) (l : List β) (s : σ) :
    g (l.foldl f s) = g s := by
  induction l generalizing s with
  | nil => rfl
  | cons x l ih => exact (ih (f s x)).trans (h s x)

/-! ## Blocks left alone -/

@[simp] theorem State.hand_tbc (s : State) (i : Item) :
    (s.hand i).tbc = s.tbc := by unfold State.hand; split <;> rfl
@[simp] theorem State.hand_cxp (s : State) (i : Item) :
    (s.hand i).cxp = s.cxp := by unfold State.hand; split <;> rfl
@[simp] theorem State.hand_cals (s : State) (i : Item) :
    (s.hand i).cals = s.cals := by unfold State.hand; split <;> rfl
@[simp] theorem State.hand_channels (s : State) (i : Item) :
    (s.hand i).channels = s.channels := by unfold State.hand; split <;> rfl
@[simp] theorem State.hand_atu (s : State) (i : Item) :
    (s.hand i).atu = s.atu := by unfold State.hand; split <;> rfl
@[simp] theorem State.hand_wck (s : State) (i : Item) :
    (s.hand i).wck = s.wck := by unfold State.hand; split <;> rfl
@[simp] theorem State.hand_bmu (s : State) (i : Item) :
    (s.hand i).bmu = s.bmu := by unfold State.hand; split <;> rfl
@[simp] theorem State.hand_ifu (s : State) (i : Item) :
    (s.hand i).ifu = s.ifu := by unfold State.hand; split <;> rfl
@[simp] theorem State.hand_sys (s : State) (i : Item) :
    (s.hand i).sys = s.sys := by unfold State.hand; split <;> rfl
@[simp] theorem State.hand_freeNext (s : State) (i : Item) :
    (s.hand i).freeNext = s.freeNext := by unfold State.hand; split <;> rfl
@[simp] theorem State.hand_pending (s : State) (i : Item) :
    (s.hand i).pending = s.pending := by unfold State.hand; split <;> rfl

@[simp] theorem State.tellAt_tbc (s : State) (subj : Subject) (c : Cond) (t : Nat) :
    (s.tellAt subj c t).tbc = s.tbc := by unfold State.tellAt; split <;> rfl
@[simp] theorem State.tellAt_cxp (s : State) (subj : Subject) (c : Cond) (t : Nat) :
    (s.tellAt subj c t).cxp = s.cxp := by unfold State.tellAt; split <;> rfl
@[simp] theorem State.tellAt_cals (s : State) (subj : Subject) (c : Cond) (t : Nat) :
    (s.tellAt subj c t).cals = s.cals := by unfold State.tellAt; split <;> rfl
@[simp] theorem State.tellAt_channels (s : State) (subj : Subject) (c : Cond) (t : Nat) :
    (s.tellAt subj c t).channels = s.channels := by unfold State.tellAt; split <;> rfl
@[simp] theorem State.tellAt_wck (s : State) (subj : Subject) (c : Cond) (t : Nat) :
    (s.tellAt subj c t).wck = s.wck := by unfold State.tellAt; split <;> rfl
@[simp] theorem State.tellAt_bmu (s : State) (subj : Subject) (c : Cond) (t : Nat) :
    (s.tellAt subj c t).bmu = s.bmu := by unfold State.tellAt; split <;> rfl
@[simp] theorem State.tellAt_ifu (s : State) (subj : Subject) (c : Cond) (t : Nat) :
    (s.tellAt subj c t).ifu = s.ifu := by unfold State.tellAt; split <;> rfl
@[simp] theorem State.tellAt_isi (s : State) (subj : Subject) (c : Cond) (t : Nat) :
    (s.tellAt subj c t).isi = s.isi := by unfold State.tellAt; split <;> rfl
@[simp] theorem State.tellAt_sys (s : State) (subj : Subject) (c : Cond) (t : Nat) :
    (s.tellAt subj c t).sys = s.sys := by unfold State.tellAt; split <;> rfl
@[simp] theorem State.tellAt_freeNext (s : State) (subj : Subject) (c : Cond) (t : Nat) :
    (s.tellAt subj c t).freeNext = s.freeNext := by unfold State.tellAt; split <;> rfl
@[simp] theorem State.tellAt_pending (s : State) (subj : Subject) (c : Cond) (t : Nat) :
    (s.tellAt subj c t).pending = s.pending := by unfold State.tellAt; split <;> rfl

@[simp] theorem State.tell_tbc (s : State) (subj : Subject) (c : Cond) :
    (s.tell subj c).tbc = s.tbc := by simp [State.tell]
@[simp] theorem State.tell_cxp (s : State) (subj : Subject) (c : Cond) :
    (s.tell subj c).cxp = s.cxp := by simp [State.tell]
@[simp] theorem State.tell_cals (s : State) (subj : Subject) (c : Cond) :
    (s.tell subj c).cals = s.cals := by simp [State.tell]
@[simp] theorem State.tell_channels (s : State) (subj : Subject) (c : Cond) :
    (s.tell subj c).channels = s.channels := by simp [State.tell]
@[simp] theorem State.tell_wck (s : State) (subj : Subject) (c : Cond) :
    (s.tell subj c).wck = s.wck := by simp [State.tell]
@[simp] theorem State.tell_bmu (s : State) (subj : Subject) (c : Cond) :
    (s.tell subj c).bmu = s.bmu := by simp [State.tell]
@[simp] theorem State.tell_ifu (s : State) (subj : Subject) (c : Cond) :
    (s.tell subj c).ifu = s.ifu := by simp [State.tell]
@[simp] theorem State.tell_isi (s : State) (subj : Subject) (c : Cond) :
    (s.tell subj c).isi = s.isi := by simp [State.tell]
@[simp] theorem State.tell_sys (s : State) (subj : Subject) (c : Cond) :
    (s.tell subj c).sys = s.sys := by simp [State.tell]
@[simp] theorem State.tell_freeNext (s : State) (subj : Subject) (c : Cond) :
    (s.tell subj c).freeNext = s.freeNext := by simp [State.tell]
@[simp] theorem State.tell_pending (s : State) (subj : Subject) (c : Cond) :
    (s.tell subj c).pending = s.pending := by simp [State.tell]

@[simp] theorem State.update_cxp (s : State) (n st : Nat) (f : Record → Record) :
    (s.update n st f).cxp = s.cxp := by unfold State.update; split <;> [rfl; (split <;> simp)]
@[simp] theorem State.update_cals (s : State) (n st : Nat) (f : Record → Record) :
    (s.update n st f).cals = s.cals := by unfold State.update; split <;> [rfl; (split <;> simp)]
@[simp] theorem State.update_channels (s : State) (n st : Nat) (f : Record → Record) :
    (s.update n st f).channels = s.channels := by unfold State.update; split <;> [rfl; (split <;> simp)]
@[simp] theorem State.update_atu (s : State) (n st : Nat) (f : Record → Record) :
    (s.update n st f).atu = s.atu := by unfold State.update; split <;> [rfl; (split <;> simp)]
@[simp] theorem State.update_wck (s : State) (n st : Nat) (f : Record → Record) :
    (s.update n st f).wck = s.wck := by unfold State.update; split <;> [rfl; (split <;> simp)]
@[simp] theorem State.update_bmu (s : State) (n st : Nat) (f : Record → Record) :
    (s.update n st f).bmu = s.bmu := by unfold State.update; split <;> [rfl; (split <;> simp)]
@[simp] theorem State.update_ifu (s : State) (n st : Nat) (f : Record → Record) :
    (s.update n st f).ifu = s.ifu := by unfold State.update; split <;> [rfl; (split <;> simp)]
@[simp] theorem State.update_sys (s : State) (n st : Nat) (f : Record → Record) :
    (s.update n st f).sys = s.sys := by unfold State.update; split <;> [rfl; (split <;> simp)]
@[simp] theorem State.update_freeNext (s : State) (n st : Nat) (f : Record → Record) :
    (s.update n st f).freeNext = s.freeNext := by unfold State.update; split <;> [rfl; (split <;> simp)]
@[simp] theorem State.update_pending (s : State) (n st : Nat) (f : Record → Record) :
    (s.update n st f).pending = s.pending := by unfold State.update; split <;> [rfl; (split <;> simp)]

@[simp] theorem State.updateRaising_cxp (s : State) (n st : Nat) (cs : List Cond) (f : Record → Record) :
    (s.updateRaising n st cs f).cxp = s.cxp := by unfold State.updateRaising; rw [foldl_same State.cxp _ (fun t x => by simp)]; simp
@[simp] theorem State.updateRaising_cals (s : State) (n st : Nat) (cs : List Cond) (f : Record → Record) :
    (s.updateRaising n st cs f).cals = s.cals := by unfold State.updateRaising; rw [foldl_same State.cals _ (fun t x => by simp)]; simp
@[simp] theorem State.updateRaising_channels (s : State) (n st : Nat) (cs : List Cond) (f : Record → Record) :
    (s.updateRaising n st cs f).channels = s.channels := by unfold State.updateRaising; rw [foldl_same State.channels _ (fun t x => by simp)]; simp
@[simp] theorem State.updateRaising_wck (s : State) (n st : Nat) (cs : List Cond) (f : Record → Record) :
    (s.updateRaising n st cs f).wck = s.wck := by unfold State.updateRaising; rw [foldl_same State.wck _ (fun t x => by simp)]; simp
@[simp] theorem State.updateRaising_bmu (s : State) (n st : Nat) (cs : List Cond) (f : Record → Record) :
    (s.updateRaising n st cs f).bmu = s.bmu := by unfold State.updateRaising; rw [foldl_same State.bmu _ (fun t x => by simp)]; simp
@[simp] theorem State.updateRaising_ifu (s : State) (n st : Nat) (cs : List Cond) (f : Record → Record) :
    (s.updateRaising n st cs f).ifu = s.ifu := by unfold State.updateRaising; rw [foldl_same State.ifu _ (fun t x => by simp)]; simp
@[simp] theorem State.updateRaising_sys (s : State) (n st : Nat) (cs : List Cond) (f : Record → Record) :
    (s.updateRaising n st cs f).sys = s.sys := by unfold State.updateRaising; rw [foldl_same State.sys _ (fun t x => by simp)]; simp
@[simp] theorem State.updateRaising_freeNext (s : State) (n st : Nat) (cs : List Cond) (f : Record → Record) :
    (s.updateRaising n st cs f).freeNext = s.freeNext := by unfold State.updateRaising; rw [foldl_same State.freeNext _ (fun t x => by simp)]; simp
@[simp] theorem State.updateRaising_pending (s : State) (n st : Nat) (cs : List Cond) (f : Record → Record) :
    (s.updateRaising n st cs f).pending = s.pending := by unfold State.updateRaising; rw [foldl_same State.pending _ (fun t x => by simp)]; simp

@[simp] theorem State.raise_cxp (s : State) (n st : Nat) (c : Cond) :
    (s.raise n st c).cxp = s.cxp := by simp [State.raise]
@[simp] theorem State.raise_cals (s : State) (n st : Nat) (c : Cond) :
    (s.raise n st c).cals = s.cals := by simp [State.raise]
@[simp] theorem State.raise_channels (s : State) (n st : Nat) (c : Cond) :
    (s.raise n st c).channels = s.channels := by simp [State.raise]
@[simp] theorem State.raise_wck (s : State) (n st : Nat) (c : Cond) :
    (s.raise n st c).wck = s.wck := by simp [State.raise]
@[simp] theorem State.raise_bmu (s : State) (n st : Nat) (c : Cond) :
    (s.raise n st c).bmu = s.bmu := by simp [State.raise]
@[simp] theorem State.raise_ifu (s : State) (n st : Nat) (c : Cond) :
    (s.raise n st c).ifu = s.ifu := by simp [State.raise]
@[simp] theorem State.raise_sys (s : State) (n st : Nat) (c : Cond) :
    (s.raise n st c).sys = s.sys := by simp [State.raise]
@[simp] theorem State.raise_freeNext (s : State) (n st : Nat) (c : Cond) :
    (s.raise n st c).freeNext = s.freeNext := by simp [State.raise]
@[simp] theorem State.raise_pending (s : State) (n st : Nat) (c : Cond) :
    (s.raise n st c).pending = s.pending := by simp [State.raise]

@[simp] theorem State.unraise_cxp (s : State) (n st : Nat) (c : Cond) :
    (s.unraise n st c).cxp = s.cxp := by unfold State.unraise; split <;> [rfl; (split <;> simp)]
@[simp] theorem State.unraise_cals (s : State) (n st : Nat) (c : Cond) :
    (s.unraise n st c).cals = s.cals := by unfold State.unraise; split <;> [rfl; (split <;> simp)]
@[simp] theorem State.unraise_channels (s : State) (n st : Nat) (c : Cond) :
    (s.unraise n st c).channels = s.channels := by unfold State.unraise; split <;> [rfl; (split <;> simp)]
@[simp] theorem State.unraise_wck (s : State) (n st : Nat) (c : Cond) :
    (s.unraise n st c).wck = s.wck := by unfold State.unraise; split <;> [rfl; (split <;> simp)]
@[simp] theorem State.unraise_bmu (s : State) (n st : Nat) (c : Cond) :
    (s.unraise n st c).bmu = s.bmu := by unfold State.unraise; split <;> [rfl; (split <;> simp)]
@[simp] theorem State.unraise_ifu (s : State) (n st : Nat) (c : Cond) :
    (s.unraise n st c).ifu = s.ifu := by unfold State.unraise; split <;> [rfl; (split <;> simp)]
@[simp] theorem State.unraise_sys (s : State) (n st : Nat) (c : Cond) :
    (s.unraise n st c).sys = s.sys := by unfold State.unraise; split <;> [rfl; (split <;> simp)]
@[simp] theorem State.unraise_freeNext (s : State) (n st : Nat) (c : Cond) :
    (s.unraise n st c).freeNext = s.freeNext := by unfold State.unraise; split <;> [rfl; (split <;> simp)]
@[simp] theorem State.unraise_pending (s : State) (n st : Nat) (c : Cond) :
    (s.unraise n st c).pending = s.pending := by unfold State.unraise; split <;> [rfl; (split <;> simp)]

@[simp] theorem State.putLine_tbc (s : State) (l : LineId) (x : Line) :
    (s.putLine l x).tbc = s.tbc := by cases l <;> rfl
@[simp] theorem State.putLine_cxp (s : State) (l : LineId) (x : Line) :
    (s.putLine l x).cxp = s.cxp := by cases l <;> rfl
@[simp] theorem State.putLine_cals (s : State) (l : LineId) (x : Line) :
    (s.putLine l x).cals = s.cals := by cases l <;> rfl
@[simp] theorem State.putLine_channels (s : State) (l : LineId) (x : Line) :
    (s.putLine l x).channels = s.channels := by cases l <;> rfl
@[simp] theorem State.putLine_atu (s : State) (l : LineId) (x : Line) :
    (s.putLine l x).atu = s.atu := by cases l <;> rfl
@[simp] theorem State.putLine_wck (s : State) (l : LineId) (x : Line) :
    (s.putLine l x).wck = s.wck := by cases l <;> rfl
@[simp] theorem State.putLine_ifu (s : State) (l : LineId) (x : Line) :
    (s.putLine l x).ifu = s.ifu := by cases l <;> rfl
@[simp] theorem State.putLine_isi (s : State) (l : LineId) (x : Line) :
    (s.putLine l x).isi = s.isi := by cases l <;> rfl
@[simp] theorem State.putLine_sys (s : State) (l : LineId) (x : Line) :
    (s.putLine l x).sys = s.sys := by cases l <;> rfl
@[simp] theorem State.putLine_freeNext (s : State) (l : LineId) (x : Line) :
    (s.putLine l x).freeNext = s.freeNext := by cases l <;> rfl
@[simp] theorem State.putLine_pending (s : State) (l : LineId) (x : Line) :
    (s.putLine l x).pending = s.pending := by cases l <;> rfl

@[simp] theorem State.setMark_tbc (s : State) (subj : Subject) (c : Cond) (on : Bool) :
    (s.setMark subj c on).tbc = s.tbc := by unfold State.setMark; split <;> simp
@[simp] theorem State.setMark_cxp (s : State) (subj : Subject) (c : Cond) (on : Bool) :
    (s.setMark subj c on).cxp = s.cxp := by unfold State.setMark; split <;> simp
@[simp] theorem State.setMark_cals (s : State) (subj : Subject) (c : Cond) (on : Bool) :
    (s.setMark subj c on).cals = s.cals := by unfold State.setMark; split <;> simp
@[simp] theorem State.setMark_channels (s : State) (subj : Subject) (c : Cond) (on : Bool) :
    (s.setMark subj c on).channels = s.channels := by unfold State.setMark; split <;> simp
@[simp] theorem State.setMark_atu (s : State) (subj : Subject) (c : Cond) (on : Bool) :
    (s.setMark subj c on).atu = s.atu := by unfold State.setMark; split <;> simp
@[simp] theorem State.setMark_wck (s : State) (subj : Subject) (c : Cond) (on : Bool) :
    (s.setMark subj c on).wck = s.wck := by unfold State.setMark; split <;> simp
@[simp] theorem State.setMark_ifu (s : State) (subj : Subject) (c : Cond) (on : Bool) :
    (s.setMark subj c on).ifu = s.ifu := by unfold State.setMark; split <;> simp
@[simp] theorem State.setMark_sys (s : State) (subj : Subject) (c : Cond) (on : Bool) :
    (s.setMark subj c on).sys = s.sys := by unfold State.setMark; split <;> simp
@[simp] theorem State.setMark_freeNext (s : State) (subj : Subject) (c : Cond) (on : Bool) :
    (s.setMark subj c on).freeNext = s.freeNext := by unfold State.setMark; split <;> simp
@[simp] theorem State.setMark_pending (s : State) (subj : Subject) (c : Cond) (on : Bool) :
    (s.setMark subj c on).pending = s.pending := by unfold State.setMark; split <;> simp

@[simp] theorem State.raiseMark_tbc (s : State) (subj : Subject) (c : Cond) :
    (s.raiseMark subj c).tbc = s.tbc := by unfold State.raiseMark; split <;> simp
@[simp] theorem State.raiseMark_cxp (s : State) (subj : Subject) (c : Cond) :
    (s.raiseMark subj c).cxp = s.cxp := by unfold State.raiseMark; split <;> simp
@[simp] theorem State.raiseMark_cals (s : State) (subj : Subject) (c : Cond) :
    (s.raiseMark subj c).cals = s.cals := by unfold State.raiseMark; split <;> simp
@[simp] theorem State.raiseMark_channels (s : State) (subj : Subject) (c : Cond) :
    (s.raiseMark subj c).channels = s.channels := by unfold State.raiseMark; split <;> simp
@[simp] theorem State.raiseMark_wck (s : State) (subj : Subject) (c : Cond) :
    (s.raiseMark subj c).wck = s.wck := by unfold State.raiseMark; split <;> simp
@[simp] theorem State.raiseMark_ifu (s : State) (subj : Subject) (c : Cond) :
    (s.raiseMark subj c).ifu = s.ifu := by unfold State.raiseMark; split <;> simp
@[simp] theorem State.raiseMark_sys (s : State) (subj : Subject) (c : Cond) :
    (s.raiseMark subj c).sys = s.sys := by unfold State.raiseMark; split <;> simp
@[simp] theorem State.raiseMark_freeNext (s : State) (subj : Subject) (c : Cond) :
    (s.raiseMark subj c).freeNext = s.freeNext := by unfold State.raiseMark; split <;> simp
@[simp] theorem State.raiseMark_pending (s : State) (subj : Subject) (c : Cond) :
    (s.raiseMark subj c).pending = s.pending := by unfold State.raiseMark; split <;> simp

@[simp] theorem State.clearMark_tbc (s : State) (subj : Subject) (c : Cond) :
    (s.clearMark subj c).tbc = s.tbc := by unfold State.clearMark; split <;> simp
@[simp] theorem State.clearMark_cxp (s : State) (subj : Subject) (c : Cond) :
    (s.clearMark subj c).cxp = s.cxp := by unfold State.clearMark; split <;> simp
@[simp] theorem State.clearMark_cals (s : State) (subj : Subject) (c : Cond) :
    (s.clearMark subj c).cals = s.cals := by unfold State.clearMark; split <;> simp
@[simp] theorem State.clearMark_channels (s : State) (subj : Subject) (c : Cond) :
    (s.clearMark subj c).channels = s.channels := by unfold State.clearMark; split <;> simp
@[simp] theorem State.clearMark_wck (s : State) (subj : Subject) (c : Cond) :
    (s.clearMark subj c).wck = s.wck := by unfold State.clearMark; split <;> simp
@[simp] theorem State.clearMark_ifu (s : State) (subj : Subject) (c : Cond) :
    (s.clearMark subj c).ifu = s.ifu := by unfold State.clearMark; split <;> simp
@[simp] theorem State.clearMark_sys (s : State) (subj : Subject) (c : Cond) :
    (s.clearMark subj c).sys = s.sys := by unfold State.clearMark; split <;> simp
@[simp] theorem State.clearMark_freeNext (s : State) (subj : Subject) (c : Cond) :
    (s.clearMark subj c).freeNext = s.freeNext := by unfold State.clearMark; split <;> simp
@[simp] theorem State.clearMark_pending (s : State) (subj : Subject) (c : Cond) :
    (s.clearMark subj c).pending = s.pending := by unfold State.clearMark; split <;> simp

@[simp] theorem State.setMap_cxp (s : State) (key : Nat) (v? : Option Nat) :
    (s.setMap key v?).cxp = s.cxp := by unfold State.setMap; simp only; split <;> [rfl; (split <;> split <;> simp)]
@[simp] theorem State.setMap_cals (s : State) (key : Nat) (v? : Option Nat) :
    (s.setMap key v?).cals = s.cals := by unfold State.setMap; simp only; split <;> [rfl; (split <;> split <;> simp)]
@[simp] theorem State.setMap_channels (s : State) (key : Nat) (v? : Option Nat) :
    (s.setMap key v?).channels = s.channels := by unfold State.setMap; simp only; split <;> [rfl; (split <;> split <;> simp)]
@[simp] theorem State.setMap_atu (s : State) (key : Nat) (v? : Option Nat) :
    (s.setMap key v?).atu = s.atu := by unfold State.setMap; simp only; split <;> [rfl; (split <;> split <;> simp)]
@[simp] theorem State.setMap_wck (s : State) (key : Nat) (v? : Option Nat) :
    (s.setMap key v?).wck = s.wck := by unfold State.setMap; simp only; split <;> [rfl; (split <;> split <;> simp)]
@[simp] theorem State.setMap_bmu (s : State) (key : Nat) (v? : Option Nat) :
    (s.setMap key v?).bmu = s.bmu := by unfold State.setMap; simp only; split <;> [rfl; (split <;> split <;> simp)]
@[simp] theorem State.setMap_ifu (s : State) (key : Nat) (v? : Option Nat) :
    (s.setMap key v?).ifu = s.ifu := by unfold State.setMap; simp only; split <;> [rfl; (split <;> split <;> simp)]
@[simp] theorem State.setMap_sys (s : State) (key : Nat) (v? : Option Nat) :
    (s.setMap key v?).sys = s.sys := by unfold State.setMap; simp only; split <;> [rfl; (split <;> split <;> simp)]
@[simp] theorem State.setMap_freeNext (s : State) (key : Nat) (v? : Option Nat) :
    (s.setMap key v?).freeNext = s.freeNext := by unfold State.setMap; simp only; split <;> [rfl; (split <;> split <;> simp)]
@[simp] theorem State.setMap_pending (s : State) (key : Nat) (v? : Option Nat) :
    (s.setMap key v?).pending = s.pending := by unfold State.setMap; simp only; split <;> [rfl; (split <;> split <;> simp)]

@[simp] theorem State.freeChannel_tbc (s : State) (b? : Option Binding) :
    (s.freeChannel b?).tbc = s.tbc := by cases b? <;> rfl
@[simp] theorem State.freeChannel_cxp (s : State) (b? : Option Binding) :
    (s.freeChannel b?).cxp = s.cxp := by cases b? <;> rfl
@[simp] theorem State.freeChannel_cals (s : State) (b? : Option Binding) :
    (s.freeChannel b?).cals = s.cals := by cases b? <;> rfl
@[simp] theorem State.freeChannel_atu (s : State) (b? : Option Binding) :
    (s.freeChannel b?).atu = s.atu := by cases b? <;> rfl
@[simp] theorem State.freeChannel_wck (s : State) (b? : Option Binding) :
    (s.freeChannel b?).wck = s.wck := by cases b? <;> rfl
@[simp] theorem State.freeChannel_bmu (s : State) (b? : Option Binding) :
    (s.freeChannel b?).bmu = s.bmu := by cases b? <;> rfl
@[simp] theorem State.freeChannel_ifu (s : State) (b? : Option Binding) :
    (s.freeChannel b?).ifu = s.ifu := by cases b? <;> rfl
@[simp] theorem State.freeChannel_isi (s : State) (b? : Option Binding) :
    (s.freeChannel b?).isi = s.isi := by cases b? <;> rfl
@[simp] theorem State.freeChannel_sys (s : State) (b? : Option Binding) :
    (s.freeChannel b?).sys = s.sys := by cases b? <;> rfl
@[simp] theorem State.freeChannel_freeNext (s : State) (b? : Option Binding) :
    (s.freeChannel b?).freeNext = s.freeNext := by cases b? <;> rfl
@[simp] theorem State.freeChannel_pending (s : State) (b? : Option Binding) :
    (s.freeChannel b?).pending = s.pending := by cases b? <;> rfl

@[simp] theorem State.unlinkOld_cxp (s : State) (n st : Nat) (r : Record) :
    (s.unlinkOld n st r).cxp = s.cxp := by unfold State.unlinkOld; split <;> [rfl; (split <;> [rfl; (split <;> simp)])]
@[simp] theorem State.unlinkOld_cals (s : State) (n st : Nat) (r : Record) :
    (s.unlinkOld n st r).cals = s.cals := by unfold State.unlinkOld; split <;> [rfl; (split <;> [rfl; (split <;> simp)])]
@[simp] theorem State.unlinkOld_channels (s : State) (n st : Nat) (r : Record) :
    (s.unlinkOld n st r).channels = s.channels := by unfold State.unlinkOld; split <;> [rfl; (split <;> [rfl; (split <;> simp)])]
@[simp] theorem State.unlinkOld_atu (s : State) (n st : Nat) (r : Record) :
    (s.unlinkOld n st r).atu = s.atu := by unfold State.unlinkOld; split <;> [rfl; (split <;> [rfl; (split <;> simp)])]
@[simp] theorem State.unlinkOld_wck (s : State) (n st : Nat) (r : Record) :
    (s.unlinkOld n st r).wck = s.wck := by unfold State.unlinkOld; split <;> [rfl; (split <;> [rfl; (split <;> simp)])]
@[simp] theorem State.unlinkOld_bmu (s : State) (n st : Nat) (r : Record) :
    (s.unlinkOld n st r).bmu = s.bmu := by unfold State.unlinkOld; split <;> [rfl; (split <;> [rfl; (split <;> simp)])]
@[simp] theorem State.unlinkOld_ifu (s : State) (n st : Nat) (r : Record) :
    (s.unlinkOld n st r).ifu = s.ifu := by unfold State.unlinkOld; split <;> [rfl; (split <;> [rfl; (split <;> simp)])]
@[simp] theorem State.unlinkOld_sys (s : State) (n st : Nat) (r : Record) :
    (s.unlinkOld n st r).sys = s.sys := by unfold State.unlinkOld; split <;> [rfl; (split <;> [rfl; (split <;> simp)])]
@[simp] theorem State.unlinkOld_freeNext (s : State) (n st : Nat) (r : Record) :
    (s.unlinkOld n st r).freeNext = s.freeNext := by unfold State.unlinkOld; split <;> [rfl; (split <;> [rfl; (split <;> simp)])]
@[simp] theorem State.unlinkOld_pending (s : State) (n st : Nat) (r : Record) :
    (s.unlinkOld n st r).pending = s.pending := by unfold State.unlinkOld; split <;> [rfl; (split <;> [rfl; (split <;> simp)])]

@[simp] theorem State.retireRecord_cxp (s : State) (n st : Nat) (reason : RetireReason) (f : Record → Record) :
    (s.retireRecord n st reason f).cxp = s.cxp := by unfold State.retireRecord; split <;> [rfl; (simp only; split <;> simp)]
@[simp] theorem State.retireRecord_cals (s : State) (n st : Nat) (reason : RetireReason) (f : Record → Record) :
    (s.retireRecord n st reason f).cals = s.cals := by unfold State.retireRecord; split <;> [rfl; (simp only; split <;> simp)]
@[simp] theorem State.retireRecord_wck (s : State) (n st : Nat) (reason : RetireReason) (f : Record → Record) :
    (s.retireRecord n st reason f).wck = s.wck := by unfold State.retireRecord; split <;> [rfl; (simp only; split <;> simp)]
@[simp] theorem State.retireRecord_bmu (s : State) (n st : Nat) (reason : RetireReason) (f : Record → Record) :
    (s.retireRecord n st reason f).bmu = s.bmu := by unfold State.retireRecord; split <;> [rfl; (simp only; split <;> simp)]
@[simp] theorem State.retireRecord_ifu (s : State) (n st : Nat) (reason : RetireReason) (f : Record → Record) :
    (s.retireRecord n st reason f).ifu = s.ifu := by unfold State.retireRecord; split <;> [rfl; (simp only; split <;> simp)]
@[simp] theorem State.retireRecord_sys (s : State) (n st : Nat) (reason : RetireReason) (f : Record → Record) :
    (s.retireRecord n st reason f).sys = s.sys := by unfold State.retireRecord; split <;> [rfl; (simp only; split <;> simp)]
@[simp] theorem State.retireRecord_freeNext (s : State) (n st : Nat) (reason : RetireReason) (f : Record → Record) :
    (s.retireRecord n st reason f).freeNext = s.freeNext := by unfold State.retireRecord; split <;> [rfl; (simp only; split <;> simp)]
@[simp] theorem State.retireRecord_pending (s : State) (n st : Nat) (reason : RetireReason) (f : Record → Record) :
    (s.retireRecord n st reason f).pending = s.pending := by unfold State.retireRecord; split <;> [rfl; (simp only; split <;> simp)]

@[simp] theorem State.lockRecord_cxp (s : State) (n st : Nat) (f : Record → Record) :
    (s.lockRecord n st f).cxp = s.cxp := by unfold State.lockRecord; split <;> [rfl; (simp only; split <;> [simp; (split <;> simp)])]
@[simp] theorem State.lockRecord_cals (s : State) (n st : Nat) (f : Record → Record) :
    (s.lockRecord n st f).cals = s.cals := by unfold State.lockRecord; split <;> [rfl; (simp only; split <;> [simp; (split <;> simp)])]
@[simp] theorem State.lockRecord_channels (s : State) (n st : Nat) (f : Record → Record) :
    (s.lockRecord n st f).channels = s.channels := by unfold State.lockRecord; split <;> [rfl; (simp only; split <;> [simp; (split <;> simp)])]
@[simp] theorem State.lockRecord_atu (s : State) (n st : Nat) (f : Record → Record) :
    (s.lockRecord n st f).atu = s.atu := by unfold State.lockRecord; split <;> [rfl; (simp only; split <;> [simp; (split <;> simp)])]
@[simp] theorem State.lockRecord_wck (s : State) (n st : Nat) (f : Record → Record) :
    (s.lockRecord n st f).wck = s.wck := by unfold State.lockRecord; split <;> [rfl; (simp only; split <;> [simp; (split <;> simp)])]
@[simp] theorem State.lockRecord_bmu (s : State) (n st : Nat) (f : Record → Record) :
    (s.lockRecord n st f).bmu = s.bmu := by unfold State.lockRecord; split <;> [rfl; (simp only; split <;> [simp; (split <;> simp)])]
@[simp] theorem State.lockRecord_ifu (s : State) (n st : Nat) (f : Record → Record) :
    (s.lockRecord n st f).ifu = s.ifu := by unfold State.lockRecord; split <;> [rfl; (simp only; split <;> [simp; (split <;> simp)])]
@[simp] theorem State.lockRecord_sys (s : State) (n st : Nat) (f : Record → Record) :
    (s.lockRecord n st f).sys = s.sys := by unfold State.lockRecord; split <;> [rfl; (simp only; split <;> [simp; (split <;> simp)])]
@[simp] theorem State.lockRecord_freeNext (s : State) (n st : Nat) (f : Record → Record) :
    (s.lockRecord n st f).freeNext = s.freeNext := by unfold State.lockRecord; split <;> [rfl; (simp only; split <;> [simp; (split <;> simp)])]
@[simp] theorem State.lockRecord_pending (s : State) (n st : Nat) (f : Record → Record) :
    (s.lockRecord n st f).pending = s.pending := by unfold State.lockRecord; split <;> [rfl; (simp only; split <;> [simp; (split <;> simp)])]

@[simp] theorem State.place_cxp (s : State) (n : Nat) (r : Record) :
    (s.place n r).cxp = s.cxp := by simp [State.place]
@[simp] theorem State.place_cals (s : State) (n : Nat) (r : Record) :
    (s.place n r).cals = s.cals := by simp [State.place]
@[simp] theorem State.place_channels (s : State) (n : Nat) (r : Record) :
    (s.place n r).channels = s.channels := by simp [State.place]
@[simp] theorem State.place_atu (s : State) (n : Nat) (r : Record) :
    (s.place n r).atu = s.atu := by simp [State.place]
@[simp] theorem State.place_wck (s : State) (n : Nat) (r : Record) :
    (s.place n r).wck = s.wck := by simp [State.place]
@[simp] theorem State.place_bmu (s : State) (n : Nat) (r : Record) :
    (s.place n r).bmu = s.bmu := by simp [State.place]
@[simp] theorem State.place_ifu (s : State) (n : Nat) (r : Record) :
    (s.place n r).ifu = s.ifu := by simp [State.place]
@[simp] theorem State.place_sys (s : State) (n : Nat) (r : Record) :
    (s.place n r).sys = s.sys := by simp [State.place]
@[simp] theorem State.place_freeNext (s : State) (n : Nat) (r : Record) :
    (s.place n r).freeNext = s.freeNext := by simp [State.place]
@[simp] theorem State.place_pending (s : State) (n : Nat) (r : Record) :
    (s.place n r).pending = s.pending := by simp [State.place]

@[simp] theorem State.freeCtx_tbc (s : State) (c : Nat) (x : Context) (p : Parting) :
    (s.freeCtx c x p).tbc = s.tbc := by rfl
@[simp] theorem State.freeCtx_cals (s : State) (c : Nat) (x : Context) (p : Parting) :
    (s.freeCtx c x p).cals = s.cals := by rfl
@[simp] theorem State.freeCtx_channels (s : State) (c : Nat) (x : Context) (p : Parting) :
    (s.freeCtx c x p).channels = s.channels := by rfl
@[simp] theorem State.freeCtx_atu (s : State) (c : Nat) (x : Context) (p : Parting) :
    (s.freeCtx c x p).atu = s.atu := by rfl
@[simp] theorem State.freeCtx_wck (s : State) (c : Nat) (x : Context) (p : Parting) :
    (s.freeCtx c x p).wck = s.wck := by rfl
@[simp] theorem State.freeCtx_ifu (s : State) (c : Nat) (x : Context) (p : Parting) :
    (s.freeCtx c x p).ifu = s.ifu := by rfl
@[simp] theorem State.freeCtx_isi (s : State) (c : Nat) (x : Context) (p : Parting) :
    (s.freeCtx c x p).isi = s.isi := by rfl
@[simp] theorem State.freeCtx_sys (s : State) (c : Nat) (x : Context) (p : Parting) :
    (s.freeCtx c x p).sys = s.sys := by rfl
@[simp] theorem State.freeCtx_freeNext (s : State) (c : Nat) (x : Context) (p : Parting) :
    (s.freeCtx c x p).freeNext = s.freeNext := by rfl
@[simp] theorem State.freeCtx_pending (s : State) (c : Nat) (x : Context) (p : Parting) :
    (s.freeCtx c x p).pending = s.pending := by rfl

@[simp] theorem State.releaseHeld_cals (s : State) (c : Nat) (x : Context) (reason : HeldReason) (st : Nat) (cs : List Cond) (e : Option (EndReason × Nat)) :
    (s.releaseHeld c x reason st cs e).cals = s.cals := by simp [State.releaseHeld]
@[simp] theorem State.releaseHeld_channels (s : State) (c : Nat) (x : Context) (reason : HeldReason) (st : Nat) (cs : List Cond) (e : Option (EndReason × Nat)) :
    (s.releaseHeld c x reason st cs e).channels = s.channels := by simp [State.releaseHeld]
@[simp] theorem State.releaseHeld_wck (s : State) (c : Nat) (x : Context) (reason : HeldReason) (st : Nat) (cs : List Cond) (e : Option (EndReason × Nat)) :
    (s.releaseHeld c x reason st cs e).wck = s.wck := by simp [State.releaseHeld]
@[simp] theorem State.releaseHeld_ifu (s : State) (c : Nat) (x : Context) (reason : HeldReason) (st : Nat) (cs : List Cond) (e : Option (EndReason × Nat)) :
    (s.releaseHeld c x reason st cs e).ifu = s.ifu := by simp [State.releaseHeld]
@[simp] theorem State.releaseHeld_sys (s : State) (c : Nat) (x : Context) (reason : HeldReason) (st : Nat) (cs : List Cond) (e : Option (EndReason × Nat)) :
    (s.releaseHeld c x reason st cs e).sys = s.sys := by simp [State.releaseHeld]
@[simp] theorem State.releaseHeld_freeNext (s : State) (c : Nat) (x : Context) (reason : HeldReason) (st : Nat) (cs : List Cond) (e : Option (EndReason × Nat)) :
    (s.releaseHeld c x reason st cs e).freeNext = s.freeNext := by simp [State.releaseHeld]
@[simp] theorem State.releaseHeld_pending (s : State) (c : Nat) (x : Context) (reason : HeldReason) (st : Nat) (cs : List Cond) (e : Option (EndReason × Nat)) :
    (s.releaseHeld c x reason st cs e).pending = s.pending := by simp [State.releaseHeld]

@[simp] theorem State.releaseAll_cals (s : State) :
    (s.releaseAll).cals = s.cals := by unfold State.releaseAll; rw [foldl_same State.cals _ (fun t x => by simp)]
@[simp] theorem State.releaseAll_channels (s : State) :
    (s.releaseAll).channels = s.channels := by unfold State.releaseAll; rw [foldl_same State.channels _ (fun t x => by simp)]
@[simp] theorem State.releaseAll_wck (s : State) :
    (s.releaseAll).wck = s.wck := by unfold State.releaseAll; rw [foldl_same State.wck _ (fun t x => by simp)]
@[simp] theorem State.releaseAll_ifu (s : State) :
    (s.releaseAll).ifu = s.ifu := by unfold State.releaseAll; rw [foldl_same State.ifu _ (fun t x => by simp)]
@[simp] theorem State.releaseAll_sys (s : State) :
    (s.releaseAll).sys = s.sys := by unfold State.releaseAll; rw [foldl_same State.sys _ (fun t x => by simp)]
@[simp] theorem State.releaseAll_freeNext (s : State) :
    (s.releaseAll).freeNext = s.freeNext := by unfold State.releaseAll; rw [foldl_same State.freeNext _ (fun t x => by simp)]
@[simp] theorem State.releaseAll_pending (s : State) :
    (s.releaseAll).pending = s.pending := by unfold State.releaseAll; rw [foldl_same State.pending _ (fun t x => by simp)]

@[simp] theorem State.bindCtx_cals (s : State) (c : Nat) (k : CtxKind) (n st sender : Nat) (r : Record) (b : Bool) :
    (s.bindCtx c k n st sender r b).cals = s.cals := by unfold State.bindCtx; simp only; split <;> simp
@[simp] theorem State.bindCtx_atu (s : State) (c : Nat) (k : CtxKind) (n st sender : Nat) (r : Record) (b : Bool) :
    (s.bindCtx c k n st sender r b).atu = s.atu := by unfold State.bindCtx; simp only; split <;> simp
@[simp] theorem State.bindCtx_wck (s : State) (c : Nat) (k : CtxKind) (n st sender : Nat) (r : Record) (b : Bool) :
    (s.bindCtx c k n st sender r b).wck = s.wck := by unfold State.bindCtx; simp only; split <;> simp
@[simp] theorem State.bindCtx_ifu (s : State) (c : Nat) (k : CtxKind) (n st sender : Nat) (r : Record) (b : Bool) :
    (s.bindCtx c k n st sender r b).ifu = s.ifu := by unfold State.bindCtx; simp only; split <;> simp
@[simp] theorem State.bindCtx_sys (s : State) (c : Nat) (k : CtxKind) (n st sender : Nat) (r : Record) (b : Bool) :
    (s.bindCtx c k n st sender r b).sys = s.sys := by unfold State.bindCtx; simp only; split <;> simp
@[simp] theorem State.bindCtx_freeNext (s : State) (c : Nat) (k : CtxKind) (n st sender : Nat) (r : Record) (b : Bool) :
    (s.bindCtx c k n st sender r b).freeNext = s.freeNext := by unfold State.bindCtx; simp only; split <;> simp
@[simp] theorem State.bindCtx_pending (s : State) (c : Nat) (k : CtxKind) (n st sender : Nat) (r : Record) (b : Bool) :
    (s.bindCtx c k n st sender r b).pending = s.pending := by unfold State.bindCtx; simp only; split <;> simp

@[simp] theorem State.toCuring_cals (s : State) (c : Nat) (x : Context) (p : GroutProg) (cls : ClassEntry) (e : EndReason) :
    (s.toCuring c x p cls e).cals = s.cals := by simp [State.toCuring]
@[simp] theorem State.toCuring_channels (s : State) (c : Nat) (x : Context) (p : GroutProg) (cls : ClassEntry) (e : EndReason) :
    (s.toCuring c x p cls e).channels = s.channels := by simp [State.toCuring]
@[simp] theorem State.toCuring_atu (s : State) (c : Nat) (x : Context) (p : GroutProg) (cls : ClassEntry) (e : EndReason) :
    (s.toCuring c x p cls e).atu = s.atu := by simp [State.toCuring]
@[simp] theorem State.toCuring_wck (s : State) (c : Nat) (x : Context) (p : GroutProg) (cls : ClassEntry) (e : EndReason) :
    (s.toCuring c x p cls e).wck = s.wck := by simp [State.toCuring]
@[simp] theorem State.toCuring_ifu (s : State) (c : Nat) (x : Context) (p : GroutProg) (cls : ClassEntry) (e : EndReason) :
    (s.toCuring c x p cls e).ifu = s.ifu := by simp [State.toCuring]
@[simp] theorem State.toCuring_sys (s : State) (c : Nat) (x : Context) (p : GroutProg) (cls : ClassEntry) (e : EndReason) :
    (s.toCuring c x p cls e).sys = s.sys := by simp [State.toCuring]
@[simp] theorem State.toCuring_freeNext (s : State) (c : Nat) (x : Context) (p : GroutProg) (cls : ClassEntry) (e : EndReason) :
    (s.toCuring c x p cls e).freeNext = s.freeNext := by simp [State.toCuring]
@[simp] theorem State.toCuring_pending (s : State) (c : Nat) (x : Context) (p : GroutProg) (cls : ClassEntry) (e : EndReason) :
    (s.toCuring c x p cls e).pending = s.pending := by simp [State.toCuring]

@[simp] theorem State.winchReply_cals (s : State) (c : Nat) (x : Context) (p : InsertProg) (a b : Nat) :
    (s.winchReply c x p a b).cals = s.cals := by unfold State.winchReply; split <;> [rfl; (simp only; split <;> split <;> simp)]
@[simp] theorem State.winchReply_channels (s : State) (c : Nat) (x : Context) (p : InsertProg) (a b : Nat) :
    (s.winchReply c x p a b).channels = s.channels := by unfold State.winchReply; split <;> [rfl; (simp only; split <;> split <;> simp)]
@[simp] theorem State.winchReply_wck (s : State) (c : Nat) (x : Context) (p : InsertProg) (a b : Nat) :
    (s.winchReply c x p a b).wck = s.wck := by unfold State.winchReply; split <;> [rfl; (simp only; split <;> split <;> simp)]
@[simp] theorem State.winchReply_ifu (s : State) (c : Nat) (x : Context) (p : InsertProg) (a b : Nat) :
    (s.winchReply c x p a b).ifu = s.ifu := by unfold State.winchReply; split <;> [rfl; (simp only; split <;> split <;> simp)]
@[simp] theorem State.winchReply_sys (s : State) (c : Nat) (x : Context) (p : InsertProg) (a b : Nat) :
    (s.winchReply c x p a b).sys = s.sys := by unfold State.winchReply; split <;> [rfl; (simp only; split <;> split <;> simp)]
@[simp] theorem State.winchReply_freeNext (s : State) (c : Nat) (x : Context) (p : InsertProg) (a b : Nat) :
    (s.winchReply c x p a b).freeNext = s.freeNext := by unfold State.winchReply; split <;> [rfl; (simp only; split <;> split <;> simp)]
@[simp] theorem State.winchReply_pending (s : State) (c : Nat) (x : Context) (p : InsertProg) (a b : Nat) :
    (s.winchReply c x p a b).pending = s.pending := by unfold State.winchReply; split <;> [rfl; (simp only; split <;> split <;> simp)]

@[simp] theorem State.pumpReply_cals (s : State) (c : Nat) (x : Context) (p : GroutProg) (a b : Nat) :
    (s.pumpReply c x p a b).cals = s.cals := by unfold State.pumpReply; split <;> [rfl; (simp only; repeat' split) <;> simp]
@[simp] theorem State.pumpReply_channels (s : State) (c : Nat) (x : Context) (p : GroutProg) (a b : Nat) :
    (s.pumpReply c x p a b).channels = s.channels := by unfold State.pumpReply; split <;> [rfl; (simp only; repeat' split) <;> simp]
@[simp] theorem State.pumpReply_wck (s : State) (c : Nat) (x : Context) (p : GroutProg) (a b : Nat) :
    (s.pumpReply c x p a b).wck = s.wck := by unfold State.pumpReply; split <;> [rfl; (simp only; repeat' split) <;> simp]
@[simp] theorem State.pumpReply_ifu (s : State) (c : Nat) (x : Context) (p : GroutProg) (a b : Nat) :
    (s.pumpReply c x p a b).ifu = s.ifu := by unfold State.pumpReply; split <;> [rfl; (simp only; repeat' split) <;> simp]
@[simp] theorem State.pumpReply_sys (s : State) (c : Nat) (x : Context) (p : GroutProg) (a b : Nat) :
    (s.pumpReply c x p a b).sys = s.sys := by unfold State.pumpReply; split <;> [rfl; (simp only; repeat' split) <;> simp]
@[simp] theorem State.pumpReply_freeNext (s : State) (c : Nat) (x : Context) (p : GroutProg) (a b : Nat) :
    (s.pumpReply c x p a b).freeNext = s.freeNext := by unfold State.pumpReply; split <;> [rfl; (simp only; repeat' split) <;> simp]
@[simp] theorem State.pumpReply_pending (s : State) (c : Nat) (x : Context) (p : GroutProg) (a b : Nat) :
    (s.pumpReply c x p a b).pending = s.pending := by unfold State.pumpReply; split <;> [rfl; (simp only; repeat' split) <;> simp]

@[simp] theorem State.winchEnd_cals (s : State) (c : Nat) (x : Context) (p : InsertProg) :
    (s.winchEnd c x p).cals = s.cals := by
  unfold State.winchEnd; repeat' split
  all_goals simp
@[simp] theorem State.winchEnd_channels (s : State) (c : Nat) (x : Context) (p : InsertProg) :
    (s.winchEnd c x p).channels = s.channels := by
  unfold State.winchEnd; repeat' split
  all_goals simp
@[simp] theorem State.winchEnd_wck (s : State) (c : Nat) (x : Context) (p : InsertProg) :
    (s.winchEnd c x p).wck = s.wck := by
  unfold State.winchEnd; repeat' split
  all_goals simp
@[simp] theorem State.winchEnd_ifu (s : State) (c : Nat) (x : Context) (p : InsertProg) :
    (s.winchEnd c x p).ifu = s.ifu := by
  unfold State.winchEnd; repeat' split
  all_goals simp
@[simp] theorem State.winchEnd_sys (s : State) (c : Nat) (x : Context) (p : InsertProg) :
    (s.winchEnd c x p).sys = s.sys := by
  unfold State.winchEnd; repeat' split
  all_goals simp
@[simp] theorem State.winchEnd_freeNext (s : State) (c : Nat) (x : Context) (p : InsertProg) :
    (s.winchEnd c x p).freeNext = s.freeNext := by
  unfold State.winchEnd; repeat' split
  all_goals simp
@[simp] theorem State.winchEnd_pending (s : State) (c : Nat) (x : Context) (p : InsertProg) :
    (s.winchEnd c x p).pending = s.pending := by
  unfold State.winchEnd; repeat' split
  all_goals simp

@[simp] theorem State.groutEnd_cals (s : State) (c : Nat) (x : Context) (p : GroutProg) :
    (s.groutEnd c x p).cals = s.cals := by
  unfold State.groutEnd; repeat' split
  all_goals simp
@[simp] theorem State.groutEnd_channels (s : State) (c : Nat) (x : Context) (p : GroutProg) :
    (s.groutEnd c x p).channels = s.channels := by
  unfold State.groutEnd; repeat' split
  all_goals simp
@[simp] theorem State.groutEnd_wck (s : State) (c : Nat) (x : Context) (p : GroutProg) :
    (s.groutEnd c x p).wck = s.wck := by
  unfold State.groutEnd; repeat' split
  all_goals simp
@[simp] theorem State.groutEnd_ifu (s : State) (c : Nat) (x : Context) (p : GroutProg) :
    (s.groutEnd c x p).ifu = s.ifu := by
  unfold State.groutEnd; repeat' split
  all_goals simp
@[simp] theorem State.groutEnd_sys (s : State) (c : Nat) (x : Context) (p : GroutProg) :
    (s.groutEnd c x p).sys = s.sys := by
  unfold State.groutEnd; repeat' split
  all_goals simp
@[simp] theorem State.groutEnd_freeNext (s : State) (c : Nat) (x : Context) (p : GroutProg) :
    (s.groutEnd c x p).freeNext = s.freeNext := by
  unfold State.groutEnd; repeat' split
  all_goals simp
@[simp] theorem State.groutEnd_pending (s : State) (c : Nat) (x : Context) (p : GroutProg) :
    (s.groutEnd c x p).pending = s.pending := by
  unfold State.groutEnd; repeat' split
  all_goals simp

@[simp] theorem State.expireCure_cxp (s : State) (n : Nat) :
    (s.expireCure n).cxp = s.cxp := by
  unfold State.expireCure; repeat' split
  all_goals simp
@[simp] theorem State.expireCure_cals (s : State) (n : Nat) :
    (s.expireCure n).cals = s.cals := by
  unfold State.expireCure; repeat' split
  all_goals simp
@[simp] theorem State.expireCure_channels (s : State) (n : Nat) :
    (s.expireCure n).channels = s.channels := by
  unfold State.expireCure; repeat' split
  all_goals simp
@[simp] theorem State.expireCure_atu (s : State) (n : Nat) :
    (s.expireCure n).atu = s.atu := by
  unfold State.expireCure; repeat' split
  all_goals simp
@[simp] theorem State.expireCure_wck (s : State) (n : Nat) :
    (s.expireCure n).wck = s.wck := by
  unfold State.expireCure; repeat' split
  all_goals simp
@[simp] theorem State.expireCure_bmu (s : State) (n : Nat) :
    (s.expireCure n).bmu = s.bmu := by
  unfold State.expireCure; repeat' split
  all_goals simp
@[simp] theorem State.expireCure_ifu (s : State) (n : Nat) :
    (s.expireCure n).ifu = s.ifu := by
  unfold State.expireCure; repeat' split
  all_goals simp
@[simp] theorem State.expireCure_sys (s : State) (n : Nat) :
    (s.expireCure n).sys = s.sys := by
  unfold State.expireCure; repeat' split
  all_goals simp
@[simp] theorem State.expireCure_freeNext (s : State) (n : Nat) :
    (s.expireCure n).freeNext = s.freeNext := by
  unfold State.expireCure; repeat' split
  all_goals simp
@[simp] theorem State.expireCure_pending (s : State) (n : Nat) :
    (s.expireCure n).pending = s.pending := by
  unfold State.expireCure; repeat' split
  all_goals simp

@[simp] theorem State.finishJack_cals (s : State) (c : Nat) (x : Context) (env : JackEnv) (mk : JackProg → Progress) (out : JackProg × JackEnd) :
    (s.finishJack c x env mk out).cals = s.cals := by unfold State.finishJack; split <;> simp
@[simp] theorem State.finishJack_wck (s : State) (c : Nat) (x : Context) (env : JackEnv) (mk : JackProg → Progress) (out : JackProg × JackEnd) :
    (s.finishJack c x env mk out).wck = s.wck := by unfold State.finishJack; split <;> simp
@[simp] theorem State.finishJack_ifu (s : State) (c : Nat) (x : Context) (env : JackEnv) (mk : JackProg → Progress) (out : JackProg × JackEnd) :
    (s.finishJack c x env mk out).ifu = s.ifu := by unfold State.finishJack; split <;> simp
@[simp] theorem State.finishJack_sys (s : State) (c : Nat) (x : Context) (env : JackEnv) (mk : JackProg → Progress) (out : JackProg × JackEnd) :
    (s.finishJack c x env mk out).sys = s.sys := by unfold State.finishJack; split <;> simp
@[simp] theorem State.finishJack_freeNext (s : State) (c : Nat) (x : Context) (env : JackEnv) (mk : JackProg → Progress) (out : JackProg × JackEnd) :
    (s.finishJack c x env mk out).freeNext = s.freeNext := by unfold State.finishJack; split <;> simp
@[simp] theorem State.finishJack_pending (s : State) (c : Nat) (x : Context) (env : JackEnv) (mk : JackProg → Progress) (out : JackProg × JackEnd) :
    (s.finishJack c x env mk out).pending = s.pending := by unfold State.finishJack; split <;> simp

@[simp] theorem State.writeLiftoff_cxp (s : State) (x : Context) (p : JackProg) (t : JackReading) :
    (s.writeLiftoff x p t).cxp = s.cxp := by unfold State.writeLiftoff; split <;> simp
@[simp] theorem State.writeLiftoff_cals (s : State) (x : Context) (p : JackProg) (t : JackReading) :
    (s.writeLiftoff x p t).cals = s.cals := by unfold State.writeLiftoff; split <;> simp
@[simp] theorem State.writeLiftoff_channels (s : State) (x : Context) (p : JackProg) (t : JackReading) :
    (s.writeLiftoff x p t).channels = s.channels := by unfold State.writeLiftoff; split <;> simp
@[simp] theorem State.writeLiftoff_atu (s : State) (x : Context) (p : JackProg) (t : JackReading) :
    (s.writeLiftoff x p t).atu = s.atu := by unfold State.writeLiftoff; split <;> simp
@[simp] theorem State.writeLiftoff_wck (s : State) (x : Context) (p : JackProg) (t : JackReading) :
    (s.writeLiftoff x p t).wck = s.wck := by unfold State.writeLiftoff; split <;> simp
@[simp] theorem State.writeLiftoff_bmu (s : State) (x : Context) (p : JackProg) (t : JackReading) :
    (s.writeLiftoff x p t).bmu = s.bmu := by unfold State.writeLiftoff; split <;> simp
@[simp] theorem State.writeLiftoff_ifu (s : State) (x : Context) (p : JackProg) (t : JackReading) :
    (s.writeLiftoff x p t).ifu = s.ifu := by unfold State.writeLiftoff; split <;> simp
@[simp] theorem State.writeLiftoff_sys (s : State) (x : Context) (p : JackProg) (t : JackReading) :
    (s.writeLiftoff x p t).sys = s.sys := by unfold State.writeLiftoff; split <;> simp
@[simp] theorem State.writeLiftoff_freeNext (s : State) (x : Context) (p : JackProg) (t : JackReading) :
    (s.writeLiftoff x p t).freeNext = s.freeNext := by unfold State.writeLiftoff; split <;> simp
@[simp] theorem State.writeLiftoff_pending (s : State) (x : Context) (p : JackProg) (t : JackReading) :
    (s.writeLiftoff x p t).pending = s.pending := by unfold State.writeLiftoff; split <;> simp

@[simp] theorem State.stressReply_cals (s : State) (c : Nat) (x : Context) (p : JackProg) (b : Bool) (env : JackEnv) (t : JackReading) :
    (s.stressReply c x p b env t).cals = s.cals := by unfold State.stressReply; split <;> simp
@[simp] theorem State.stressReply_wck (s : State) (c : Nat) (x : Context) (p : JackProg) (b : Bool) (env : JackEnv) (t : JackReading) :
    (s.stressReply c x p b env t).wck = s.wck := by unfold State.stressReply; split <;> simp
@[simp] theorem State.stressReply_ifu (s : State) (c : Nat) (x : Context) (p : JackProg) (b : Bool) (env : JackEnv) (t : JackReading) :
    (s.stressReply c x p b env t).ifu = s.ifu := by unfold State.stressReply; split <;> simp
@[simp] theorem State.stressReply_sys (s : State) (c : Nat) (x : Context) (p : JackProg) (b : Bool) (env : JackEnv) (t : JackReading) :
    (s.stressReply c x p b env t).sys = s.sys := by unfold State.stressReply; split <;> simp
@[simp] theorem State.stressReply_freeNext (s : State) (c : Nat) (x : Context) (p : JackProg) (b : Bool) (env : JackEnv) (t : JackReading) :
    (s.stressReply c x p b env t).freeNext = s.freeNext := by unfold State.stressReply; split <;> simp
@[simp] theorem State.stressReply_pending (s : State) (c : Nat) (x : Context) (p : JackProg) (b : Bool) (env : JackEnv) (t : JackReading) :
    (s.stressReply c x p b env t).pending = s.pending := by unfold State.stressReply; split <;> simp

@[simp] theorem State.destressReply_cals (s : State) (c : Nat) (x : Context) (p : JackProg) (b : Bool) (env : JackEnv) (t : JackReading) :
    (s.destressReply c x p b env t).cals = s.cals := by unfold State.destressReply; split <;> [simp; (split <;> simp)]
@[simp] theorem State.destressReply_wck (s : State) (c : Nat) (x : Context) (p : JackProg) (b : Bool) (env : JackEnv) (t : JackReading) :
    (s.destressReply c x p b env t).wck = s.wck := by unfold State.destressReply; split <;> [simp; (split <;> simp)]
@[simp] theorem State.destressReply_ifu (s : State) (c : Nat) (x : Context) (p : JackProg) (b : Bool) (env : JackEnv) (t : JackReading) :
    (s.destressReply c x p b env t).ifu = s.ifu := by unfold State.destressReply; split <;> [simp; (split <;> simp)]
@[simp] theorem State.destressReply_sys (s : State) (c : Nat) (x : Context) (p : JackProg) (b : Bool) (env : JackEnv) (t : JackReading) :
    (s.destressReply c x p b env t).sys = s.sys := by unfold State.destressReply; split <;> [simp; (split <;> simp)]
@[simp] theorem State.destressReply_freeNext (s : State) (c : Nat) (x : Context) (p : JackProg) (b : Bool) (env : JackEnv) (t : JackReading) :
    (s.destressReply c x p b env t).freeNext = s.freeNext := by unfold State.destressReply; split <;> [simp; (split <;> simp)]
@[simp] theorem State.destressReply_pending (s : State) (c : Nat) (x : Context) (p : JackProg) (b : Bool) (env : JackEnv) (t : JackReading) :
    (s.destressReply c x p b env t).pending = s.pending := by unfold State.destressReply; split <;> [simp; (split <;> simp)]

@[simp] theorem State.expireTimer_cals (s : State) (c : Nat) (x : Context) :
    (s.expireTimer c x).cals = s.cals := by
  unfold State.expireTimer; repeat' split
  all_goals simp
@[simp] theorem State.expireTimer_wck (s : State) (c : Nat) (x : Context) :
    (s.expireTimer c x).wck = s.wck := by
  unfold State.expireTimer; repeat' split
  all_goals simp
@[simp] theorem State.expireTimer_ifu (s : State) (c : Nat) (x : Context) :
    (s.expireTimer c x).ifu = s.ifu := by
  unfold State.expireTimer; repeat' split
  all_goals simp
@[simp] theorem State.expireTimer_sys (s : State) (c : Nat) (x : Context) :
    (s.expireTimer c x).sys = s.sys := by
  unfold State.expireTimer; repeat' split
  all_goals simp
@[simp] theorem State.expireTimer_freeNext (s : State) (c : Nat) (x : Context) :
    (s.expireTimer c x).freeNext = s.freeNext := by
  unfold State.expireTimer; repeat' split
  all_goals simp
@[simp] theorem State.expireTimer_pending (s : State) (c : Nat) (x : Context) :
    (s.expireTimer c x).pending = s.pending := by
  unfold State.expireTimer; repeat' split
  all_goals simp

@[simp] theorem State.useReply_cals (s : State) (c : Nat) (x : Context) (r : Reply) :
    (s.useReply c x r).cals = s.cals := by
  unfold State.useReply; repeat' split
  all_goals simp
@[simp] theorem State.useReply_wck (s : State) (c : Nat) (x : Context) (r : Reply) :
    (s.useReply c x r).wck = s.wck := by
  unfold State.useReply; repeat' split
  all_goals simp
@[simp] theorem State.useReply_ifu (s : State) (c : Nat) (x : Context) (r : Reply) :
    (s.useReply c x r).ifu = s.ifu := by
  unfold State.useReply; repeat' split
  all_goals simp
@[simp] theorem State.useReply_sys (s : State) (c : Nat) (x : Context) (r : Reply) :
    (s.useReply c x r).sys = s.sys := by
  unfold State.useReply; repeat' split
  all_goals simp
@[simp] theorem State.useReply_freeNext (s : State) (c : Nat) (x : Context) (r : Reply) :
    (s.useReply c x r).freeNext = s.freeNext := by
  unfold State.useReply; repeat' split
  all_goals simp
@[simp] theorem State.useReply_pending (s : State) (c : Nat) (x : Context) (r : Reply) :
    (s.useReply c x r).pending = s.pending := by
  unfold State.useReply; repeat' split
  all_goals simp

@[simp] theorem State.handToContext_cals (s : State) (c : Nat) (x : Context) (r : Reply) :
    (s.handToContext c x r).cals = s.cals := by unfold State.handToContext; simp only; split <;> simp
@[simp] theorem State.handToContext_wck (s : State) (c : Nat) (x : Context) (r : Reply) :
    (s.handToContext c x r).wck = s.wck := by unfold State.handToContext; simp only; split <;> simp
@[simp] theorem State.handToContext_ifu (s : State) (c : Nat) (x : Context) (r : Reply) :
    (s.handToContext c x r).ifu = s.ifu := by unfold State.handToContext; simp only; split <;> simp
@[simp] theorem State.handToContext_sys (s : State) (c : Nat) (x : Context) (r : Reply) :
    (s.handToContext c x r).sys = s.sys := by unfold State.handToContext; simp only; split <;> simp
@[simp] theorem State.handToContext_freeNext (s : State) (c : Nat) (x : Context) (r : Reply) :
    (s.handToContext c x r).freeNext = s.freeNext := by unfold State.handToContext; simp only; split <;> simp
@[simp] theorem State.handToContext_pending (s : State) (c : Nat) (x : Context) (r : Reply) :
    (s.handToContext c x r).pending = s.pending := by unfold State.handToContext; simp only; split <;> simp

@[simp] theorem State.reading_cxp (s : State) (n st l : Nat) :
    (s.reading n st l).cxp = s.cxp := by unfold State.reading; split <;> simp
@[simp] theorem State.reading_cals (s : State) (n st l : Nat) :
    (s.reading n st l).cals = s.cals := by unfold State.reading; split <;> simp
@[simp] theorem State.reading_channels (s : State) (n st l : Nat) :
    (s.reading n st l).channels = s.channels := by unfold State.reading; split <;> simp
@[simp] theorem State.reading_wck (s : State) (n st l : Nat) :
    (s.reading n st l).wck = s.wck := by unfold State.reading; split <;> simp
@[simp] theorem State.reading_bmu (s : State) (n st l : Nat) :
    (s.reading n st l).bmu = s.bmu := by unfold State.reading; split <;> simp
@[simp] theorem State.reading_ifu (s : State) (n st l : Nat) :
    (s.reading n st l).ifu = s.ifu := by unfold State.reading; split <;> simp
@[simp] theorem State.reading_sys (s : State) (n st l : Nat) :
    (s.reading n st l).sys = s.sys := by unfold State.reading; split <;> simp
@[simp] theorem State.reading_freeNext (s : State) (n st l : Nat) :
    (s.reading n st l).freeNext = s.freeNext := by unfold State.reading; split <;> simp
@[simp] theorem State.reading_pending (s : State) (n st l : Nat) :
    (s.reading n st l).pending = s.pending := by unfold State.reading; split <;> simp

@[simp] theorem State.takeChannels_cxp (s : State) (n c : Nat) (l : List (Nat × Bool)) :
    (s.takeChannels n c l).cxp = s.cxp := by
  induction l generalizing s c with
  | nil => rfl
  | cons x l ih => unfold State.takeChannels; simp only [ih]; split <;> simp
@[simp] theorem State.takeChannels_cals (s : State) (n c : Nat) (l : List (Nat × Bool)) :
    (s.takeChannels n c l).cals = s.cals := by
  induction l generalizing s c with
  | nil => rfl
  | cons x l ih => unfold State.takeChannels; simp only [ih]; split <;> simp
@[simp] theorem State.takeChannels_channels (s : State) (n c : Nat) (l : List (Nat × Bool)) :
    (s.takeChannels n c l).channels = s.channels := by
  induction l generalizing s c with
  | nil => rfl
  | cons x l ih => unfold State.takeChannels; simp only [ih]; split <;> simp
@[simp] theorem State.takeChannels_wck (s : State) (n c : Nat) (l : List (Nat × Bool)) :
    (s.takeChannels n c l).wck = s.wck := by
  induction l generalizing s c with
  | nil => rfl
  | cons x l ih => unfold State.takeChannels; simp only [ih]; split <;> simp
@[simp] theorem State.takeChannels_bmu (s : State) (n c : Nat) (l : List (Nat × Bool)) :
    (s.takeChannels n c l).bmu = s.bmu := by
  induction l generalizing s c with
  | nil => rfl
  | cons x l ih => unfold State.takeChannels; simp only [ih]; split <;> simp
@[simp] theorem State.takeChannels_ifu (s : State) (n c : Nat) (l : List (Nat × Bool)) :
    (s.takeChannels n c l).ifu = s.ifu := by
  induction l generalizing s c with
  | nil => rfl
  | cons x l ih => unfold State.takeChannels; simp only [ih]; split <;> simp
@[simp] theorem State.takeChannels_sys (s : State) (n c : Nat) (l : List (Nat × Bool)) :
    (s.takeChannels n c l).sys = s.sys := by
  induction l generalizing s c with
  | nil => rfl
  | cons x l ih => unfold State.takeChannels; simp only [ih]; split <;> simp
@[simp] theorem State.takeChannels_freeNext (s : State) (n c : Nat) (l : List (Nat × Bool)) :
    (s.takeChannels n c l).freeNext = s.freeNext := by
  induction l generalizing s c with
  | nil => rfl
  | cons x l ih => unfold State.takeChannels; simp only [ih]; split <;> simp
@[simp] theorem State.takeChannels_pending (s : State) (n c : Nat) (l : List (Nat × Bool)) :
    (s.takeChannels n c l).pending = s.pending := by
  induction l generalizing s c with
  | nil => rfl
  | cons x l ih => unfold State.takeChannels; simp only [ih]; split <;> simp

@[simp] theorem State.testParting_tbc (s : State) (n : Nat) (d : Telemetry) :
    (s.testParting n d).tbc = s.tbc := by
  unfold State.testParting; repeat' split
  all_goals rfl
@[simp] theorem State.testParting_cals (s : State) (n : Nat) (d : Telemetry) :
    (s.testParting n d).cals = s.cals := by
  unfold State.testParting; repeat' split
  all_goals rfl
@[simp] theorem State.testParting_channels (s : State) (n : Nat) (d : Telemetry) :
    (s.testParting n d).channels = s.channels := by
  unfold State.testParting; repeat' split
  all_goals rfl
@[simp] theorem State.testParting_atu (s : State) (n : Nat) (d : Telemetry) :
    (s.testParting n d).atu = s.atu := by
  unfold State.testParting; repeat' split
  all_goals rfl
@[simp] theorem State.testParting_wck (s : State) (n : Nat) (d : Telemetry) :
    (s.testParting n d).wck = s.wck := by
  unfold State.testParting; repeat' split
  all_goals rfl
@[simp] theorem State.testParting_bmu (s : State) (n : Nat) (d : Telemetry) :
    (s.testParting n d).bmu = s.bmu := by
  unfold State.testParting; repeat' split
  all_goals rfl
@[simp] theorem State.testParting_ifu (s : State) (n : Nat) (d : Telemetry) :
    (s.testParting n d).ifu = s.ifu := by
  unfold State.testParting; repeat' split
  all_goals rfl
@[simp] theorem State.testParting_isi (s : State) (n : Nat) (d : Telemetry) :
    (s.testParting n d).isi = s.isi := by
  unfold State.testParting; repeat' split
  all_goals rfl
@[simp] theorem State.testParting_sys (s : State) (n : Nat) (d : Telemetry) :
    (s.testParting n d).sys = s.sys := by
  unfold State.testParting; repeat' split
  all_goals rfl
@[simp] theorem State.testParting_freeNext (s : State) (n : Nat) (d : Telemetry) :
    (s.testParting n d).freeNext = s.freeNext := by
  unfold State.testParting; repeat' split
  all_goals rfl
@[simp] theorem State.testParting_pending (s : State) (n : Nat) (d : Telemetry) :
    (s.testParting n d).pending = s.pending := by
  unfold State.testParting; repeat' split
  all_goals rfl

@[simp] theorem State.handOn_cals (s : State) (n : Nat) (r : Reply) :
    (s.handOn n r).cals = s.cals := by
  unfold State.handOn; repeat' split
  all_goals simp
@[simp] theorem State.handOn_wck (s : State) (n : Nat) (r : Reply) :
    (s.handOn n r).wck = s.wck := by
  unfold State.handOn; repeat' split
  all_goals simp
@[simp] theorem State.handOn_ifu (s : State) (n : Nat) (r : Reply) :
    (s.handOn n r).ifu = s.ifu := by
  unfold State.handOn; repeat' split
  all_goals simp
@[simp] theorem State.handOn_sys (s : State) (n : Nat) (r : Reply) :
    (s.handOn n r).sys = s.sys := by
  unfold State.handOn; repeat' split
  all_goals simp
@[simp] theorem State.handOn_freeNext (s : State) (n : Nat) (r : Reply) :
    (s.handOn n r).freeNext = s.freeNext := by
  unfold State.handOn; repeat' split
  all_goals simp
@[simp] theorem State.handOn_pending (s : State) (n : Nat) (r : Reply) :
    (s.handOn n r).pending = s.pending := by
  unfold State.handOn; repeat' split
  all_goals simp

@[simp] theorem State.raiseFault_cxp (s : State) (n : Nat) (subj : Subject) :
    (s.raiseFault n subj).cxp = s.cxp := by unfold State.raiseFault; split <;> simp
@[simp] theorem State.raiseFault_cals (s : State) (n : Nat) (subj : Subject) :
    (s.raiseFault n subj).cals = s.cals := by unfold State.raiseFault; split <;> simp
@[simp] theorem State.raiseFault_channels (s : State) (n : Nat) (subj : Subject) :
    (s.raiseFault n subj).channels = s.channels := by unfold State.raiseFault; split <;> simp
@[simp] theorem State.raiseFault_wck (s : State) (n : Nat) (subj : Subject) :
    (s.raiseFault n subj).wck = s.wck := by unfold State.raiseFault; split <;> simp
@[simp] theorem State.raiseFault_ifu (s : State) (n : Nat) (subj : Subject) :
    (s.raiseFault n subj).ifu = s.ifu := by unfold State.raiseFault; split <;> simp
@[simp] theorem State.raiseFault_sys (s : State) (n : Nat) (subj : Subject) :
    (s.raiseFault n subj).sys = s.sys := by unfold State.raiseFault; split <;> simp
@[simp] theorem State.raiseFault_freeNext (s : State) (n : Nat) (subj : Subject) :
    (s.raiseFault n subj).freeNext = s.freeNext := by unfold State.raiseFault; split <;> simp
@[simp] theorem State.raiseFault_pending (s : State) (n : Nat) (subj : Subject) :
    (s.raiseFault n subj).pending = s.pending := by unfold State.raiseFault; split <;> simp

@[simp] theorem State.takeReply_cals (s : State) (n : Nat) (l : LineId) (r : Reply) :
    (s.takeReply n l r).cals = s.cals := by unfold State.takeReply; simp only; split <;> simp
@[simp] theorem State.takeReply_wck (s : State) (n : Nat) (l : LineId) (r : Reply) :
    (s.takeReply n l r).wck = s.wck := by unfold State.takeReply; simp only; split <;> simp
@[simp] theorem State.takeReply_ifu (s : State) (n : Nat) (l : LineId) (r : Reply) :
    (s.takeReply n l r).ifu = s.ifu := by unfold State.takeReply; simp only; split <;> simp
@[simp] theorem State.takeReply_sys (s : State) (n : Nat) (l : LineId) (r : Reply) :
    (s.takeReply n l r).sys = s.sys := by unfold State.takeReply; simp only; split <;> simp
@[simp] theorem State.takeReply_freeNext (s : State) (n : Nat) (l : LineId) (r : Reply) :
    (s.takeReply n l r).freeNext = s.freeNext := by unfold State.takeReply; simp only; split <;> simp
@[simp] theorem State.takeReply_pending (s : State) (n : Nat) (l : LineId) (r : Reply) :
    (s.takeReply n l r).pending = s.pending := by unfold State.takeReply; simp only; split <;> simp

@[simp] theorem State.beginStop_tbc (s : State) (i : Fin 4) :
    (s.beginStop i).tbc = s.tbc := by unfold State.beginStop; simp only; split <;> simp
@[simp] theorem State.beginStop_cals (s : State) (i : Fin 4) :
    (s.beginStop i).cals = s.cals := by unfold State.beginStop; simp only; split <;> simp
@[simp] theorem State.beginStop_channels (s : State) (i : Fin 4) :
    (s.beginStop i).channels = s.channels := by unfold State.beginStop; simp only; split <;> simp
@[simp] theorem State.beginStop_wck (s : State) (i : Fin 4) :
    (s.beginStop i).wck = s.wck := by unfold State.beginStop; simp only; split <;> simp
@[simp] theorem State.beginStop_isi (s : State) (i : Fin 4) :
    (s.beginStop i).isi = s.isi := by unfold State.beginStop; simp only; split <;> simp
@[simp] theorem State.beginStop_sys (s : State) (i : Fin 4) :
    (s.beginStop i).sys = s.sys := by unfold State.beginStop; simp only; split <;> simp
@[simp] theorem State.beginStop_freeNext (s : State) (i : Fin 4) :
    (s.beginStop i).freeNext = s.freeNext := by unfold State.beginStop; simp only; split <;> simp
@[simp] theorem State.beginStop_pending (s : State) (i : Fin 4) :
    (s.beginStop i).pending = s.pending := by unfold State.beginStop; simp only; split <;> simp

@[simp] theorem State.followStop_tbc (s : State) :
    (s.followStop).tbc = s.tbc := by unfold State.followStop; split <;> simp
@[simp] theorem State.followStop_cals (s : State) :
    (s.followStop).cals = s.cals := by unfold State.followStop; split <;> simp
@[simp] theorem State.followStop_channels (s : State) :
    (s.followStop).channels = s.channels := by unfold State.followStop; split <;> simp
@[simp] theorem State.followStop_wck (s : State) :
    (s.followStop).wck = s.wck := by unfold State.followStop; split <;> simp
@[simp] theorem State.followStop_isi (s : State) :
    (s.followStop).isi = s.isi := by unfold State.followStop; split <;> simp
@[simp] theorem State.followStop_sys (s : State) :
    (s.followStop).sys = s.sys := by unfold State.followStop; split <;> simp
@[simp] theorem State.followStop_freeNext (s : State) :
    (s.followStop).freeNext = s.freeNext := by unfold State.followStop; split <;> simp
@[simp] theorem State.followStop_pending (s : State) :
    (s.followStop).pending = s.pending := by unfold State.followStop; split <;> simp

@[simp] theorem State.followInputs_tbc (s : State) :
    (s.followInputs).tbc = s.tbc := by simp [State.followInputs]
@[simp] theorem State.followInputs_cals (s : State) :
    (s.followInputs).cals = s.cals := by simp [State.followInputs]
@[simp] theorem State.followInputs_channels (s : State) :
    (s.followInputs).channels = s.channels := by simp [State.followInputs]
@[simp] theorem State.followInputs_wck (s : State) :
    (s.followInputs).wck = s.wck := by simp [State.followInputs]
@[simp] theorem State.followInputs_isi (s : State) :
    (s.followInputs).isi = s.isi := by simp [State.followInputs]
@[simp] theorem State.followInputs_sys (s : State) :
    (s.followInputs).sys = s.sys := by simp [State.followInputs]
@[simp] theorem State.followInputs_freeNext (s : State) :
    (s.followInputs).freeNext = s.freeNext := by simp [State.followInputs]
@[simp] theorem State.followInputs_pending (s : State) :
    (s.followInputs).pending = s.pending := by simp [State.followInputs]

@[simp] theorem State.changeInputs_tbc (s : State) (v : Vector Input 4) :
    (s.changeInputs v).tbc = s.tbc := by simp [State.changeInputs]
@[simp] theorem State.changeInputs_cals (s : State) (v : Vector Input 4) :
    (s.changeInputs v).cals = s.cals := by simp [State.changeInputs]
@[simp] theorem State.changeInputs_channels (s : State) (v : Vector Input 4) :
    (s.changeInputs v).channels = s.channels := by simp [State.changeInputs]
@[simp] theorem State.changeInputs_wck (s : State) (v : Vector Input 4) :
    (s.changeInputs v).wck = s.wck := by simp [State.changeInputs]
@[simp] theorem State.changeInputs_isi (s : State) (v : Vector Input 4) :
    (s.changeInputs v).isi = s.isi := by simp [State.changeInputs]
@[simp] theorem State.changeInputs_sys (s : State) (v : Vector Input 4) :
    (s.changeInputs v).sys = s.sys := by simp [State.changeInputs]
@[simp] theorem State.changeInputs_freeNext (s : State) (v : Vector Input 4) :
    (s.changeInputs v).freeNext = s.freeNext := by simp [State.changeInputs]
@[simp] theorem State.changeInputs_pending (s : State) (v : Vector Input 4) :
    (s.changeInputs v).pending = s.pending := by simp [State.changeInputs]

@[simp] theorem State.restartInputs_tbc (s : State) :
    (s.restartInputs).tbc = s.tbc := by simp [State.restartInputs]
@[simp] theorem State.restartInputs_cals (s : State) :
    (s.restartInputs).cals = s.cals := by simp [State.restartInputs]
@[simp] theorem State.restartInputs_channels (s : State) :
    (s.restartInputs).channels = s.channels := by simp [State.restartInputs]
@[simp] theorem State.restartInputs_wck (s : State) :
    (s.restartInputs).wck = s.wck := by simp [State.restartInputs]
@[simp] theorem State.restartInputs_isi (s : State) :
    (s.restartInputs).isi = s.isi := by simp [State.restartInputs]
@[simp] theorem State.restartInputs_sys (s : State) :
    (s.restartInputs).sys = s.sys := by simp [State.restartInputs]
@[simp] theorem State.restartInputs_freeNext (s : State) :
    (s.restartInputs).freeNext = s.freeNext := by simp [State.restartInputs]
@[simp] theorem State.restartInputs_pending (s : State) :
    (s.restartInputs).pending = s.pending := by simp [State.restartInputs]

@[simp] theorem State.raiseIf_tbc (s : State) (l : LineId) (c : Cond) (b : Bool) :
    (s.raiseIf l c b).tbc = s.tbc := by unfold State.raiseIf; split <;> simp
@[simp] theorem State.raiseIf_cxp (s : State) (l : LineId) (c : Cond) (b : Bool) :
    (s.raiseIf l c b).cxp = s.cxp := by unfold State.raiseIf; split <;> simp
@[simp] theorem State.raiseIf_cals (s : State) (l : LineId) (c : Cond) (b : Bool) :
    (s.raiseIf l c b).cals = s.cals := by unfold State.raiseIf; split <;> simp
@[simp] theorem State.raiseIf_channels (s : State) (l : LineId) (c : Cond) (b : Bool) :
    (s.raiseIf l c b).channels = s.channels := by unfold State.raiseIf; split <;> simp
@[simp] theorem State.raiseIf_wck (s : State) (l : LineId) (c : Cond) (b : Bool) :
    (s.raiseIf l c b).wck = s.wck := by unfold State.raiseIf; split <;> simp
@[simp] theorem State.raiseIf_ifu (s : State) (l : LineId) (c : Cond) (b : Bool) :
    (s.raiseIf l c b).ifu = s.ifu := by unfold State.raiseIf; split <;> simp
@[simp] theorem State.raiseIf_sys (s : State) (l : LineId) (c : Cond) (b : Bool) :
    (s.raiseIf l c b).sys = s.sys := by unfold State.raiseIf; split <;> simp
@[simp] theorem State.raiseIf_freeNext (s : State) (l : LineId) (c : Cond) (b : Bool) :
    (s.raiseIf l c b).freeNext = s.freeNext := by unfold State.raiseIf; split <;> simp
@[simp] theorem State.raiseIf_pending (s : State) (l : LineId) (c : Cond) (b : Bool) :
    (s.raiseIf l c b).pending = s.pending := by unfold State.raiseIf; split <;> simp

@[simp] theorem State.endScan_tbc (s : State) :
    (s.endScan).tbc = s.tbc := by simp [State.endScan]
@[simp] theorem State.endScan_cxp (s : State) :
    (s.endScan).cxp = s.cxp := by simp [State.endScan]
@[simp] theorem State.endScan_cals (s : State) :
    (s.endScan).cals = s.cals := by simp [State.endScan]
@[simp] theorem State.endScan_channels (s : State) :
    (s.endScan).channels = s.channels := by simp [State.endScan]
@[simp] theorem State.endScan_wck (s : State) :
    (s.endScan).wck = s.wck := by simp [State.endScan]
@[simp] theorem State.endScan_ifu (s : State) :
    (s.endScan).ifu = s.ifu := by simp [State.endScan]
@[simp] theorem State.endScan_sys (s : State) :
    (s.endScan).sys = s.sys := by simp [State.endScan]
@[simp] theorem State.endScan_freeNext (s : State) :
    (s.endScan).freeNext = s.freeNext := by simp [State.endScan]
@[simp] theorem State.endScan_pending (s : State) :
    (s.endScan).pending = s.pending := by simp [State.endScan]

@[simp] theorem State.turnFrom_tbc (s : State) (n : Nat) :
    (s.turnFrom n).tbc = s.tbc := by unfold State.turnFrom; split <;> simp
@[simp] theorem State.turnFrom_cxp (s : State) (n : Nat) :
    (s.turnFrom n).cxp = s.cxp := by unfold State.turnFrom; split <;> simp
@[simp] theorem State.turnFrom_cals (s : State) (n : Nat) :
    (s.turnFrom n).cals = s.cals := by unfold State.turnFrom; split <;> simp
@[simp] theorem State.turnFrom_channels (s : State) (n : Nat) :
    (s.turnFrom n).channels = s.channels := by unfold State.turnFrom; split <;> simp
@[simp] theorem State.turnFrom_wck (s : State) (n : Nat) :
    (s.turnFrom n).wck = s.wck := by unfold State.turnFrom; split <;> simp
@[simp] theorem State.turnFrom_ifu (s : State) (n : Nat) :
    (s.turnFrom n).ifu = s.ifu := by unfold State.turnFrom; split <;> simp
@[simp] theorem State.turnFrom_sys (s : State) (n : Nat) :
    (s.turnFrom n).sys = s.sys := by unfold State.turnFrom; split <;> simp
@[simp] theorem State.turnFrom_freeNext (s : State) (n : Nat) :
    (s.turnFrom n).freeNext = s.freeNext := by unfold State.turnFrom; split <;> simp
@[simp] theorem State.turnFrom_pending (s : State) (n : Nat) :
    (s.turnFrom n).pending = s.pending := by unfold State.turnFrom; split <;> simp

@[simp] theorem State.moveTurn_tbc (s : State) :
    (s.moveTurn).tbc = s.tbc := by unfold State.moveTurn; split <;> simp
@[simp] theorem State.moveTurn_cxp (s : State) :
    (s.moveTurn).cxp = s.cxp := by unfold State.moveTurn; split <;> simp
@[simp] theorem State.moveTurn_cals (s : State) :
    (s.moveTurn).cals = s.cals := by unfold State.moveTurn; split <;> simp
@[simp] theorem State.moveTurn_channels (s : State) :
    (s.moveTurn).channels = s.channels := by unfold State.moveTurn; split <;> simp
@[simp] theorem State.moveTurn_wck (s : State) :
    (s.moveTurn).wck = s.wck := by unfold State.moveTurn; split <;> simp
@[simp] theorem State.moveTurn_ifu (s : State) :
    (s.moveTurn).ifu = s.ifu := by unfold State.moveTurn; split <;> simp
@[simp] theorem State.moveTurn_sys (s : State) :
    (s.moveTurn).sys = s.sys := by unfold State.moveTurn; split <;> simp
@[simp] theorem State.moveTurn_freeNext (s : State) :
    (s.moveTurn).freeNext = s.freeNext := by unfold State.moveTurn; split <;> simp
@[simp] theorem State.moveTurn_pending (s : State) :
    (s.moveTurn).pending = s.pending := by unfold State.moveTurn; split <;> simp

@[simp] theorem State.suspendBound_tbc (s : State) (n : Nat) :
    (s.suspendBound n).tbc = s.tbc := by
  unfold State.suspendBound; repeat' split
  all_goals simp
@[simp] theorem State.suspendBound_cals (s : State) (n : Nat) :
    (s.suspendBound n).cals = s.cals := by
  unfold State.suspendBound; repeat' split
  all_goals simp
@[simp] theorem State.suspendBound_channels (s : State) (n : Nat) :
    (s.suspendBound n).channels = s.channels := by
  unfold State.suspendBound; repeat' split
  all_goals simp
@[simp] theorem State.suspendBound_atu (s : State) (n : Nat) :
    (s.suspendBound n).atu = s.atu := by
  unfold State.suspendBound; repeat' split
  all_goals simp
@[simp] theorem State.suspendBound_wck (s : State) (n : Nat) :
    (s.suspendBound n).wck = s.wck := by
  unfold State.suspendBound; repeat' split
  all_goals simp
@[simp] theorem State.suspendBound_bmu (s : State) (n : Nat) :
    (s.suspendBound n).bmu = s.bmu := by
  unfold State.suspendBound; repeat' split
  all_goals simp
@[simp] theorem State.suspendBound_ifu (s : State) (n : Nat) :
    (s.suspendBound n).ifu = s.ifu := by
  unfold State.suspendBound; repeat' split
  all_goals simp
@[simp] theorem State.suspendBound_isi (s : State) (n : Nat) :
    (s.suspendBound n).isi = s.isi := by
  unfold State.suspendBound; repeat' split
  all_goals simp
@[simp] theorem State.suspendBound_sys (s : State) (n : Nat) :
    (s.suspendBound n).sys = s.sys := by
  unfold State.suspendBound; repeat' split
  all_goals simp
@[simp] theorem State.suspendBound_freeNext (s : State) (n : Nat) :
    (s.suspendBound n).freeNext = s.freeNext := by
  unfold State.suspendBound; repeat' split
  all_goals simp
@[simp] theorem State.suspendBound_pending (s : State) (n : Nat) :
    (s.suspendBound n).pending = s.pending := by
  unfold State.suspendBound; repeat' split
  all_goals simp

@[simp] theorem State.callFailed_tbc (s : State) (n : Nat) (e : FrameError) :
    (s.callFailed n e).tbc = s.tbc := by unfold State.callFailed; simp only; split <;> simp
@[simp] theorem State.callFailed_cals (s : State) (n : Nat) (e : FrameError) :
    (s.callFailed n e).cals = s.cals := by unfold State.callFailed; simp only; split <;> simp
@[simp] theorem State.callFailed_channels (s : State) (n : Nat) (e : FrameError) :
    (s.callFailed n e).channels = s.channels := by unfold State.callFailed; simp only; split <;> simp
@[simp] theorem State.callFailed_atu (s : State) (n : Nat) (e : FrameError) :
    (s.callFailed n e).atu = s.atu := by unfold State.callFailed; simp only; split <;> simp
@[simp] theorem State.callFailed_wck (s : State) (n : Nat) (e : FrameError) :
    (s.callFailed n e).wck = s.wck := by unfold State.callFailed; simp only; split <;> simp
@[simp] theorem State.callFailed_ifu (s : State) (n : Nat) (e : FrameError) :
    (s.callFailed n e).ifu = s.ifu := by unfold State.callFailed; simp only; split <;> simp
@[simp] theorem State.callFailed_isi (s : State) (n : Nat) (e : FrameError) :
    (s.callFailed n e).isi = s.isi := by unfold State.callFailed; simp only; split <;> simp
@[simp] theorem State.callFailed_sys (s : State) (n : Nat) (e : FrameError) :
    (s.callFailed n e).sys = s.sys := by unfold State.callFailed; simp only; split <;> simp
@[simp] theorem State.callFailed_freeNext (s : State) (n : Nat) (e : FrameError) :
    (s.callFailed n e).freeNext = s.freeNext := by unfold State.callFailed; simp only; split <;> simp
@[simp] theorem State.callFailed_pending (s : State) (n : Nat) (e : FrameError) :
    (s.callFailed n e).pending = s.pending := by unfold State.callFailed; simp only; split <;> simp

@[simp] theorem State.attemptFailed_tbc (s : State) (t : Turn) (e : FrameError) :
    (s.attemptFailed t e).tbc = s.tbc := by unfold State.attemptFailed; split <;> simp
@[simp] theorem State.attemptFailed_cals (s : State) (t : Turn) (e : FrameError) :
    (s.attemptFailed t e).cals = s.cals := by unfold State.attemptFailed; split <;> simp
@[simp] theorem State.attemptFailed_channels (s : State) (t : Turn) (e : FrameError) :
    (s.attemptFailed t e).channels = s.channels := by unfold State.attemptFailed; split <;> simp
@[simp] theorem State.attemptFailed_wck (s : State) (t : Turn) (e : FrameError) :
    (s.attemptFailed t e).wck = s.wck := by unfold State.attemptFailed; split <;> simp
@[simp] theorem State.attemptFailed_ifu (s : State) (t : Turn) (e : FrameError) :
    (s.attemptFailed t e).ifu = s.ifu := by unfold State.attemptFailed; split <;> simp
@[simp] theorem State.attemptFailed_sys (s : State) (t : Turn) (e : FrameError) :
    (s.attemptFailed t e).sys = s.sys := by unfold State.attemptFailed; split <;> simp
@[simp] theorem State.attemptFailed_freeNext (s : State) (t : Turn) (e : FrameError) :
    (s.attemptFailed t e).freeNext = s.freeNext := by unfold State.attemptFailed; split <;> simp
@[simp] theorem State.attemptFailed_pending (s : State) (t : Turn) (e : FrameError) :
    (s.attemptFailed t e).pending = s.pending := by unfold State.attemptFailed; split <;> simp

@[simp] theorem State.windowFailed_tbc (s : State) (e : FrameError) :
    (s.windowFailed e).tbc = s.tbc := by unfold State.windowFailed; split <;> simp
@[simp] theorem State.windowFailed_cals (s : State) (e : FrameError) :
    (s.windowFailed e).cals = s.cals := by unfold State.windowFailed; split <;> simp
@[simp] theorem State.windowFailed_channels (s : State) (e : FrameError) :
    (s.windowFailed e).channels = s.channels := by unfold State.windowFailed; split <;> simp
@[simp] theorem State.windowFailed_wck (s : State) (e : FrameError) :
    (s.windowFailed e).wck = s.wck := by unfold State.windowFailed; split <;> simp
@[simp] theorem State.windowFailed_ifu (s : State) (e : FrameError) :
    (s.windowFailed e).ifu = s.ifu := by unfold State.windowFailed; split <;> simp
@[simp] theorem State.windowFailed_sys (s : State) (e : FrameError) :
    (s.windowFailed e).sys = s.sys := by unfold State.windowFailed; split <;> simp
@[simp] theorem State.windowFailed_freeNext (s : State) (e : FrameError) :
    (s.windowFailed e).freeNext = s.freeNext := by unfold State.windowFailed; split <;> simp
@[simp] theorem State.windowFailed_pending (s : State) (e : FrameError) :
    (s.windowFailed e).pending = s.pending := by unfold State.windowFailed; split <;> simp

@[simp] theorem State.restartCore_cals (s : State) :
    (s.restartCore).cals = s.cals := by simp [State.restartCore]
@[simp] theorem State.restartCore_channels (s : State) :
    (s.restartCore).channels = s.channels := by simp [State.restartCore]
@[simp] theorem State.restartCore_wck (s : State) :
    (s.restartCore).wck = s.wck := by simp [State.restartCore]
@[simp] theorem State.restartCore_ifu (s : State) :
    (s.restartCore).ifu = s.ifu := by simp [State.restartCore]
@[simp] theorem State.restartCore_sys (s : State) :
    (s.restartCore).sys = s.sys := by simp [State.restartCore]
@[simp] theorem State.restartCore_freeNext (s : State) :
    (s.restartCore).freeNext = s.freeNext := by simp [State.restartCore]
@[simp] theorem State.restartCore_pending (s : State) :
    (s.restartCore).pending = s.pending := by simp [State.restartCore]

@[simp] theorem State.cabinetRestart_cals (s : State) :
    (s.cabinetRestart).cals = s.cals := by simp [State.cabinetRestart]
@[simp] theorem State.cabinetRestart_channels (s : State) :
    (s.cabinetRestart).channels = s.channels := by simp [State.cabinetRestart]
@[simp] theorem State.cabinetRestart_wck (s : State) :
    (s.cabinetRestart).wck = s.wck := by simp [State.cabinetRestart]
@[simp] theorem State.cabinetRestart_sys (s : State) :
    (s.cabinetRestart).sys = s.sys := by simp [State.cabinetRestart]
@[simp] theorem State.cabinetRestart_freeNext (s : State) :
    (s.cabinetRestart).freeNext = s.freeNext := by simp [State.cabinetRestart]
@[simp] theorem State.cabinetRestart_pending (s : State) :
    (s.cabinetRestart).pending = s.pending := by simp [State.cabinetRestart]

@[simp] theorem State.takeItem_tbc (s : State) :
    (s.takeItem).tbc = s.tbc := by unfold State.takeItem; split <;> rfl
@[simp] theorem State.takeItem_cxp (s : State) :
    (s.takeItem).cxp = s.cxp := by unfold State.takeItem; split <;> rfl
@[simp] theorem State.takeItem_cals (s : State) :
    (s.takeItem).cals = s.cals := by unfold State.takeItem; split <;> rfl
@[simp] theorem State.takeItem_channels (s : State) :
    (s.takeItem).channels = s.channels := by unfold State.takeItem; split <;> rfl
@[simp] theorem State.takeItem_atu (s : State) :
    (s.takeItem).atu = s.atu := by unfold State.takeItem; split <;> rfl
@[simp] theorem State.takeItem_wck (s : State) :
    (s.takeItem).wck = s.wck := by unfold State.takeItem; split <;> rfl
@[simp] theorem State.takeItem_bmu (s : State) :
    (s.takeItem).bmu = s.bmu := by unfold State.takeItem; split <;> rfl
@[simp] theorem State.takeItem_ifu (s : State) :
    (s.takeItem).ifu = s.ifu := by unfold State.takeItem; split <;> rfl
@[simp] theorem State.takeItem_sys (s : State) :
    (s.takeItem).sys = s.sys := by unfold State.takeItem; split <;> rfl
@[simp] theorem State.takeItem_freeNext (s : State) :
    (s.takeItem).freeNext = s.freeNext := by unfold State.takeItem; split <;> rfl
@[simp] theorem State.takeItem_pending (s : State) :
    (s.takeItem).pending = s.pending := by unfold State.takeItem; split <;> rfl

@[simp] theorem State.unmarkWrite_cxp (s : State) (subj : Subject) :
    (s.unmarkWrite subj).cxp = s.cxp := by unfold State.unmarkWrite; split <;> simp
@[simp] theorem State.unmarkWrite_cals (s : State) (subj : Subject) :
    (s.unmarkWrite subj).cals = s.cals := by unfold State.unmarkWrite; split <;> simp
@[simp] theorem State.unmarkWrite_channels (s : State) (subj : Subject) :
    (s.unmarkWrite subj).channels = s.channels := by unfold State.unmarkWrite; split <;> simp
@[simp] theorem State.unmarkWrite_wck (s : State) (subj : Subject) :
    (s.unmarkWrite subj).wck = s.wck := by unfold State.unmarkWrite; split <;> simp
@[simp] theorem State.unmarkWrite_ifu (s : State) (subj : Subject) :
    (s.unmarkWrite subj).ifu = s.ifu := by unfold State.unmarkWrite; split <;> simp
@[simp] theorem State.unmarkWrite_sys (s : State) (subj : Subject) :
    (s.unmarkWrite subj).sys = s.sys := by unfold State.unmarkWrite; split <;> simp
@[simp] theorem State.unmarkWrite_freeNext (s : State) (subj : Subject) :
    (s.unmarkWrite subj).freeNext = s.freeNext := by unfold State.unmarkWrite; split <;> simp
@[simp] theorem State.unmarkWrite_pending (s : State) (subj : Subject) :
    (s.unmarkWrite subj).pending = s.pending := by unfold State.unmarkWrite; split <;> simp

@[simp] theorem State.markWrite_cxp (s : State) (subj : Subject) :
    (s.markWrite subj).cxp = s.cxp := by unfold State.markWrite; split <;> simp
@[simp] theorem State.markWrite_cals (s : State) (subj : Subject) :
    (s.markWrite subj).cals = s.cals := by unfold State.markWrite; split <;> simp
@[simp] theorem State.markWrite_channels (s : State) (subj : Subject) :
    (s.markWrite subj).channels = s.channels := by unfold State.markWrite; split <;> simp
@[simp] theorem State.markWrite_wck (s : State) (subj : Subject) :
    (s.markWrite subj).wck = s.wck := by unfold State.markWrite; split <;> simp
@[simp] theorem State.markWrite_ifu (s : State) (subj : Subject) :
    (s.markWrite subj).ifu = s.ifu := by unfold State.markWrite; split <;> simp
@[simp] theorem State.markWrite_sys (s : State) (subj : Subject) :
    (s.markWrite subj).sys = s.sys := by unfold State.markWrite; split <;> simp
@[simp] theorem State.markWrite_freeNext (s : State) (subj : Subject) :
    (s.markWrite subj).freeNext = s.freeNext := by unfold State.markWrite; split <;> simp
@[simp] theorem State.markWrite_pending (s : State) (subj : Subject) :
    (s.markWrite subj).pending = s.pending := by unfold State.markWrite; split <;> simp

@[simp] theorem State.itemWritten_cxp (s : State) (i : Item) :
    (s.itemWritten i).cxp = s.cxp := by unfold State.itemWritten; rw [foldl_same State.cxp _ (fun t x => by simp)]
@[simp] theorem State.itemWritten_cals (s : State) (i : Item) :
    (s.itemWritten i).cals = s.cals := by unfold State.itemWritten; rw [foldl_same State.cals _ (fun t x => by simp)]
@[simp] theorem State.itemWritten_channels (s : State) (i : Item) :
    (s.itemWritten i).channels = s.channels := by unfold State.itemWritten; rw [foldl_same State.channels _ (fun t x => by simp)]
@[simp] theorem State.itemWritten_wck (s : State) (i : Item) :
    (s.itemWritten i).wck = s.wck := by unfold State.itemWritten; rw [foldl_same State.wck _ (fun t x => by simp)]
@[simp] theorem State.itemWritten_ifu (s : State) (i : Item) :
    (s.itemWritten i).ifu = s.ifu := by unfold State.itemWritten; rw [foldl_same State.ifu _ (fun t x => by simp)]
@[simp] theorem State.itemWritten_sys (s : State) (i : Item) :
    (s.itemWritten i).sys = s.sys := by unfold State.itemWritten; rw [foldl_same State.sys _ (fun t x => by simp)]
@[simp] theorem State.itemWritten_freeNext (s : State) (i : Item) :
    (s.itemWritten i).freeNext = s.freeNext := by unfold State.itemWritten; rw [foldl_same State.freeNext _ (fun t x => by simp)]
@[simp] theorem State.itemWritten_pending (s : State) (i : Item) :
    (s.itemWritten i).pending = s.pending := by unfold State.itemWritten; rw [foldl_same State.pending _ (fun t x => by simp)]

/-! ## Slots and the write queue (R1, R173) -/

@[simp] theorem State.slotAt_putSlot_same (s : State) (n : Nat) (x : Slot) : (s.putSlot n x).slotAt n = x := by
  by_cases h : x = Slot.fresh <;> simp [State.slotAt, State.putSlot, h]

theorem State.slotAt_putSlot_ne (s : State) (n m : Nat) (x : Slot) (h : m ≠ n) :
    (s.putSlot n x).slotAt m = s.slotAt m := by
  simp [State.slotAt, State.putSlot, Table.get?_set_ne _ _ _ _ h]

/-- What stands in a slot depends on the Anchor Table alone. -/
theorem State.slotAt_congr {s t : State} (h : t.tbc.slots = s.tbc.slots) (n : Nat) : t.slotAt n = s.slotAt n := by
  simp [State.slotAt, h]

theorem State.recAt_eq (s : State) (n : Nat) : s.recAt n = (s.slotAt n).rec? := rfl
theorem State.revAt_eq (s : State) (n : Nat) : s.revAt n = (s.slotAt n).rev := rfl

@[simp] theorem State.slotAt_hand (s : State) (i : Item) (n : Nat) : (s.hand i).slotAt n = s.slotAt n := by
  simp [State.slotAt]
@[simp] theorem State.recAt_hand (s : State) (i : Item) (n : Nat) : (s.hand i).recAt n = s.recAt n := by
  simp [State.recAt]
@[simp] theorem State.revAt_hand (s : State) (i : Item) (n : Nat) : (s.hand i).revAt n = s.revAt n := by
  simp [State.revAt]

/-- Handing an item changes the queue alone: it joins the tail unless it is queued (R173). -/
theorem State.hand_isi (s : State) (i : Item) :
    (s.hand i).isi = { s.isi with queue := if i ∈ s.isi.queue then s.isi.queue else s.isi.queue ++ [i] } := by
  unfold State.hand; split <;> rfl

/-- Handing an item keeps the queue without repeats (R173). -/
theorem State.hand_nodup {s : State} (h : s.isi.queue.Nodup) (i : Item) : (s.hand i).isi.queue.Nodup := by
  rw [State.hand_isi]
  by_cases hi : i ∈ s.isi.queue
  · simpa [hi] using h
  · simp only [hi, if_false]
    exact List.nodup_append.2 ⟨h, by simp, by rintro a ha b hb rfl; simp at hb; exact hi (hb ▸ ha)⟩

/-! ## The record update (R5) -/

/-- An update of a FREE slot changes nothing. -/
theorem State.update_none {s : State} {n : Nat} (h : s.recAt n = none) (st : Nat) (f : Record → Record) :
    s.update n st f = s := by simp [State.update, h]

/-- An update that changes no field changes nothing (R5). -/
theorem State.update_same {s : State} {n : Nat} {r : Record} (h : s.recAt n = some r) (st : Nat) {f : Record → Record}
    (hf : f r = r) : s.update n st f = s := by simp [State.update, h, hf]

/-- An update that changes a field steps the slot and hands it (R5). -/
theorem State.update_some {s : State} {n : Nat} {r : Record} (h : s.recAt n = some r) (st : Nat) {f : Record → Record}
    (hf : f r ≠ r) :
    s.update n st f = (s.putSlot n {
      rev := (s.revAt n + 1) % Config.revisionModulus
      rec? := some { f r with stamp := { time := s.wck.time, station := st } } }).hand (.slot n) := by
  simp [State.update, h, hf]

/-- No update reaches another slot. -/
theorem State.update_slotAt_ne (s : State) (n m st : Nat) (f : Record → Record) (h : m ≠ n) :
    (s.update n st f).slotAt m = s.slotAt m := by
  unfold State.update
  split
  · rfl
  · split
    · rfl
    · simp [State.slotAt_putSlot_ne _ _ _ _ h]

/-- An update keeps everything the TBC holds but the Anchor Table. -/
theorem State.update_tbc_rest (s : State) (n st : Nat) (f : Record → Record) :
    (s.update n st f).tbc = { s.tbc with slots := (s.update n st f).tbc.slots } := by
  unfold State.update
  split
  · rfl
  · split
    · rfl
    · simp [State.putSlot]

/-- An update keeps everything the ISI holds but the queue. -/
theorem State.update_isi_rest (s : State) (n st : Nat) (f : Record → Record) :
    (s.update n st f).isi = { s.isi with queue := (s.update n st f).isi.queue } := by
  unfold State.update
  split
  · rfl
  · split
    · rfl
    · simp [State.hand_isi]

/-! ## Requests (R7, R168, R169) -/

/-- A request answers a next state whatever it asks. -/
theorem State.take_next (s : State) (h : Ask) (code : Nat) (v : Ruling) : ∃ t, s.take h code v = .next t := by
  unfold State.take; split <;> exact ⟨_, rfl⟩

/-- An ASK that is taken is answered with its ruling. -/
theorem State.take_taken {s : State} {h : Ask} (ht : s.takesAsk h = true) (code : Nat) (v : Ruling) :
    s.take h code v = .next (v.st.answer h { req := code, result := v.result, body := v.body } v.after) := by
  simp [State.take, ht]

/-- An ASK that is not taken runs no request: it only misses the window it came in, if one is open. -/
theorem State.take_missed {s : State} {h : Ask} (ht : s.takesAsk h = false) (code : Nat) (v : Ruling) :
    s.take h code v = .next (s.missAsk h) := by
  simp [State.take, ht]

/-- A request with authority and in range meets its own checks. -/
theorem State.screen_pass {s : State} {h : Ask} {q : Req} {b : Bool} (hp : s.permits h.station q = true)
    (hb : b = true) (v : Ruling) : s.screen h q b v = v := by
  simp [State.screen, hp, hb]

/-- A request that names a record it has, at the record's revision, meets its own checks. -/
theorem State.named_some {s : State} {n : Nat} {r : Record} (h : s.recAt n = some r) (own : Record → Ruling) :
    s.named n (some (s.revAt n)) own = own r := by
  simp [State.named, h]

/-! ## Contexts and stations -/

@[simp] theorem State.ctxAt_putCtx_same (s : State) (c : Nat) (x : Context) : (s.putCtx c x).ctxAt c = some x := by
  simp [State.ctxAt]

theorem State.ctxAt_putCtx_ne (s : State) (c d : Nat) (x : Context) (h : d ≠ c) :
    (s.putCtx c x).ctxAt d = s.ctxAt d := by
  simp [State.ctxAt, Table.get?_put_ne _ _ _ _ h]

theorem State.ctxAt_eachCtx (s : State) (f : Context → Context) (c : Nat) :
    (s.eachCtx f).ctxAt c = (s.ctxAt c).map f := by
  simp [State.ctxAt, State.eachCtx, Table.get?_mapValues]

@[simp] theorem State.ctxAt_freeCtx_same (s : State) (c : Nat) (x : Context) (p : Parting) :
    (s.freeCtx c x p).ctxAt c = none := by
  simp [State.ctxAt, State.freeCtx]

theorem State.ctxAt_freeCtx_ne (s : State) (c d : Nat) (x : Context) (p : Parting) (h : d ≠ c) :
    (s.freeCtx c x p).ctxAt d = s.ctxAt d := by
  simp [State.ctxAt, State.freeCtx, Table.get?_erase_ne _ _ _ h]

theorem State.stationAt_putStation_same (s : State) (n : Nat) (x : Station) (h : n < 16) :
    (s.putStation n x).stationAt n = x := by
  simp [State.stationAt, State.putStation, h]

theorem State.stationAt_putStation_ne (s : State) (n m : Nat) (x : Station) (h : m ≠ n) :
    (s.putStation n x).stationAt m = s.stationAt m := by
  simp [State.stationAt, State.putStation, Vector.getElem?_setIfInBounds_ne (Ne.symm h)]

/-! ## The attention list (R135, R136) -/

theorem insertEntry_length (e : Entry) (l : List Entry) : (insertEntry e l).length = l.length + 1 := by
  induction l with
  | nil => rfl
  | cons x l ih => unfold insertEntry; split <;> simp [ih]

theorem mem_insertEntry {e x : Entry} {l : List Entry} : x ∈ insertEntry e l ↔ x = e ∨ x ∈ l := by
  induction l with
  | nil => simp [insertEntry]
  | cons y l ih =>
    unfold insertEntry
    split
    · simp
    · simp only [List.mem_cons, ih]; tauto

/-- ALM stands exactly while an entry is at or above the threshold (R141). -/
theorem Atu.sound_alm (a : Atu) (alarm : Nat) : (a.sound alarm).alm = true ↔ ∃ e ∈ a.entries, alarm ≤ e.level := by
  simp [Atu.sound]

end Sys2Proof.Machine
end

