-- ==== Sys2Proof/Tests/Slice0.lean ====
section
/-! SUPPORT. Tests on fixed values: figures and sequences worked in the spec, one ill-formed command for each check of
WellFormed, and a witness for every statement of Obligations.lean that has hypotheses. -/

namespace Sys2Proof.Machine.Tests

-- One declaration after another: tests that wait for one another at once take a thread each.
set_option Elab.async false

/-! ## States to test on -/

/-- An ASK of the supervisor on Line A. -/
def sup : Ask := { station := 0, line := .a, further := false }

/-- An ASK of station 1. -/
def rig : Ask := { station := 1, line := .a, further := false }

/-- A class with the figures of the worked case of section 5.9, and those of sections 4.7 and 4.8 for the rest. -/
def class0 : ClassEntry where
  dwl := 4800
  datum := 10
  stages := [50, 100]
  test := 150
  lockoff := 110
  lockWindow := 50
  tolerance := 20
  stageHold := 60
  tA0 := 60
  tA1 := 600
  limitA := 100
  tB0 := 360
  tB1 := 3600
  limitB := 200
  strands := 4
  area := 140
  modulus := 195000
  freeLen := 11000
  bondLen := 8000
  jacking := 1500
  lower := 90
  upper := 50
  drawIn := 600
  insTol := 200
  maxPull := 400
  theoVol := 18000
  volCap := 300
  refPress := 1500
  refTime := 120
  burst := 4000
  cure := 604800
  destStep := 25
  destHold := 60

/-- The calibration table of section 5.9. -/
def cal0 : List CalPoint :=
  [{ pressure := 5000, load := 505 }, { pressure := 20000, load := 2030 }, { pressure := 40000, load := 4070 },
    { pressure := 60000, load := 6120 }, { pressure := 80000, load := 8180 }]

/-- The two parts of a CLASS_WRITE of that class. -/
def part1 : ClassPart1 where
  dwl := 4800
  datum := 10
  stages := some [50, 100]
  test := 150
  lockoff := 110
  lockWindow := 50
  tolerance := 20
  stageHold := 60
  tA0 := none
  tA1 := none
  limitA := none
  tB0 := none
  tB1 := none
  limitB := none

def part2 : ClassPart2 where
  strands := 4
  area := 140
  modulus := 195000
  freeLen := 11000
  bondLen := 8000
  jacking := 1500
  lower := none
  upper := none
  drawIn := 600
  insTol := 200
  maxPull := 400
  theoVol := 18000
  volCap := 300
  refPress := 1500
  refTime := 120
  burst := 4000
  cure := 604800
  destStep := 25
  destHold := 60

/-- A record of the last position in a state, with nothing else. -/
def rec0 (st : RecState) : Record := { newRecord 12 400 0 0 none none none { time := 0, station := 0 } with state := st }

/-- A part that is up, with an empty write queue, the class and the calibration table of station 1. -/
def idle : State :=
  { State.reset with
    tbc := { State.reset.tbc with classes := [(0, class0)] }
    cals := [(1, cal0)]
    isi := { State.reset.isi with queue := [] } }

/-- The same with one record in the last slot, at revision 65535, live unless it is RETIRED. -/
def holding (r : Record) : State :=
  { idle with tbc := { idle.tbc with
      slots := [(511, { rev := 65535, rec? := some r })]
      map := if r.state = .retired then [] else [(posKey r.row r.bay, 511)] } }

/-- A PRESENT station of a kind with a latest telemetry. -/
def rigOf (kind : StationKind) (param : Option Nat) (tel : Telemetry) : Station :=
  { Station.powered kind 1 { a := false, b := false } param with state := .present, telemetry := some tel }

/-- Telemetry for each kind. -/
def winchAt (count : Nat) : Telemetry := .winch count 0
def jackAt (pressure stroke : Nat) : Telemetry := .jack pressure stroke false false false false

/-- A station ready for a kind of context. -/
def stationFor : CtxKind → Station
  | .insert => rigOf .winch (some 25) (winchAt 61000)
  | .grout => rigOf .grout (some 250) (.grout 65500 0)
  | _ => rigOf .jack none (jackAt 0 150)

/-- The state of a record that a kind of context needs (Table 3-2). -/
def neededBy (k : CtxKind) : Record :=
  { rec0 k.neededState with lockoffLoad := if k = .destress then some 5272 else none }

/-- A context of station 1 on slot 511. -/
def ctx0 (run : RunState) (prog : Progress) : Context where
  slot := 511
  station := 1
  run := run
  suspend := 0
  limitDue := false
  prog := prog

/-- A part with that context bound. -/
def working (run : RunState) (prog : Progress) : State :=
  let s := (holding { neededBy prog.kind with state := prog.kind.workState, context := some 0 }).putStation 1
    { stationFor prog.kind with ctx := some 0 }
  { s with
    cxp := { contexts := [(0, ctx0 run prog)], parting := [] }
    tbc := { s.tbc with site := { s.tbc.site with relieved := s.tbc.site.relieved.set 11 true } } }

/-- Progress of each kind. -/
def ins0 : InsertProg := { baseline := 64000, total := 3000, scale := 25, carried := 0, order := .run }
def gro0 : GroutProg :=
  { baseline := 41, total := 77, scale := 250, carried := 0, peak := 1510, refTimer := 0, counting := false, due := false }
def str0 : JackProg := JackProg.start .datum (.pressure 4752) 150
def des0 : JackProg := JackProg.start .liftoff .lift 150

/-- The outcome's next state, for a test to look at. -/
def after (o : Host.Outcome State Fault Refusal) : State :=
  match o with
  | .next s => s
  | _ => State.reset

/-- The result an ANSWER under way carries. -/
def resultOf (s : State) : Option Result :=
  match s.bmu.exchange with
  | .answer _ a _ => some a.result
  | _ => none

/-! ## Figures worked in the spec -/

/-- R71, R73, R74: the delta through the wrap, a setback, and the two payouts. -/
theorem test_counts : counterDelta 12 65530 = 18 ∧ counterDelta 480 500 = 65516 ∧ isSetback 65516 = true ∧
    payout { ins0 with total := 8190 } = 20475 ∧ payout { ins0 with total := 3, scale := 7 } = 2 := by decide +kernel

/-- Section 5.9: targets, limits, pressures and a reading. -/
theorem test_targets : datumTarget class0 = 480 ∧ stageTarget class0 1 = 2400 ∧ stageTarget class0 2 = 4800 ∧
    testLoad class0 = 7200 ∧ residualTarget class0 = 5280 ∧ band class0 = 96 ∧ overloadLimit class0 = 7560 := by decide +kernel

theorem test_pressures : (pressureOf cal0 480).1 = 4752 ∧ (pressureOf cal0 2400).1 = 23627 ∧
    (pressureOf cal0 4800).1 = 47122 ∧ (pressureOf cal0 7200).1 = 70485 ∧ (pressureOf cal0 5876).1 = 57620 ∧
    loadOf cal0 70650 = (7217, false) ∧ loadOf cal0 80001 = (8180, true) ∧ loadOf cal0 4700 = (475, false) := by decide +kernel

/-- Section 5.9: length, lock-off and the destress steps of Table 5-3. -/
theorem test_lengths : apparentLength class0 { ext := 6968, load := 7196 } { ext := 199, load := 482 } = 11009 ∧
    lengthPasses class0 (rec0 .stressing) 11009 = true ∧ jackLockoff class0 (rec0 .stressing) = 5876 ∧
    residualLoad class0 5879 (drawIn 7812 7200) 11009 = 5272 ∧ lockWindow class0 = 264 ∧
    lockoffPasses class0 5272 = true ∧ searchLimit 5272 = 6326 := by decide +kernel

theorem test_steps : stepTargets 5300 10 = [4770, 4240, 3710, 3180, 2650, 2120, 1590, 1060, 530] ∧
    stepTargets 5300 25 = [3975, 2650, 1325] ∧ stepTargets 5300 30 = [3710, 2120, 530] ∧
    stepTargets 5300 50 = [2650] := by decide +kernel

/-- R132: the drift limit 527 is not drift, 528 is, in both directions. -/
theorem test_drift : (drifts SiteSettings.default { rec0 .locked with lockoffLoad := some 5272 } 5799,
    drifts SiteSettings.default { rec0 .locked with lockoffLoad := some 5272 } 5800,
    drifts SiteSettings.default { rec0 .locked with lockoffLoad := some 5272 } 4744) = (false, true, true) := by decide +kernel

/-- R160: the CRC with these parameters over the digits 1 to 9 is 29B1h, the published check value of CRC-16 with this
polynomial, start and no reflection. -/
theorem test_crc : crcBytes [49, 50, 51, 52, 53, 54, 55, 56, 57] = [0x29, 0xB1] := by decide +kernel

/-- Section 4.7: the second reply of the winch wraps, holds and raises OVERPULL; END at 7,900 pulses is short. -/
theorem test_winch : let s := after (exec (.replyReceived 1 .a
      { srq := false, busy := false, fault := false, data := .winch 1464 412 }) (working .running (.insert ins0)))
    (s.ctxAt 0).map Context.prog = some (.insert { ins0 with baseline := 1464, total := 6000, order := .hold }) ∧
      (s.recAt 511).map Record.conds = some [.overpull] := by decide +kernel

theorem test_winch_end : let s := after (exec (.endWork rig) (working .running (.insert { ins0 with total := 7900 })))
    (s.recAt 511).map (fun r => (r.state, r.heldReason, r.insertion, r.conds)) =
      some (.held, some .insertLength, some 19750, [.insertLength]) := by decide +kernel

/-- Section 4.8: a setback leaves the total; the refusal completes into CURING. -/
theorem test_pump : let s := after (exec (.replyReceived 1 .a
      { srq := false, busy := false, fault := false, data := .grout 30 1490 }) (working .running (.grout gro0)))
    (s.ctxAt 0).map Context.prog = some (.grout { gro0 with baseline := 30 }) ∧
      (s.recAt 511).map Record.conds = some [.countSetback] := by decide +kernel

theorem test_refusal : let s := after (exec (.refusalCompletion 0) { working .running (.grout { gro0 with
      counting := true, due := true, refTimer := 120, peak := 1540 }) with wck := { time := 1000000, clock := .running, scale := 1 } })
    (s.recAt 511).map (fun r => (r.state, r.grout, r.cureEnd)) = some (.curing,
      some (GroutResult.mk 19250 1540 (some .refusal) (some 1000000)), some 1604800) := by decide +kernel

/-- R62, R82: a refusal time reached in STOPPED stays after RELEASE until a used reply; one reached in RUNNING is due. -/
theorem test_refusal_waits : let p := { gro0 with counting := true, refTimer := 119 }
    let s := after (exec .realSecond (working .stopped (.grout p)))
    after (exec (.refusalCompletion 0) (after (exec (.release sup) s))) = after (exec (.release sup) s) ∧
      ((after (exec .realSecond (working .running (.grout p)))).ctxAt 0).map Context.prog =
        some (.grout { p with refTimer := 120, due := true }) := by decide +kernel

/-- Section 6.11: the datum hold starts at 4,700 kPa, and its expiry orders stage 1. -/
theorem test_datum_hold : let s := after (exec (.replyReceived 1 .a
      { srq := false, busy := false, fault := false, data := jackAt 4700 2150 }) (working .running (.stress str0)))
    (s.ctxAt 0).map (fun x => match x.prog with
      | .stress p => (p.phase, p.holding, p.timer)
      | _ => (.datum, false, none)) = some (.datum, true, some 60) := by decide +kernel

theorem test_datum_end : let s := after (exec (.phaseTimerExpiry 0) (working .running (.stress { str0 with
      holding := true, timer := some 0, last := some { pressure := 0, load := 484, stroke := 2170, ext := 2020 } })))
    (s.ctxAt 0).map (fun x => match x.prog with
      | .stress p => (p.phase, p.index, p.order, p.origin)
      | _ => (.datum, 0, .hold, 0)) = some (.stage, 1, .pressure 23627, 2170) := by decide +kernel

/-- R1, R15: the first CREATE takes slot 0 at revision 0, and the same position again is OCCUPIED. -/
theorem test_create : let s := after (exec (.create sup 12 400 0 none none) idle)
    s.revAt 0 = 0 ∧ s.liveAt 12 400 = some 0 ∧ s.isi.queue = [.slot 0] ∧ resultOf s = some .done := by decide +kernel

theorem test_create_occupied : resultOf (after (exec (.create sup 12 400 0 none none) (holding (rec0 .locked)))) =
    some .occupied := by decide +kernel

/-- R37 and Table 3-3: a STRESS of a READY record binds context 0, and the record is STRESSING at revision 0. -/
theorem test_start : let s := after (exec (.start sup 3 511 1 65535) ((holding (neededBy .stress)).putStation 1
      (stationFor .stress)))
    resultOf s = some .done ∧ s.revAt 511 = 0 ∧ (s.recAt 511).map Record.state = some .stressing ∧
      s.orderFor 1 = .pressure 4752 := by decide +kernel

/-- R144, R146: the second sample of an open stop loop stops the site, and ALLSTOP is owed on both lines. -/
theorem test_stop : let s := after (exec (.filterSample 0) { idle with ifu := { idle.ifu with
      inputs := idle.ifu.inputs.set 0 { pin := .opened, accepted := .closed, pendingChange := true } } })
    s.ifu.stop = some { input := 0, time := 0 } ∧ s.atu.alm = true ∧ s.bmu.lineA.allstopDue = true := by decide +kernel

/-- R158: the last copy of a test completes it and the line is QUIET. -/
theorem test_line_test : let s := after (exec (.testPatternCopy .b []) { idle with bmu := { idle.bmu with
      lineB := { idle.bmu.lineB with
        state := .testing, test := some (LineTest.mk 255 254 255 .sending (Vector.replicate 16 0)) } } })
    s.bmu.lineB.state = .quiet ∧ s.bmu.lineB.test.map (fun t => (t.sent, t.mismatches, t.phase)) =
      some (255, 255, .completed) := by decide +kernel

/-- R172, R178: an empty-marked block and a record block, but for the check, are read back as written. -/
theorem test_empty_block : takePassed (emptyBlock 65535) = .free 65535 := by decide +kernel

theorem test_record_block : takePassed (recordBlock 7 (rec0 .planned) true) = .sound 7 (rec0 .planned) true := by
  decide +kernel

/-- R160, Table 11-5: a SUPERVISOR reply has three bytes, no fewer. -/
theorem test_short_reply : (match readReply .supervisor 0 [2, 0] with
      | .error e => some e
      | .ok _ => none) = some .check ∧
    (readReply .supervisor 0 [2, 0, 0]).toOption = some (Reply.mk false false false .supervisor) := by decide +kernel

/-- R182, R183: a LINE_WRITE whose mask names a state and TEST has to bring both; a CLASS_WRITE of part 3 echoes it. -/
theorem test_ask_defects : readAsk 0 .a [36, 0, 1, 0, 0, 0, 9] = .unknownRequest sup 36 (.misfit none) ∧
    readAsk 0 .a [17, 0, 3, 0] = .unknownRequest sup 17 (.selector (some 3)) ∧
    idle.defectBody 17 (.selector (some 3)) = [.u8 3] := by decide +kernel

/-- R163, Table 11-1: LINE_READ sends noise count and tally in two bytes, attempts and successes in one. -/
theorem test_line_read : fieldBytes (Line.fields { Line.powered .active with
      noise := 258, lastTally := 259, lastAttempts := 64, lastSuccesses := 63, noiseMark := true }) =
    [1, 3, 1, 1, 2, 1, 3, 64, 63, 2, 0, 0, 0, 0] := by decide +kernel

/-- R10, R26, R49: once a live READY record has been retired, a START of it is WRONG_STATE; its map entry is empty, where a BEGIN
is NO_RECORD (assumption log 41). -/
theorem test_retire_first : let s := (after (exec (.retire sup 511 65535 4) (holding (neededBy .stress)))).setExchange .idle
    let t := s.putStation 1 (stationFor .stress)
    s.liveAt 12 400 = none ∧ resultOf (after (exec (.start sup 3 511 1 0) t)) = some .wrongState ∧
      resultOf (after (exec (.begin rig 12 400) t)) = some .noRecord := by decide +kernel

/-- R162: the first attempt of a call fixes its retry count, and a later one keeps it. -/
theorem test_retry_fixed : let s := { idle with bmu := { idle.bmu with turn := some (Turn.first 0) } }
    let t := (after (exec .call s)).setExchange .idle
    let u := t.putStation 0 { t.stationAt 0 with retry := 3 }
    ((after (exec .call u)).bmu.turn).map (fun x => (x.tries, x.retry)) = some (2, 1) := by decide +kernel

/-! ## WellFormed refuses an ill-formed term of each check -/

/-- An ASK of a station that the part does not have. -/
def noAsk : Ask := { station := 16, line := .b, further := true }

/-- Requests on records: a sender out of range, then each field beyond its width. -/
theorem test_wf_records : [Instr.find noAsk (.slot 0) 1, .find sup (.slot 65536) 1, .find sup (.position 256 1) 1,
    .find sup (.position 1 65536) 1, .find sup (.slot 0) 256, .list sup (List.replicate 256 1) 1 1 false 0,
    .list sup [256] 1 1 false 0, .list sup [1] 256 1 false 0, .list sup [1] 1 256 false 0, .list sup [1] 1 1 true 65536,
    .create sup 256 1 0 none none, .create sup 1 65536 0 none none, .create sup 1 1 256 none none,
    .create sup 1 1 0 (some 65536) none, .create sup 1 1 0 none (some 65536), .amend sup 65536 0 none .keep .keep,
    .amend sup 0 65536 none .keep .keep, .amend sup 0 0 (some 256) .keep .keep, .amend sup 0 0 none (.set 65536) .keep,
    .amend sup 0 0 none .keep (.set 65536), .bored sup 65536 0, .retire sup 0 0 256, .replace sup 0 0 (some 256),
    .purge sup 65536, .certify sup 0 0 256 0 none none none none none, .certify sup 0 0 1 256 none none none none none,
    .certify sup 0 0 1 0 (some 65536) none none none none, .certify sup 0 0 1 0 none (some 65536) none none none,
    .certify sup 0 0 1 0 none none (some 4294967296) none none, .certify sup 0 0 1 0 none none none (some 65536) none,
    .certify sup 0 0 1 0 none none none none (some 256)].all (fun c => !c.wf) = true := by decide +kernel

/-- Requests on work, classes and the site. -/
theorem test_wf_site : [Instr.start sup 256 0 1 0, .start sup 1 65536 1 0, .start sup 1 0 256 0, .start sup 1 0 1 65536,
    .begin noAsk 1 1, .abort sup 65536, .resume sup 0 65536 none, .resume sup 0 0 (some 256), .closeWithdraw sup 65536 0,
    .closeAccept sup 0 65536, .closeRestart sup 65536 0, .closeRetest sup 0 65536, .closeAbandon sup 65536 0,
    .endWork noAsk, .restroke noAsk, .classWrite sup 256 .unset, .classWrite sup 0 (.part2 { part2 with theoVol := 4294967296 }),
    .classWritePart1 sup 0 { part1 with dwl := 65536 }, .classWritePart1 sup 0 { part1 with stages := some [256] },
    .classWritePart1 sup 0 { part1 with tB1 := some 65536 }, .classRead sup 0 256,
    .siteWrite sup { SiteItems.mk (some 256) (Vector.replicate 17 none) none none (Vector.replicate 4 none) none none none none with
      alarm := none },
    .siteWrite sup (SiteItems.mk none (Vector.replicate 17 (some 256)) none none (Vector.replicate 4 none) none none none none),
    .siteWrite sup (SiteItems.mk none (Vector.replicate 17 none) none none
      (Vector.replicate 4 (some { enable := 256, polarity := 1, filter := 0, function := 1 })) none none none none),
    .siteRead noAsk, .digQuery noAsk, .digSet sup 256, .relieveSet sup 256, .relieveClear sup 256, .calWrite sup 256 none,
    .calWrite sup 1 (some [{ pressure := 4294967296, load := 1 }]), .calRead sup 256 1 none none,
    .calRead sup 2 1 (some 4294967296) none].all (fun c => !c.wf) = true := by decide +kernel

/-- Requests on the attention list, the clock, stations and lines, and the events. -/
theorem test_wf_bus : [Instr.bind sup 0 0 256 0, .bind sup 0 0 1 256, .unbind sup 0 65536, .clear sup 256 0 1,
    .clear sup 1 65536 1, .clear sup 1 0 256, .attentionRead sup 256 false, .timeSet sup 4294967296, .release noAsk,
    .inputRead noAsk, .restart noAsk, .stationWrite sup 256 none none none none, .stationWrite sup 1 (some 256) none none none,
    .stationWrite sup 1 none (some 256) none none, .stationWrite sup 1 none none none (some 65536), .stationRead sup 256,
    .lineWrite sup 256 none none none, .lineWrite sup 1 (some 256) none none, .lineWrite sup 1 none (some 256) none,
    .lineWrite sup 1 none none (some 256), .lineWriteTest sup 1 (Vector.replicate 16 0) 256, .lineRead sup 256,
    .unknownRequest sup 256 .unknownCode, .replyReceived 16 .a (Reply.mk false false false .supervisor),
    .replyReceived 1 .a (Reply.mk false false false (.winch 65536 0)),
    .replyReceived 1 .a (Reply.mk false false false (.grout 0 4294967296)),
    .replyReceived 1 .a (Reply.mk false false false (.jack 0 65536 false false false false)),
    .replyReceived 1 .a (Reply.mk false false false (.monitor (List.replicate 9 (0, true)))),
    .replyReceived 1 .a (Reply.mk false false false (.monitor [(65536, true)])), .badFrame .timeout,
    .suspendLimitReached 12, .phaseTimerExpiry 12, .refusalCompletion 12, .cureExpiry 512,
    .powerOn false false (.mixed []), .headerRestored [528], .restoreComplete [528],
    .blockWriteTimeout (.mixed [])].all (fun c => !c.wf) = true := by decide +kernel

/-- Well-formed commands at the widths' ends. -/
theorem test_wf_accepts : [Instr.find sup (.slot 65535) 255, .list sup [255] 255 255 true 65535,
    .timeSet sup 4294967295, .replyReceived 15 .b (Reply.mk true true true (.monitor (List.replicate 8 (65535, true)))),
    .badFrame .check, .badFrame .kind, .suspendLimitReached 11, .cureExpiry 511, .headerRestored [527],
    .blockWriteTimeout (.mixed (List.replicate 256 0)), .scanStart, .call, .fetch, .answerEnd].all Instr.wf = true := by
  decide +kernel

/-! ## Witnesses: requests in general and records -/

/-- Hypotheses of StepRunsTheFrontCommand: a command in front, and none with the key timer at its end. -/
theorem witness_step : ({ idle with pending := [.scanStart] } : State).pending = [.scanStart] ∧
    ∃ s : State, s = { idle with ifu := { idle.ifu with key := .timing 3000 } } ∧ s.pending = [] :=
  ⟨rfl, _, rfl, rfl⟩

/-- Hypotheses of RefusedRequestChangesNothing, for an ASK that is taken, one in the window of a CALL and one while an ANSWER
is sent. -/
theorem witness_refused : ask? (.siteRead sup) = some (sup, .siteRead) ∧ idle.takesAsk sup = true ∧
    (∃ s : State, s = { idle with bmu := { idle.bmu with exchange := .call 1 .a } } ∧ s.takesAsk sup = false ∧
      s.busUp = true ∧ s.bmu.exchange = .call 1 sup.line) ∧
    ({ idle with bmu := { idle.bmu with exchange := .answer sup (answerTo .siteRead .done []) .nothing } } :
      State).takesAsk sup = false :=
  ⟨by decide +kernel, by decide +kernel, ⟨_, rfl, by decide +kernel, by decide +kernel, rfl⟩, by decide +kernel⟩

/-- The same part with a winch at station 1. -/
def winched : State := idle.putStation 1 (stationFor .insert)

/-- Hypotheses of RequestsFollowTheGeneralRefusalOrder, clause by clause. -/
theorem witness_order : ask? (.siteRead rig) = some (rig, .siteRead) ∧ winched.takesAsk rig = true ∧
    winched.permits rig.station .siteRead = false ∧ ask? (.bored sup 512 0) = some (sup, .bored) ∧
    slotRevAndFields? (.bored sup 512 0) = some (512, 0) ∧ FieldsInRange (.bored sup 512 0) ∧ Served idle sup .bored ∧ idle.recAt 511 = none ∧
    Served (holding (rec0 .planned)) sup .bored ∧ (holding (rec0 .planned)).recAt 511 = some (rec0 .planned) ∧
    65534 ≠ (holding (rec0 .planned)).revAt 511 ∧ idle.takesAsk sup = true ∧ sup.station = 0 ∧
    (17 = Req.classWrite.code ∧ ∀ part, AskDefect.misfit (some 2) ≠ .selector part) :=
  ⟨by decide, by decide +kernel, by decide +kernel, by decide, by decide, trivial, served_of (by decide +kernel), by decide +kernel,
    served_of (by decide +kernel), by decide +kernel, by decide +kernel, by decide +kernel, rfl, by decide, nofun⟩

/-- The same for the requests with fields of their own, at the ends of the ranges: they are screened on the record of slot 511
seen at another revision, and a field one past its range is none in range. -/
theorem witness_order_fields :
    (∀ x ∈ [(Instr.amend sup 511 65534 (some 15) (.set 60000) (.set 3000), Req.amend), (.retire sup 511 65534 4, .retire),
        (.replace sup 511 65534 none, .replace), (.start sup 4 511 15 65534, .start), (.resume sup 511 65534 (some 1), .resume),
        (.certify sup 511 65534 9 15 (some 3000) none none (some 30000) none, .certify), (.bind sup 511 65534 15 7, .bind)],
      ask? x.1 = some (sup, x.2) ∧ slotRevAndFields? x.1 = some (511, 65534) ∧ Served (holding (rec0 .planned)) sup x.2) ∧
    FieldsInRange (.amend sup 511 65534 (some 15) (.set 60000) (.set 3000)) ∧ FieldsInRange (.retire sup 511 65534 4) ∧
    FieldsInRange (.replace sup 511 65534 none) ∧ FieldsInRange (.start sup 4 511 15 65534) ∧
    FieldsInRange (.resume sup 511 65534 (some 1)) ∧ FieldsInRange (.bind sup 511 65534 15 7) ∧
    FieldsInRange (.certify sup 511 65534 9 15 (some 3000) none none (some 30000) none) ∧
    ¬ FieldsInRange (.bind sup 511 65534 15 8) ∧ ¬ FieldsInRange (.resume sup 511 65534 none) ∧
    ask? (.purge sup 511) = some (sup, .purge) ∧ slotAlone? (.purge sup 511) = some 511 ∧ Served idle sup .purge ∧
    idle.recAt 511 = none := by
  have served : ∀ q, Served (holding (rec0 .planned)) sup q := fun q => ⟨by decide +kernel, rfl⟩
  refine ⟨?_, by unfold FieldsInRange; simp, by unfold FieldsInRange; decide, by unfold FieldsInRange; simp,
    ⟨⟨.destress, by decide⟩, by decide, by decide⟩, ⟨1, rfl, by decide, by decide⟩, by unfold FieldsInRange; decide, ?_,
    by unfold FieldsInRange; decide, by unfold FieldsInRange; simp, by decide, by decide, served_of (by decide +kernel),
    by decide +kernel⟩
  · intro x hx
    refine ⟨?_, ?_, served x.2⟩ <;> (revert x; decide)
  · refine ⟨by decide, ⟨?_, nofun⟩, nofun, ?_, nofun, .locked, by decide, by decide, by decide, by decide, by decide⟩
    · rintro n ⟨⟩; decide
    · rintro n ⟨⟩; decide

/-- Hypotheses of StepKeepsTheAttentionListAndTheInputs for an entry that is handled: a full list in order without a double,
and an entry above its lowest level. -/
theorem witness_full_list : ∃ (e : Entry) (a : Atu), a.entries.length = 64 ∧
    a.entries.Pairwise (fun x y => y.before x = false) ∧ a.entries.Nodup ∧ (∃ x ∈ a.entries, x.level < e.level) ∧
    (a.place e).entries.head? = some e ∧ (a.place e).entries.length = 64 ∧
    (a.place e).entries.getLast?.map Entry.subject = some (.record 62) :=
  ⟨{ subject := .site, cond := .siteStop, level := 3, time := 9 },
    { entries := (List.range 64).map (fun n => { subject := .record n, cond := .overpull, level := 1, time := 5 })
      overflow := 0, alm := false },
    by decide, by decide +kernel, by decide +kernel, by decide +kernel, by decide +kernel, by decide +kernel,
    by decide +kernel⟩

/-- Hypotheses of the clauses on fields out of range, and of those of CLEAR, LIST and CREATE on theirs. -/
theorem witness_out_of_range : (∀ q ∈ [Req.find, .list, .create, .classRead, .calRead, .stationRead, .lineRead, .stationWrite,
      .lineWrite, .clear], Served idle sup q) ∧ ¬ OverridesInRange (some 2999) none ∧ ¬ OverridesInRange none (some 20001) :=
  ⟨fun _ _ => ⟨by decide +kernel, rfl⟩, fun h => absurd (h.1 _ rfl).1 (by decide), fun h => absurd (h.2 _ rfl).2 (by decide)⟩

/-- Hypotheses of FindAnswersTheNamedRecord, clause by clause. -/
theorem witness_find : Served (holding (rec0 .locked)) sup .find ∧
    (holding (rec0 .locked)).recAt 511 = some (rec0 .locked) ∧ (holding (rec0 .locked)).liveAt 12 400 = some 511 ∧
    (holding (rec0 .locked)).recAt 0 = none ∧ (holding (rec0 .locked)).liveAt 1 1 = none ∧
    Served (holding (rec0 .planned)) sup .find ∧ (holding (rec0 .planned)).recAt 511 = some (rec0 .planned) :=
  ⟨served_of (by decide +kernel), by decide +kernel, by decide +kernel, by decide +kernel, by decide +kernel,
    served_of (by decide +kernel), by decide +kernel⟩

/-- The order that a CALL to the jack of a stressing in its datum phase carries. -/
theorem order_of_stressing : CallOrder (working .running (.stress str0)) 1 (.pressure 4752) := by
  refine ⟨fun h => absurd h (by decide +kernel), fun _ => ⟨fun h => absurd h (by decide +kernel), fun c x hc hx => ?_⟩⟩
  obtain rfl : c = 0 := Option.some.inj (hc.symm.trans (by decide +kernel : _ = some 0))
  obtain rfl : x = ctx0 .running (.stress str0) := Option.some.inj (hx.symm.trans (by decide +kernel))
  refine ⟨fun h => absurd rfl h, fun _ => ⟨nofun, nofun, fun p hp => ?_⟩⟩
  rcases hp with hp | hp
  · cases hp; rfl
  · cases hp

/-- Hypotheses of FindAnswersTheNamedRecord for the views that show an order, of a record that a context names. -/
theorem witness_find_order : Served (working .running (.stress str0)) sup .find ∧
    (working .running (.stress str0)).recAt 511 =
      some { neededBy .stress with state := .stressing, context := some 0 } ∧ WorkLaw (working .running (.stress str0)) ∧
    (some 0).bind (working .running (.stress str0)).ctxAt = some (ctx0 .running (.stress str0)) ∧
    CallOrder (working .running (.stress str0)) 1 (.pressure 4752) :=
  ⟨served_of (by decide +kernel), by decide +kernel, workLaw_of_check (by decide +kernel), by decide +kernel,
    order_of_stressing⟩

/-- Hypotheses of ListAnswersTheFirstEightMatches, with states [9], rows 12 to 12 and start slot 511. -/
theorem witness_list : Served (holding (rec0 .locked)) sup .list ∧ TableLaw (holding (rec0 .locked)) ∧ [9] ≠ ([] : List Nat) :=
  ⟨served_of (by decide +kernel), tableLaw_of_check (by decide +kernel), by decide⟩

/-- Hypotheses of CreatePlacesAPlannedRecord, at row 12, bay 400, class 15. -/
theorem witness_create : Served idle sup .create ∧ TableLaw idle ∧ idle.liveAt 12 400 = none ∧
    idle.tbc.site.digRow < 12 ∧ NewGeneration idle 12 400 0 ∧ LowestFree idle 0 :=
  ⟨served_of (by decide +kernel), tableLaw_of_check (by decide +kernel), by decide +kernel, by decide +kernel,
    newGeneration_zero (by decide +kernel), by decide, by decide +kernel, fun m h => absurd h (Nat.not_lt_zero m)⟩

/-- A record of a position that the slot number gives. -/
def recOf (n : Nat) : Record := newRecord (n / 400 + 1) (n % 400 + 1) 0 0 none none none { time := 0, station := 0 }

/-- The first slots, each with its record. -/
def slotsOf (m : Nat) : Table Slot := (List.range m).map (fun n => (n, Slot.mk 0 (some (recOf n))))

/-- A part whose every slot holds a record; the one of slot 0 is live. -/
def full : State := { idle with tbc := { idle.tbc with slots := slotsOf 512, map := [(0, 0)] } }

theorem slotsOf_wf (m : Nat) : Table.wf (slotsOf m) := by
  rw [Table.wf, slotsOf, List.pairwise_map]
  exact List.pairwise_lt_range

theorem full_recAt (n : Nat) : full.recAt n = if n < 512 then some (recOf n) else none := by
  simp only [State.recAt, State.slotAt, full, slotsOf, Table.get?_range]
  split <;> rfl

theorem full_table : TableLaw full := by
  have rng : ∀ n r, full.recAt n = some r → n < 512 ∧ r = recOf n := by
    intro n r h
    rw [full_recAt] at h
    split at h
    · exact ⟨‹_›, (Option.some.inj h).symm⟩
    · cases h
  refine ⟨?_, List.pairwise_singleton _ _, ?_, ?_, ?_, ?_⟩
  · simp only [full]
    exact slotsOf_wf 512
  · intro n r h
    obtain ⟨a, rfl⟩ := rng n r h
    simp only [recOf, newRecord]
    omega
  · intro n m r q h k e1 e2 _
    obtain ⟨a, rfl⟩ := rng n r h
    obtain ⟨b, rfl⟩ := rng m q k
    simp only [recOf, newRecord] at e1 e2
    omega
  · intro key n h
    have := Table.mem_of_get? h
    simp [full] at this
    obtain ⟨rfl, rfl⟩ := this
    exact ⟨recOf 0, by rw [full_recAt]; rfl, by decide, by decide⟩
  · intro n m r h l
    obtain ⟨_, rfl⟩ := rng n r h
    rcases l with l | l <;> cases l

theorem full_taken (n : Nat) (h : n < 512) : full.recAt n ≠ none := by
  rw [full_recAt, if_pos h]; exact Option.some_ne_none _

/-- The first record, gone to RETIRED at the last generation, so that its position has no live record. -/
def spent : Record := { rec0 .retired with gen := 3, retireReason := some .supervisor }

/-- The refusals of CreatePlacesAPlannedRecord, clause by clause: OCCUPIED, RELIED_ON, LIMIT, FULL. -/
theorem witness_create_refused :
    (Served (holding (rec0 .locked)) sup .create ∧ TableLaw (holding (rec0 .locked)) ∧
      NewGeneration (holding (rec0 .locked)) 12 400 1 ∧ (holding (rec0 .locked)).liveAt 12 400 ≠ none) ∧
    (∃ s : State, s = { idle with tbc := { idle.tbc with site := { idle.tbc.site with digRow := 12 } } } ∧
      Served s sup .create ∧ TableLaw s ∧ NewGeneration s 12 400 0 ∧ s.liveAt 12 400 = none ∧ 12 ≤ s.tbc.site.digRow ∧
      s.isRelieved 12 = false) ∧
    (Served (holding spent) sup .create ∧ TableLaw (holding spent) ∧ NewGeneration (holding spent) 12 400 4 ∧
      (holding spent).liveAt 12 400 = none ∧ (holding spent).tbc.site.digRow < 12) ∧
    (Served full sup .create ∧ TableLaw full ∧ NewGeneration full 12 400 0 ∧ full.liveAt 12 400 = none ∧
      full.tbc.site.digRow < 12 ∧ ∀ n, n < 512 → full.recAt n ≠ none) :=
  ⟨⟨served_of (by decide +kernel), tableLaw_of_check (by decide +kernel),
      newGeneration_next (s := holding (rec0 .locked)) (n := 511) (r := rec0 .locked) (by decide +kernel)
        (by decide +kernel), by decide +kernel⟩,
    ⟨_, rfl, served_of (by decide +kernel), tableLaw_of_check (by decide +kernel), newGeneration_zero (by decide +kernel),
      by decide +kernel, by decide +kernel, by decide +kernel⟩,
    ⟨served_of (by decide +kernel), tableLaw_of_check (by decide +kernel),
      newGeneration_next (s := holding spent) (n := 511) (r := spent) (by decide +kernel) (by decide +kernel),
      by decide +kernel, by decide +kernel⟩,
    served_of (by decide +kernel), full_table, newGeneration_zero (by decide +kernel), by decide +kernel, by decide +kernel,
    full_taken⟩

/-- Hypotheses of AmendAndBoredChangeAnEarlyRecord (class 15, overrides 60,000 and 20,000). -/
theorem witness_amend_bored : Served (holding (rec0 .planned)) sup .amend ∧ Served (holding (rec0 .locked)) sup .amend ∧
    Served (holding (rec0 .planned)) sup .bored ∧ Served (holding (rec0 .locked)) sup .bored ∧
    (holding (rec0 .planned)).recAt 511 = some (rec0 .planned) ∧ (holding (rec0 .planned)).revAt 511 = 65535 ∧
    (holding (rec0 .locked)).recAt 511 = some (rec0 .locked) ∧ (holding (rec0 .locked)).revAt 511 = 65535 :=
  ⟨served_of (by decide +kernel), served_of (by decide +kernel), served_of (by decide +kernel),
    served_of (by decide +kernel), by decide +kernel, by decide +kernel, by decide +kernel, by decide +kernel⟩

/-- A part with the whole wall released for digging. -/
def dug (r : Record) : State :=
  { holding r with tbc := { (holding r).tbc with site := { (holding r).tbc.site with digRow := 12 } } }

/-- Hypotheses of RetireAndAbandonEnterRetired, for the commands `retire sup 511 65535 2` and `closeAbandon sup 511 65535`. -/
theorem witness_retire : Served (holding (rec0 .planned)) sup .retire ∧
    (holding (rec0 .planned)).recAt 511 = some (rec0 .planned) ∧ (holding (rec0 .planned)).revAt 511 = 65535 ∧
    ¬ LiveAndRelied (holding (rec0 .planned)) 511 (rec0 .planned) ∧ (rec0 .planned).replaces ≠ some 511 ∧
    (rec0 .planned).replacedBy ≠ some 511 ∧ Served (dug (rec0 .locked)) sup .retire ∧
    LiveAndRelied (dug (rec0 .locked)) 511 (rec0 .locked) ∧ Served (holding (rec0 .retired)) sup .retire ∧
    Served (holding (rec0 .failed)) sup .close ∧ (holding (rec0 .failed)).recAt 511 = some (rec0 .failed) ∧
    ¬ LiveAndRelied (holding (rec0 .failed)) 511 (rec0 .failed) ∧ Served (holding (rec0 .locked)) sup .close :=
  ⟨served_of (by decide +kernel), by decide +kernel, by decide +kernel, by unfold LiveAndRelied; decide +kernel,
    by decide, by decide, served_of (by decide +kernel), by unfold LiveAndRelied; decide +kernel,
    served_of (by decide +kernel), served_of (by decide +kernel), by decide +kernel,
    by unfold LiveAndRelied; decide +kernel, served_of (by decide +kernel)⟩

/-- Two records of one position: the older in slot 511, in a given state, and its replacement in slot 0. -/
def pair (st : RecState) : State :=
  { idle with tbc := { idle.tbc with
      slots := [(0, { rev := 1, rec? := some { rec0 .planned with gen := 1, replaces := some 511 } }),
        (511, { rev := 2, rec? := some { rec0 st with replacedBy := some 0 } })]
      map := [(4799, if st = .retired then 0 else 511)] } }

/-- Hypotheses of PurgeFreesARetiredSlot: a RETIRED record that another names, and a LOCKED one. -/
theorem witness_purge : Served (pair .retired) sup .purge ∧ TableLaw (pair .retired) ∧
    (pair .retired).recAt 511 = some { rec0 .retired with replacedBy := some 0 } ∧
    (pair .retired).recAt 0 = some { rec0 .planned with gen := 1, replaces := some 511 } ∧
    Served (pair .locked) sup .purge ∧ TableLaw (pair .locked) :=
  ⟨served_of (by decide +kernel), tableLaw_of_check (by decide +kernel), by decide +kernel, by decide +kernel,
    served_of (by decide +kernel), tableLaw_of_check (by decide +kernel)⟩

/-- Hypotheses of ReplaceLinksANewRecord, clause by clause: taken, WRONG_STATE, OCCUPIED, LIMIT, FULL. -/
theorem witness_replace :
    (Served (holding (rec0 .locked)) sup .replace ∧ TableLaw (holding (rec0 .locked)) ∧
      NewGeneration (holding (rec0 .locked)) 12 400 1 ∧ (holding (rec0 .locked)).liveAt 12 400 = some 511 ∧
      LowestFree (holding (rec0 .locked)) 0) ∧
    (TableLaw (holding (rec0 .suspect)) ∧ NewGeneration (holding (rec0 .suspect)) 12 400 1) ∧
    (Served (pair .locked) sup .replace ∧ TableLaw (pair .locked) ∧ NewGeneration (pair .locked) 12 400 2 ∧
      (pair .locked).liveAt 12 400 = some 511) ∧
    (TableLaw (holding { rec0 .locked with gen := 3 }) ∧ NewGeneration (holding { rec0 .locked with gen := 3 }) 12 400 4 ∧
      (holding { rec0 .locked with gen := 3 }).liveAt 12 400 = some 511) ∧
    (Served full sup .replace ∧ TableLaw full ∧ NewGeneration full 1 1 1 ∧ full.liveAt 1 1 = some 0 ∧
      full.recAt 0 = some (recOf 0) ∧ ∀ n, n < 512 → full.recAt n ≠ none) :=
  ⟨⟨served_of (by decide +kernel), tableLaw_of_check (by decide +kernel),
      newGeneration_next (s := holding (rec0 .locked)) (n := 511) (r := rec0 .locked) (by decide +kernel)
        (by decide +kernel), by decide +kernel, by decide, by decide +kernel, fun m h => absurd h (Nat.not_lt_zero m)⟩,
    ⟨tableLaw_of_check (by decide +kernel), newGeneration_next (s := holding (rec0 .suspect)) (n := 511)
      (r := rec0 .suspect) (by decide +kernel) (by decide +kernel)⟩,
    ⟨served_of (by decide +kernel), tableLaw_of_check (by decide +kernel), newGeneration_next (s := pair .locked) (n := 0)
      (r := { rec0 .planned with gen := 1, replaces := some 511 }) (by decide +kernel) (by decide +kernel),
      by decide +kernel⟩,
    ⟨tableLaw_of_check (by decide +kernel), newGeneration_next (s := holding { rec0 .locked with gen := 3 }) (n := 511)
      (r := { rec0 .locked with gen := 3 }) (by decide +kernel) (by decide +kernel), by decide +kernel⟩,
    served_of (by decide +kernel), full_table, newGeneration_next (s := full) (n := 0) (r := recOf 0) (by decide +kernel)
      (by decide +kernel), by decide +kernel, by decide +kernel, full_taken⟩

/-- Hypotheses of CertifyMovesASuspectRecord, to LOCKED with load 30,000 in a relied row and to RETIRED in one that is not. -/
theorem witness_certify : Served (dug (rec0 .suspect)) sup .certify ∧
    (dug (rec0 .suspect)).recAt 511 = some (rec0 .suspect) ∧ (dug (rec0 .suspect)).revAt 511 = 65535 ∧
    LiveAndRelied (dug (rec0 .suspect)) 511 (rec0 .suspect) ∧ Served (holding (rec0 .suspect)) sup .certify ∧
    ¬ LiveAndRelied (holding (rec0 .suspect)) 511 (rec0 .suspect) ∧ Served (holding (rec0 .locked)) sup .certify :=
  ⟨served_of (by decide +kernel), by decide +kernel, by decide +kernel, by unfold LiveAndRelied; decide +kernel,
    served_of (by decide +kernel), by unfold LiveAndRelied; decide +kernel, served_of (by decide +kernel)⟩

/-! ## Witnesses: work contexts -/

/-- A part with a monitor of eight channels at station 15. -/
def watched (r : Record) (channels : Table Nat) : State :=
  { (holding r).putStation 15 (rigOf .monitor (some 8) (.monitor (List.replicate 8 (0, false)))) with channels := channels }

/-- A part with a record in the last slot and station 1 ready for a kind. -/
def ready (k : CtxKind) (r : Record) : State := (holding r).putStation 1 (stationFor k)

/-- A held grouting. -/
def heldGrout : Record := { rec0 .held with heldKind := some .grout, heldReason := some .aborted }

/-- A part with a stressing on slot 511, a READY record near it in slot 3, and two jacks more, one with a small table. -/
def crowded : State :=
  let w := working .running (.stress str0)
  (({ w with
      tbc := { w.tbc with slots := w.tbc.slots.put 3 { rev := 0, rec? := some { rec0 .ready with bay := 399 } } }
      cals := [(1, cal0), (2, cal0), (3, [{ pressure := 1000, load := 7199 }])] }).putStation 2 (stationFor .stress)).putStation
    3 (stationFor .stress)

/-- Figures of BindingIsRefusedByTheFirstFailingCheck: CONFLICT with context 0, and CAPACITY short of the test load by one. -/
theorem witness_bind_figures : Served crowded sup .start ∧ Table.wf crowded.cxp.contexts ∧
    ((bindingChecks crowded .stress 2 { rec0 .ready with bay := 399 } false).find? Prod.fst).map Prod.snd = some .conflict ∧
    FormsPair crowded .stress { rec0 .ready with bay := 399 } 0 ∧
    ((bindingChecks crowded .stress 3 { rec0 .ready with bay := 399 } false).find? Prod.fst).map Prod.snd = some .capacity ∧
    testLoad class0 = 7200 :=
  ⟨served_of (by decide +kernel), by decide +kernel, by decide +kernel,
    ⟨ctx0 .running (.stress str0), { neededBy .stress with state := .stressing, context := some 0 }, by decide +kernel, by decide +kernel, by decide, by decide +kernel⟩,
    by decide +kernel, by decide⟩

/-- Hypotheses of StartBeginAndResumeBindTheLowestFreeContext: a START, a BEGIN and a RESUME, on context 0. -/
theorem witness_bind_context :
    (Served (ready .stress (neededBy .stress)) sup .start ∧
      (∀ b ∈ bindingChecks (ready .stress (neededBy .stress)) .stress 1 (neededBy .stress) false, b.1 = false)) ∧
    (Served (ready .insert (neededBy .insert)) rig .begin ∧ (ready .insert (neededBy .insert)).liveAt 12 400 = some 511 ∧
      (∀ b ∈ bindingChecks (ready .insert (neededBy .insert)) .insert 1 (neededBy .insert) false, b.1 = false)) ∧
    (Served (ready .grout heldGrout) sup .resume ∧ (ready .grout heldGrout).recAt 511 = some heldGrout ∧
      (ready .grout heldGrout).classOf heldGrout = some class0 ∧ (ready .grout heldGrout).ctxAt 0 = none ∧
      (∀ b ∈ bindingChecks (ready .grout heldGrout) .grout 1 heldGrout true, b.1 = false)) :=
  ⟨⟨served_of (by decide +kernel), by decide +kernel⟩, ⟨served_of (by decide +kernel), by decide +kernel, by decide +kernel⟩,
    served_of (by decide +kernel), by decide +kernel, by decide +kernel, by decide +kernel, by decide +kernel⟩

/-- Hypotheses of BindingIsRefusedByTheFirstFailingCheck: the wrong kind of station comes before the wrong state. -/
theorem witness_bind_refused : Served (ready .stress (rec0 .planned)) sup .start ∧
    (ready .stress (rec0 .planned)).recAt 511 = some (rec0 .planned) ∧
    ((bindingChecks (ready .stress (rec0 .planned)) .insert 1 (rec0 .planned) false).find? Prod.fst).map Prod.snd =
      some .wrongKind ∧
    Served (ready .stress heldGrout) sup .resume ∧
    ((bindingChecks (ready .stress heldGrout) .grout 1 heldGrout true).find? Prod.fst).map Prod.snd = some .wrongKind :=
  ⟨served_of (by decide +kernel), by decide +kernel, by decide +kernel, served_of (by decide +kernel), by decide +kernel⟩

/-- Hypotheses of BindingIsRefusedByTheFirstFailingCheck for a BEGIN: no record, a repeat. -/
theorem witness_begin_repeated : Served (ready .insert (neededBy .insert)) rig .begin ∧
    (ready .insert (neededBy .insert)).liveAt 1 1 = none ∧ Served (working .running (.insert ins0)) rig .begin ∧
    (working .running (.insert ins0)).liveAt 12 400 = some 511 ∧
    ((working .running (.insert ins0)).stationAt 1).ctx = some 0 ∧
    (working .running (.insert ins0)).ctxAt 0 = some (ctx0 .running (.insert ins0)) :=
  ⟨served_of (by decide +kernel), by decide +kernel, served_of (by decide +kernel), by decide +kernel, by decide +kernel,
    by decide +kernel⟩

/-- The rest of its hypotheses: a RESUME without a station of a record that is not HELD; a BEGIN of a monitor, and of a jack
at a LOCKED record in a row that is not relieved. -/
theorem witness_begin_refused : Served (ready .stress (rec0 .planned)) sup .resume ∧
    (ready .stress (rec0 .planned)).revAt 511 = 65535 ∧ (rec0 .planned).state ≠ .held ∧
    (∃ h : Ask, h = { station := 15, line := .a, further := false } ∧ Served (watched (rec0 .locked) []) h .begin ∧
      (watched (rec0 .locked) []).liveAt 12 400 = some 511 ∧ ((watched (rec0 .locked) []).stationAt 15).kind = .monitor ∧
      ((watched (rec0 .locked) []).stationAt 15).ctx = none) ∧
    Served (ready .stress (rec0 .locked)) rig .begin ∧ ((ready .stress (rec0 .locked)).stationAt 1).kind = .jack ∧
    ((bindingChecks (ready .stress (rec0 .locked)) .destress 1 (rec0 .locked) false).find? Prod.fst).map Prod.snd =
      some .reliedOn :=
  ⟨served_of (by decide +kernel), by decide +kernel, by decide, ⟨_, rfl, served_of (by decide +kernel), by decide +kernel,
    by decide +kernel, by decide +kernel⟩, served_of (by decide +kernel), by decide +kernel, by decide +kernel⟩

/-- Hypotheses of AbortHoldsTheRecord, clause by clause, in a STOPPED context. -/
theorem witness_abort : Served (working .stopped (.grout gro0)) sup .abort ∧ WorkLaw (working .stopped (.grout gro0)) ∧
    (working .stopped (.grout gro0)).ctxAt 0 = some (ctx0 .stopped (.grout gro0)) ∧
    (working .stopped (.grout gro0)).recAt 0 = none ∧ Served (holding (rec0 .locked)) sup .abort ∧
    WorkLaw (holding (rec0 .locked)) :=
  ⟨served_of (by decide +kernel), workLaw_of_check (by decide +kernel), by decide +kernel, by decide +kernel,
    served_of (by decide +kernel), workLaw_of_check (by decide +kernel)⟩

/-- Hypotheses of CloseMovesAHeldOrFailedRecord. -/
theorem witness_close :
    (∀ k : CtxKind, k ∈ CtxKind.all → (holding { heldGrout with heldKind := some k }).recAt 511 =
      some { heldGrout with heldKind := some k }) ∧ Served (holding heldGrout) sup .close ∧
    (holding heldGrout).classOf heldGrout = some class0 ∧ (holding heldGrout).classOf { heldGrout with cls := 15 } = none ∧
    Served (holding (rec0 .failed)) sup .close ∧ (holding (rec0 .failed)).recAt 511 = some (rec0 .failed) ∧
    (holding { rec0 .failed with retests := 1 }).recAt 511 = some { rec0 .failed with retests := 1 } ∧
    (holding { rec0 .failed with retests := 2 }).recAt 511 = some { rec0 .failed with retests := 2 } :=
  ⟨by decide +kernel, served_of (by decide +kernel), by decide +kernel, by decide +kernel, served_of (by decide +kernel),
    by decide +kernel, by decide +kernel, by decide +kernel⟩

/-- Hypotheses of EndJudgesTheWorkOfItsSender for a winch: the payout at the tolerance's edge, 0.1 mm of scale beyond it, and a
sender that is not bound. -/
theorem witness_end_insertion : Served idle sup .endWork ∧ (idle.stationAt 0).ctx = none ∧
    Served (working .running (.insert { ins0 with total := 8280 })) rig .endWork ∧
    WorkLaw (working .running (.insert { ins0 with total := 8280 })) ∧
    payout { ins0 with total := 8280 } = 20500 + class0.insTol ∧ 20500 + class0.insTol < payout { ins0 with total := 8281 } ∧
    20500 = 11000 + 8000 + class0.jacking :=
  ⟨served_of (by decide +kernel), by decide +kernel, served_of (by decide +kernel), workLaw_of_check (by decide +kernel),
    by decide, by decide, by decide⟩

/-- Hypotheses of EndJudgesTheWorkOfItsSender for a pump and a jack: at the theoretical volume, one pulse below it, and a jack. -/
theorem witness_end_grout : Served (working .running (.grout { gro0 with total := 72 })) rig .endWork ∧
    WorkLaw (working .running (.grout { gro0 with total := 72 })) ∧ class0.theoVol = volume { gro0 with total := 72 } ∧
    volume { gro0 with total := 71 } < class0.theoVol ∧ Served (working .running (.stress str0)) rig .endWork ∧
    WorkLaw (working .running (.stress str0)) :=
  ⟨served_of (by decide +kernel), workLaw_of_check (by decide +kernel), by decide, by decide, served_of (by decide +kernel),
    workLaw_of_check (by decide +kernel)⟩

/-- Hypotheses of RestrokeOpensTheRegister: allowed with and without a used reply, the limit, and a phase that does not; a
sender that no context binds, and one in a DESTRESS context. -/
theorem witness_restroke : Served (working .running (.stress str0)) rig .restroke ∧
    ((working .running (.stress str0)).stationAt 1).ctx = some 0 ∧
    (str0.register = .closed ∧ str0.phase = .datum ∧ str0.holding = false ∧ str0.restrokes < 8 ∧ str0.last = none) ∧
    ({ str0 with restrokes := 7, last := some { pressure := 0, load := 0, stroke := 30000, ext := 0 } } : JackProg).restrokes < 8 ∧
    8 ≤ ({ str0 with restrokes := 8 } : JackProg).restrokes ∧ ({ str0 with phase := .holdA } : JackProg).phase ≠ .test ∧
    Served (ready .stress (rec0 .ready)) rig .restroke ∧ ((ready .stress (rec0 .ready)).stationAt 1).ctx = none ∧
    Served (working .running (.destress des0)) rig .restroke ∧
    (working .running (.destress des0)).ctxAt 0 = some (ctx0 .running (.destress des0)) :=
  ⟨served_of (by decide +kernel), by decide +kernel, by decide, by decide, by decide, by decide, served_of (by decide +kernel),
    by decide +kernel, served_of (by decide +kernel), by decide +kernel⟩

/-- Hypotheses inside RealSecondAdvancesTimeAndTimers and, for a SUSPENDED context, in
TheEndOfATimeActsOnItsContextOrRecord. -/
theorem witness_suspended :
    (working .suspended (.stress str0)).ctxAt 0 = some (ctx0 .suspended (.stress str0)) ∧
    (working .suspended (.stress str0)).ifu.stop = none ∧ (ctx0 .suspended (.stress str0)).limitDue = false ∧
    (∃ s : State, s = (working .suspended (.stress str0)).putCtx 0 { ctx0 .suspended (.stress str0) with
        suspend := 120, limitDue := true } ∧ WorkLaw s ∧ (s.ctxAt 0).map Context.limitDue = some true) :=
  ⟨by decide +kernel, by decide +kernel, by decide, _, rfl, workLaw_of_check (by decide +kernel), by decide +kernel⟩

/-- The datum hold with its timer at 0, its last load at the band's lower edge. -/
def datumEnd : JackProg := { str0 with holding := true, timer := some 0, last := some { pressure := 0, load := 384, stroke := 2170, ext := 2020 } }

/-- A progress whose hold has run out, with the last load in a given place. -/
def holdOver (phase : JackPhase) (index load : Nat) : JackProg :=
  { str0 with
    phase := phase, index := index, holding := true, timer := some 0
    last := some { pressure := 0, load := load, stroke := 2170, ext := 2020 } }

/-- Hypotheses of BandHoldEndsOnItsTimer: each band hold phase with its last load at an edge of the band, the last stage
and the last step among them; then stopped, under a fault hold, and one above the band; and with the timer at 1. -/
theorem witness_band_hold :
    (working .running (.stress datumEnd)).ctxAt 0 = some (ctx0 .running (.stress datumEnd)) ∧
    ((working .running (.stress datumEnd)).recAt 511).isSome = true ∧
    (working .running (.stress datumEnd)).calAt 1 = some cal0 ∧ datumEnd.last = some { pressure := 0, load := 384, stroke := 2170, ext := 2020 } ∧
    datumEnd.timer = some 0 ∧ datumEnd.holding = true ∧ datumEnd.pendingAdv = false ∧ datumEnd.faultHold = false ∧
    (BandPhase datumEnd ∧ Within class0 (phaseLoad class0 (rec0 .stressing) datumEnd) 384) ∧
    (BandPhase (holdOver .stage 2 4896) ∧ Within class0 (phaseLoad class0 (rec0 .stressing) (holdOver .stage 2 4896)) 4896) ∧
    (BandPhase (holdOver .unload 0 482) ∧ Within class0 (phaseLoad class0 (rec0 .stressing) (holdOver .unload 0 482)) 482 ∧
      lengthPasses class0 (rec0 .stressing) (unloadLength class0
        { holdOver .unload 0 482 with closing := some { ext := 6968, load := 7196 } }
        { pressure := 0, load := 482, stroke := 2170, ext := 199 }) = true ∧
      lengthPasses class0 (rec0 .stressing) (unloadLength class0 (holdOver .unload 0 482)
        { pressure := 0, load := 482, stroke := 2170, ext := 199 }) = false) ∧
    (BandPhase (holdOver .lockoff 0 5780) ∧
      Within class0 (phaseLoad class0 (rec0 .stressing) (holdOver .lockoff 0 5780)) 5780) ∧
    (∃ p : JackProg, p = { holdOver .step 1 2566 with steps := [(2650, 26000)] } ∧ BandPhase p ∧
      Within class0 (phaseLoad class0 (rec0 .destressing) p) 2566) ∧
    ¬ Within class0 (phaseLoad class0 (rec0 .stressing) datumEnd) 577 ∧
    (working .stopped (.stress { datumEnd with faultHold := true })).ctxAt 0 =
      some (ctx0 .stopped (.stress { datumEnd with faultHold := true })) ∧
    ({ datumEnd with timer := some 1 } : JackProg).timer ≠ some 0 := by
  unfold BandPhase Within
  refine ⟨by decide +kernel, by decide +kernel, by decide +kernel, by decide, by decide, by decide, by decide, by decide,
    by decide +kernel, by decide +kernel, by decide +kernel, by decide +kernel, ⟨_, rfl, by decide +kernel⟩,
    by decide +kernel, by decide +kernel, by decide⟩

/-- Hypotheses of TheEndOfATimeActsOnItsContextOrRecord: the timer at the refusal time, due in RUNNING, and not due in
STOPPED; the cure end at works time, and one past it. -/
theorem witness_refusal_cure :
    WorkLaw (working .running (.grout { gro0 with counting := true, due := true, refTimer := 120 })) ∧
    class0.refTime = 120 ∧ ({ gro0 with counting := true, refTimer := 120 } : GroutProg).due = false ∧
    WorkLaw (working .stopped (.grout { gro0 with counting := true, refTimer := 120 })) ∧
    (∃ r : Record, r = { rec0 .curing with cureEnd := some 0 } ∧ (holding r).recAt 511 = some r ∧
      (holding r).wck.clock = .running ∧ 0 ≤ (holding r).wck.time) ∧
    (∃ r : Record, r = { rec0 .curing with cureEnd := some 1 } ∧ (holding r).recAt 511 = some r ∧ (holding r).wck.time < 1) :=
  ⟨workLaw_of_check (by decide +kernel), by decide, by decide, workLaw_of_check (by decide +kernel),
    ⟨_, rfl, by decide +kernel, by decide +kernel, by decide⟩, _, rfl, by decide +kernel, by decide +kernel⟩

/-! ## Witnesses: classes, the site, dig release, calibration -/

/-- Hypotheses of ClassWriteReplacesTheWholeEntry: taken, IN_USE, and a part 2 without its part 1; class 15 is in range; parts
out of range by one, and a part 2 that gives an inconsistent entry. -/
theorem witness_class_write : PartOneInRange part1 ∧ PartTwoInRange part2 ∧
    (∃ s : State, s = idle.stage (some (15, part1)) ∧ Served s sup .classWrite ∧ TableLaw s ∧
      s.tbc.staged = some (15, part1) ∧ EntryConsistent (joinParts part1 part2) ∧
      ¬ EntryConsistent (joinParts part1 { part2 with refPress := 4000 }) ∧
      PartTwoInRange { part2 with refPress := 4000 }) ∧
    (Served (working .running (.stress str0)) sup .classWrite ∧ TableLaw (working .running (.stress str0)) ∧
      ∃ r, (working .running (.stress str0)).recAt 511 = some r ∧ r.cls = 0 ∧ r.state.isWork = true) ∧
    (Served idle sup .classWrite ∧ TableLaw idle ∧ idle.tbc.staged = none) ∧
    ¬ PartOneInRange { part1 with test := 176 } ∧ ¬ PartTwoInRange { part2 with burst := 100 } := by
  have one : PartOneInRange part1 := by
    refine ⟨?_, ?_, fun l h => ?_, ?_, ?_, ?_, ?_, ?_, nofun, nofun, nofun, nofun, nofun, nofun⟩
    case refine_3 => cases h; unfold Ranged; decide
    all_goals unfold Ranged; decide
  have two : ∀ n, 100 ≤ n → n ≤ 20000 → PartTwoInRange { part2 with refPress := n } := by
    intro n a b
    refine ⟨?_, ?_, ?_, ?_, ?_, ?_, nofun, nofun, ?_, ?_, ?_, ?_, ?_, ⟨a, b⟩, ?_, ?_, ?_, ?_, ?_⟩
    all_goals simp [Ranged, part2]
  refine ⟨one, two 1500 (by decide) (by decide), ⟨_, rfl, served_of (by decide +kernel),
    tableLaw_of_check (by decide +kernel), by decide +kernel, by unfold EntryConsistent; decide,
    by unfold EntryConsistent; decide, two 4000 (by decide) (by decide)⟩,
    ⟨served_of (by decide +kernel), tableLaw_of_check (by decide +kernel), _, rfl, by decide +kernel, by decide +kernel⟩,
    ⟨served_of (by decide +kernel), tableLaw_of_check (by decide +kernel), by decide⟩, fun h => ?_, fun h => ?_⟩
  · exact absurd h.2.2.2.1.2 (by decide)
  · exact absurd h.2.2.2.2.2.2.2.2.2.2.2.2.2.2.2.1.1 (by decide)

/-- The items of a SITE_WRITE with a span and a time scale alone. -/
def items (span scale : Option Nat) : SiteItems :=
  SiteItems.mk span (Vector.replicate 17 none) none none (Vector.replicate 4 none) none none none scale

/-- A part with two stressings three bays apart: a span of 3 would make them a conflicting pair. -/
def twoStressings : State :=
  let s := working .running (.stress str0)
  { (s.putStation 2 { stationFor .stress with ctx := some 1 }).putCtx 1
      { ctx0 .running (.stress str0) with slot := 510, station := 2 } with
    tbc := { s.tbc with
      slots := [(510, Slot.mk 0 (some { rec0 .stressing with bay := 397, context := some 1 })),
        (511, Slot.mk 65535 (some { rec0 .stressing with context := some 0 }))] } }

/-- A SITE_WRITE of a span and a time scale alone is in range where they are. -/
theorem items_in_range {span scale : Option Nat} {mode : StartMode} (h1 : ∀ n, span = some n → n ≤ 4)
    (h2 : ∀ n, scale = some n → n = 1 ∨ mode = .commission ∧ (n = 10 ∨ n = 60)) : SiteInRange (items span scale) mode := by
  refine ⟨fun n h => ⟨Nat.zero_le _, h1 n h⟩, fun i => ?_, nofun, nofun, fun i => ?_, nofun, nofun, nofun, h2⟩
  · have e : ∀ j : Fin 17, (Vector.replicate 17 (none : Option Nat))[j] = none := by decide
    intro n h
    exact nomatch (e i).symm.trans h
  · have e : ∀ j : Fin 4, (Vector.replicate 4 (none : Option InputCodes))[j] = none := by decide
    intro y h
    exact nomatch (e i).symm.trans h

/-- Hypotheses of SiteWriteSetsTheCarriedSettings: CONFLICT, IN_USE, taken, and a span out of range. -/
theorem witness_site_write : Served twoStressings sup .siteWrite ∧ SiteInRange (items (some 3) none) twoStressings.sys.mode ∧
    pairAtSpan twoStressings 3 = true ∧
    (∃ s : State, s = { twoStressings with sys := { twoStressings.sys with mode := .commission } } ∧ Served s sup .siteWrite ∧
      SiteInRange (items none (some 10)) s.sys.mode ∧ s.wck.scale ≠ 10 ∧ s.cxp.contexts.isEmpty = false) ∧
    Served idle sup .siteWrite ∧ SiteInRange (items (some 4) (some 1)) idle.sys.mode ∧ idle.cxp.contexts = [] ∧
    ¬ SiteInRange (items (some 5) none) idle.sys.mode :=
  ⟨served_of (by decide +kernel), items_in_range (by rintro n ⟨⟩; decide) nofun, by decide +kernel, ⟨_, rfl,
    served_of (by decide +kernel), items_in_range nofun (by rintro n ⟨⟩; exact .inr ⟨rfl, .inl rfl⟩), by decide +kernel,
    by decide +kernel⟩, served_of (by decide +kernel),
    items_in_range (by rintro n ⟨⟩; decide) (by rintro n ⟨⟩; exact .inl rfl), by decide,
    fun h => absurd (h.1 5 rfl).2 (by decide)⟩

/-- Input 1 becomes an enabled stop loop that asserts at a closed contact, with no filter. -/
def newLoop : SiteItems := { items none none with
  inputs := (Vector.replicate 4 none).set 1 (some { enable := 1, polarity := 2, filter := 0, function := 2 }) }

/-- Hypotheses of SiteWriteRelevelsTheListAndTheInputs: the write is taken, and the new loop, closed, stops the site. -/
theorem witness_site_relevel : Served idle sup .siteWrite ∧ SiteItems.ok newLoop idle.sys.mode = true ∧ newLoop.span = none ∧
    newLoop.scale = none ∧ ((after (exec (.siteWrite sup newLoop) idle)).ifu.stop = some { input := 1, time := 0 }) :=
  ⟨served_of (by decide +kernel), by decide +kernel, rfl, rfl, by decide +kernel⟩

/-- Hypotheses of ReadsAnswerAndChangeNothing. -/
theorem witness_reads : Served idle sup .siteRead ∧ Served idle sup .classRead ∧ idle.classAt 0 = some class0 ∧
    Served idle sup .calRead ∧ idle.calAt 1 = some cal0 ∧ Served idle sup .inputRead ∧ Served idle sup .stationRead ∧
    Served idle sup .lineRead ∧ idle.classAt 15 = none ∧ idle.calAt 15 = none ∧ TableLaw idle ∧
    (Served idle sup .attentionRead ∧ (63 : Nat) ≤ 63) :=
  ⟨served_of (by decide +kernel), served_of (by decide +kernel), by decide +kernel, served_of (by decide +kernel),
    by decide +kernel, served_of (by decide +kernel), served_of (by decide +kernel), served_of (by decide +kernel),
    by decide +kernel, by decide +kernel, tableLaw_of_check (by decide +kernel), served_of (by decide +kernel), by decide⟩

/-- The one live record of `holding` stands in row 12. -/
theorem live_row {s : State} {row bay n : Nat} (h : s.tbc.map = [(4799, 511)]) (h1 : 1 ≤ row) (h2 : row < 12) (h3 : 1 ≤ bay)
    (h4 : bay ≤ 400) : s.liveAt row bay ≠ some n := by
  intro e
  have := Table.mem_of_get? e
  rw [h, List.mem_singleton, Prod.mk.injEq] at this
  have e2 : (row - 1) * 400 + (bay - 1) = 4799 := this.1
  omega

/-- With a PLANNED record in row 12 and nothing else, the query value is 11 and the record blocks row 12; the hypotheses of
DigReleaseStopsAtTheQueryValue at 11 and 12. -/
theorem witness_dig : Served (holding (rec0 .planned)) sup .digQuery ∧ Served (holding (rec0 .planned)) sup .digSet ∧
    TableLaw (holding (rec0 .planned)) ∧ QueryValue (holding (rec0 .planned)) 11 ∧ Blocks (holding (rec0 .planned)) 12 511 ∧
    (∀ m, Blocks (holding (rec0 .planned)) 12 m → 511 ≤ m) ∧ (holding (rec0 .planned)).tbc.site.digRow < 12 := by
  have one : ∀ bay n, (holding (rec0 .planned)).liveAt 12 bay = some n → n = 511 := by
    intro bay n e
    have := Table.mem_of_get? e
    simp [holding, rec0] at this
    exact this.2
  refine ⟨served_of (by decide +kernel), served_of (by decide +kernel), tableLaw_of_check (by decide +kernel),
    ⟨by decide, ?_, fun _ => ?_⟩, ⟨400, rec0 .planned, by decide, by decide, by decide +kernel, by decide +kernel, by decide⟩,
    ?_, by decide +kernel⟩
  · intro row h1 h2
    refine Or.inr fun bay n r h3 h4 e => ?_
    exact absurd e (live_row rfl h1 (by omega) h3 h4)
  · rintro (h | h)
    · exact absurd h (by decide +kernel)
    · exact absurd (h 400 511 (rec0 .planned) (by decide) (by decide) (by decide +kernel) (by decide +kernel)) (by decide)
  · rintro m ⟨bay, r, _, _, e, _⟩
    exact Nat.le_of_eq (one bay m e).symm

/-- Hypotheses of RelieveSetsAndClearsTheFlag: row 12 relieved with a destressing in it, and without; row 13 out of range. -/
theorem witness_relieve : Served (working .running (.destress des0)) sup .relieve ∧
    TableLaw (working .running (.destress des0)) ∧ WorkLaw (working .running (.destress des0)) ∧
    (working .running (.destress des0)).isRelieved 12 = true ∧ (working .running (.destress des0)).tbc.site.digRow < 12 ∧
    (working .running (.destress des0)).ctxAt 0 = some (ctx0 .running (.destress des0)) ∧
    (∃ s : State, s = { working .running (.destress des0) with tbc := { (working .running (.destress des0)).tbc with
        site := { (working .running (.destress des0)).tbc.site with digRow := 12 } } } ∧ Served s sup .relieve ∧ TableLaw s ∧
      WorkLaw s ∧ s.isRelieved 12 = true ∧ ¬ AllLocked s 12) ∧
    Served idle sup .relieve ∧ TableLaw idle ∧ WorkLaw idle := by
  refine ⟨served_of (by decide +kernel), tableLaw_of_check (by decide +kernel), workLaw_of_check (by decide +kernel),
    by decide +kernel, by decide +kernel, by decide +kernel, ⟨_, rfl, served_of (by decide +kernel),
    tableLaw_of_check (by decide +kernel), workLaw_of_check (by decide +kernel), by decide +kernel, fun h => ?_⟩,
    served_of (by decide +kernel), tableLaw_of_check (by decide +kernel), workLaw_of_check (by decide +kernel)⟩
  exact absurd (h 400 511 _ (by decide) (by decide) (by decide +kernel) rfl) (by decide +kernel)

/-- Hypotheses of CalWriteReplacesTheTable: a table of five points, one of a single point, and the states of the station. -/
theorem witness_cal_write : Served (ready .stress (rec0 .ready)) sup .calWrite ∧
    ((ready .stress (rec0 .ready)).stationAt 1).kind = .jack ∧ ((ready .stress (rec0 .ready)).stationAt 1).ctx = none ∧
    CalSound cal0 ∧ ¬ 2 ≤ [CalPoint.mk 1 1].length ∧ Served (working .running (.stress str0)) sup .calWrite ∧
    ((working .running (.stress str0)).stationAt 1).kind = .jack ∧ ((working .running (.stress str0)).stationAt 1).ctx ≠ none ∧
    Served idle sup .calWrite ∧ (idle.stationAt 1).kind ≠ .jack :=
  ⟨served_of (by decide +kernel), by decide +kernel, by decide +kernel, by unfold CalSound; decide +kernel, by decide,
    served_of (by decide +kernel), by decide +kernel, by decide +kernel, served_of (by decide +kernel), by decide +kernel⟩

/-! ## Witnesses: bindings, conditions, the clock and the inputs -/

/-- Hypotheses of BindAndUnbindMoveTheChannel, on channel 7 of station 15. -/
theorem witness_bind : Served (watched (rec0 .locked) []) sup .bind ∧ (watched (rec0 .locked) []).recAt 511 = some (rec0 .locked) ∧
    (watched (rec0 .locked) []).revAt 511 = 65535 ∧ ((watched (rec0 .locked) []).stationAt 15).kind = .monitor ∧
    7 < ((watched (rec0 .locked) []).stationAt 15).param.getD 0 ∧ (watched (rec0 .locked) []).channels.get? 127 = none ∧
    Served (watched (rec0 .locked) [(127, 0)]) sup .bind ∧ (watched (rec0 .locked) [(127, 0)]).channels.get? 127 = some 0 ∧
    Served (watched (rec0 .ready) []) sup .bind ∧ Served (watched (rec0 .ready) []) sup .unbind ∧
    Served (watched (rec0 .locked) []) sup .unbind ∧ Served (holding (rec0 .locked)) sup .bind ∧
    ((holding (rec0 .locked)).stationAt 15).kind ≠ .monitor :=
  ⟨served_of (by decide +kernel), by decide +kernel, by decide +kernel, by decide +kernel, by decide +kernel,
    by decide +kernel, served_of (by decide +kernel), by decide +kernel, served_of (by decide +kernel),
    served_of (by decide +kernel), served_of (by decide +kernel), served_of (by decide +kernel), by decide +kernel⟩

/-- A part in a site stop at input 0, whose loop is closed again. -/
def stopped : State := { idle with ifu := { idle.ifu with stop := some { input := 0, time := 0 } } }

/-- Hypotheses of ClearRemovesACondition, clause by clause. -/
theorem witness_clear : Served (holding { rec0 .locked with conds := [.burst] }) sup .clear ∧
    (holding { rec0 .locked with conds := [.burst] }).recAt 0 = none ∧
    (holding { rec0 .suspect with conds := [.imageSuspect] }).recAt 511 = some { rec0 .suspect with conds := [.imageSuspect] } ∧
    Served stopped sup .clear ∧ stopped.ifu.stop ≠ none ∧ Served idle sup .clear ∧ idle.ifu.stop = none ∧
    (∀ subj : Subject, subj.kindCode = 1 → Cond.siteStop.allowedOn subj = false) :=
  ⟨served_of (by decide +kernel), by decide +kernel, by decide +kernel, served_of (by decide +kernel), by decide +kernel,
    served_of (by decide +kernel), by decide +kernel, by
      intro subj h
      cases subj with
      | record n => rfl
      | station n => rfl
      | line l => rfl
      | site => cases h⟩

/-- Hypotheses of ReadsAnswerAndChangeNothing for ATTENTION_READ (start 63 and 64) and of TimeSetStartsTheClock. -/
theorem witness_attention_time : Served idle sup .attentionRead ∧ Served idle sup .timeSet ∧ TableLaw idle ∧
    idle.wck.clock = .running ∧ idle.wck.time = 0 ∧
    (∃ s : State, s = { idle with wck := { time := 5, clock := .held, scale := 1 } } ∧ Served s sup .timeSet ∧ TableLaw s ∧
      4 < s.wck.time ∧ s.wck.time ≤ 5 ∧ s.wck.clock = .held) :=
  ⟨served_of (by decide +kernel), served_of (by decide +kernel), tableLaw_of_check (by decide +kernel), by decide +kernel,
    by decide +kernel, _, rfl, served_of (by decide +kernel), tableLaw_of_check (by decide +kernel), by decide, by decide,
    rfl⟩

/-- Hypotheses of ReleaseEndsASiteStop, clause by clause. -/
theorem witness_release : Served idle sup .release ∧ idle.ifu.stop = none ∧ Served stopped sup .release ∧
    stopped.ifu.stop ≠ none ∧ stopDemand stopped.tbc.site stopped.ifu = false ∧
    (¬ ∃ i : Fin 4, stopped.tbc.site.inputs[i].function = .permit) ∧
    (∃ s : State, s = { stopped with ifu := { stopped.ifu with
        inputs := stopped.ifu.inputs.set 0 { pin := .opened, accepted := .opened, pendingChange := false } } } ∧
      Served s sup .release ∧ stopDemand s.tbc.site s.ifu = true) ∧
    (∃ s : State, s = { stopped with tbc := { stopped.tbc with site := { stopped.tbc.site with
        inputs := stopped.tbc.site.inputs.set 3 { InputSettings.other with function := .permit } } } } ∧
      Served s sup .release ∧ stopDemand s.tbc.site s.ifu = false ∧ s.tbc.site.inputs[3].function = .permit ∧
      permitPresent s.tbc.site s.ifu = false) :=
  ⟨served_of (by decide +kernel), by decide +kernel, served_of (by decide +kernel), by decide +kernel, by decide +kernel,
    by decide +kernel, ⟨_, rfl, served_of (by decide +kernel), by decide +kernel⟩, _, rfl, served_of (by decide +kernel),
    by decide +kernel, by decide +kernel, by decide +kernel⟩

/-- Hypotheses of RequestAndKeyRestartTheCabinet, with a context bound. -/
theorem witness_restart : Served idle sup .restart ∧ (∃ s : State, s = { working .running (.stress str0) with
      bmu := { (working .running (.stress str0)).bmu with exchange := .answer sup (answerTo .restart .done []) .restart } } ∧
      WorkLaw s) ∧
    (∃ s : State, s = { working .running (.stress str0) with ifu := { (working .running (.stress str0)).ifu with
      key := .timing 3000 } } ∧ WorkLaw s ∧ s.sys.rst = false ∧ s.sys.phase = .up) ∧
    (∃ s : State, s = { idle with ifu := { idle.ifu with key := .timing 3000 }, sys := { idle.sys with rst := true } } ∧
      s.sys.rst = true) ∧ idle.ifu.key = .idle :=
  ⟨served_of (by decide +kernel), ⟨_, rfl, workLaw_of_check (by decide +kernel)⟩,
    ⟨_, rfl, workLaw_of_check (by decide +kernel), by decide +kernel, by decide +kernel⟩, ⟨_, rfl, rfl⟩, rfl⟩

/-! ## Witnesses: stations and lines -/

/-- A change of the kind of station 15 with its binding lost, of a bound station, and of the last line. -/
theorem witness_station_write : Served (watched (rec0 .locked) []) sup .stationWrite ∧ TableLaw (watched (rec0 .locked) []) ∧
    ((watched (rec0 .locked) []).stationAt 15).ctx = none ∧
    Covers idle.lineStates idle.lineStates (fun m => (idle.stationAt m).inhibits) (fun m => (idle.stationAt m).kind) ∧
    ¬ Covers idle.lineStates idle.lineStates (fun m => if m = 0 then { a := true, b := true } else (idle.stationAt m).inhibits)
      (fun m => (idle.stationAt m).kind) ∧
    Served (working .running (.stress str0)) sup .stationWrite ∧
    ((working .running (.stress str0)).stationAt 1).ctx ≠ none := by
  refine ⟨served_of (by decide +kernel), tableLaw_of_check (by decide +kernel), by decide +kernel,
    ⟨⟨.a, Or.inl rfl, rfl⟩, fun _ => ⟨⟨.a, rfl⟩, ?_⟩⟩, ?_, served_of (by decide +kernel), by decide +kernel⟩
  · intro n hn _
    refine ⟨.a, rfl, ?_⟩
    have h : ∀ m : Fin 16, inhibitedOn (idle.stationAt m).inhibits .a = false := by decide +kernel
    exact h ⟨n, hn⟩
  · rintro ⟨⟨l, -, h⟩, -⟩
    cases l <;> cases h

/-- A part whose Line B is QUIET. -/
def quietB (x : LineState) (t : Option LineTest) : State :=
  { idle with bmu := { idle.bmu with lineB := { idle.bmu.lineB with state := x, test := t } } }

/-- A test of 255 repetitions before its last copy. -/
def lastCopy : LineTest := LineTest.mk 255 254 255 .sending (Vector.replicate 16 0)

/-- Line A stays ACTIVE, whatever Line B becomes. -/
theorem covers_a (s : State) (h : s = quietB .quiet none) (after : LineId → LineState) (ha : after .a = .active) :
    Covers s.lineStates after (fun n => (s.stationAt n).inhibits) (fun n => (s.stationAt n).kind) := by
  subst h
  refine ⟨⟨.a, Or.inl ha, rfl⟩, fun _ => ⟨⟨.a, ha⟩, fun n hn _ => ⟨.a, ha, ?_⟩⟩⟩
  have h : ∀ m : Fin 16, inhibitedOn ((quietB .quiet none).stationAt m).inhibits .a = false := by decide +kernel
  exact h ⟨n, hn⟩

/-- Hypotheses of LineWriteSetsTheLineAndTestsIt, clause by clause. -/
theorem witness_line_write : Served (quietB .quiet none) sup .lineWrite ∧ ((quietB .quiet none).lineAt .b).state = .quiet ∧
    Covers (quietB .quiet none).lineStates (fun m => if m = .b then .active else (quietB .quiet none).lineStates m)
      (fun n => ((quietB .quiet none).stationAt n).inhibits) (fun n => ((quietB .quiet none).stationAt n).kind) ∧
    Covers (quietB .quiet none).lineStates (fun m => if m = .b then .testing else (quietB .quiet none).lineStates m)
      (fun n => ((quietB .quiet none).stationAt n).inhibits) (fun n => ((quietB .quiet none).stationAt n).kind) ∧
    ¬ Covers (quietB .quiet none).lineStates (fun m => if m = .a then .quiet else (quietB .quiet none).lineStates m)
      (fun n => ((quietB .quiet none).stationAt n).inhibits) (fun n => ((quietB .quiet none).stationAt n).kind) ∧
    Served (quietB .testing (some lastCopy)) sup .lineWrite ∧ ((quietB .testing (some lastCopy)).lineAt .b).state = .testing ∧
    ((quietB .testing (some lastCopy)).lineAt .b).test = some lastCopy ∧ lastCopy.phase = .sending ∧
    (∃ s : State, s = { quietB .testing (some { lastCopy with phase := .answering }) with
        bmu := { (quietB .testing (some { lastCopy with phase := .answering })).bmu with
          exchange := .answer sup (answerTo .lineWrite .done []) (.test .b) } } ∧
      (s.lineAt .b).test = some { lastCopy with phase := .answering }) := by
  refine ⟨served_of (by decide +kernel), by decide, covers_a _ rfl _ rfl, covers_a _ rfl _ rfl, ?_,
    served_of (by decide +kernel), by decide, by decide, by decide, _, rfl, by decide⟩
  rintro ⟨-, h⟩
  obtain ⟨⟨l, hl⟩, -⟩ := h ⟨.a, rfl⟩
  cases l <;> cases hl

/-- A part in the turn of station 1. -/
def turnOf (s : State) (u : Turn) (x : Exchange) : State := { s with bmu := { s.bmu with turn := some u, exchange := x } }

/-- The last attempt of a turn, on Line A. -/
def tried (n tries : Nat) : Turn :=
  { station := n, tries := tries, retry := 1, lastLine := some .a, fetches := 0, fetchLine := none }

/-- Hypotheses of ScanGivesEachStationItsTurn, clause by clause; HasTurn of station 0 and of none. -/
theorem witness_scan : (idle.busUp = true ∧ idle.bmu.turn = none ∧ idle.bmu.exchange = .idle ∧ HasTurn idle 0) ∧
    (({ idle with sys := { idle.sys with rst := true } } : State).busUp = false) ∧
    ((turnOf idle (freshTurn 0) .idle).busUp = true ∧ (turnOf idle (freshTurn 0) .idle).usable 0 .a = true ∧
      (freshTurn 0).fetchLine = none ∧ (idle.stationAt 0).preferred = .a) ∧
    (∃ s : State, s = turnOf (idle.eachLine (fun x => { x with state := .disabled })) (freshTurn 0) .idle ∧
      s.busUp = true ∧ s.usable 0 .a = false ∧ s.usable 0 .b = false) ∧
    (turnOf idle { freshTurn 0 with fetchLine := some .a } .idle).busUp = true ∧
    (∃ (u : Turn) (h : Ask), u = { freshTurn 0 with fetches := 3 } ∧ h = { sup with further := true } ∧ u.fetches < 4 ∧
      u.station = h.station ∧ h.further = true ∧
      (turnOf idle u (.answer h (answerTo .siteRead .done []) .nothing)).usable 0 .a = true) ∧
    sup.further = false :=
  ⟨⟨by decide +kernel, rfl, rfl, by decide, by decide +kernel, .a, by decide +kernel⟩, by decide +kernel,
    ⟨by decide +kernel, by decide +kernel, rfl, by decide +kernel⟩, ⟨_, rfl, by decide +kernel, by decide +kernel,
      by decide +kernel⟩, by decide +kernel, ⟨_, _, rfl, rfl, by decide, rfl, rfl, by decide +kernel⟩, rfl⟩

/-- A winch in the window of its CALL. -/
def winchWindow : State := turnOf (working .suspended (.insert ins0)) (tried 1 1) (.call 1 .a)

/-- Hypotheses of ReplyMakesTheStationPresent and of WinchReplyCountsThePulses: a growth of 32,767 from baseline 64,000; a
reply of another kind, one in the window of another CALL, and one on the other line. -/
theorem witness_reply : WorkLaw winchWindow ∧ winchWindow.busUp = true ∧
    (∀ t, winchWindow.bmu.exchange = .call 1 .a ∧ winchWindow.bmu.turn = some (tried 1 1) ∧
      declaredKind (winchAt t) = (winchWindow.stationAt 1).kind) ∧ (winchWindow.stationAt 1).ctx = some 0 ∧
    winchWindow.ctxAt 0 = some (ctx0 .suspended (.insert ins0)) ∧ (winchWindow.recAt 511).bind winchWindow.classOf = some class0 ∧
    ins0.baseline < 65536 ∧ (ins0.baseline + 32767) % 65536 = 31231 ∧
    declaredKind (.grout 0 0) ≠ (winchWindow.stationAt 1).kind ∧
    (∃ s : State, s = turnOf (watched (rec0 .locked) []) (tried 15 1) (.call 15 .a) ∧ WorkLaw s ∧
      (s.stationAt 15).kind = .monitor ∧ ([] : List (Nat × Bool)).length ≠ (s.stationAt 15).param.getD 0) ∧
    winchWindow.bmu.exchange = .call 1 (otherLine .b) :=
  ⟨workLaw_of_check (by decide +kernel), by decide +kernel, fun _ => ⟨rfl, rfl, rfl⟩, by decide +kernel, by decide +kernel,
    by decide +kernel, by decide, by decide, by decide, ⟨_, rfl, workLaw_of_check (by decide +kernel), by decide +kernel,
    by decide +kernel⟩, rfl⟩

/-- The rest of its hypotheses: a reply of a PRESENT winch, and of a station that is not enrolled, with no exchange in progress,
and one while an ANSWER is sent. -/
theorem witness_reply_idle : (∃ s : State, s = working .running (.insert ins0) ∧ s.busUp = true ∧ s.bmu.exchange = .idle ∧
      (s.stationAt 1).state ≠ .unused ∧ s.usable 1 .a = true ∧ declaredKind (winchAt 0) = (s.stationAt 1).kind ∧
      (s.stationAt 15).state = .unused) ∧
    ∃ s : State, s = { idle with bmu := { idle.bmu with exchange := .answer sup (answerTo .siteRead .done []) .nothing } } ∧
      s.busUp = true :=
  ⟨⟨_, rfl, by decide +kernel, rfl, by decide +kernel, by decide +kernel, by decide, by decide +kernel⟩, _, rfl,
    by decide +kernel⟩

/-- A LOCKED record on channel 7 of station 15, with lock-off load 5,272. -/
def boundRec : Record := { rec0 .locked with lockoffLoad := some 5272, binding := some { station := 15, channel := 7 } }

/-- Hypotheses of UnboundRepliesAreReadAndEndTheUnload: a monitor's reading that drifts by 528, and a jack whose parting order
ends at the upper edge of its end condition, and not one above it. -/
theorem witness_monitor : (∃ s : State, s = turnOf (watched boundRec [(127, 511)]) (tried 15 1) (.call 15 .a) ∧
      s.busUp = true ∧ (s.stationAt 15).kind = .monitor ∧ (s.stationAt 15).ctx = none ∧ (s.stationAt 15).param = some 8 ∧
      TableLaw s ∧ ChannelLaw s ∧ s.channels.get? (15 * 8 + 7) = some 511 ∧ s.recAt 511 = some boundRec ∧
      (List.replicate 7 (0, false) ++ [(5800, true)])[7]? = some (5800, true) ∧ boundRec.lockoffLoad = some 5272) ∧
    ∃ s : State, s = turnOf { ready .stress (rec0 .failed) with
        cxp := { contexts := [], parting := [(1, unloadParting class0 cal0)] } } (tried 1 1) (.call 1 .a) ∧
      s.busUp = true ∧ (s.stationAt 1).kind = .jack ∧ (s.stationAt 1).ctx = none ∧
      s.cxp.parting.get? 1 = some (unloadParting class0 cal0) ∧
      (unloadParting class0 cal0).until? = some ((pressureOf cal0 384).1, (pressureOf cal0 576).1) :=
  ⟨⟨_, rfl, by decide +kernel, by decide +kernel, by decide +kernel, by decide +kernel, tableLaw_of_check (by decide +kernel),
      channelLaw_of_check (by decide +kernel), by decide +kernel, by decide +kernel, by decide, rfl⟩,
    _, rfl, by decide +kernel, by decide +kernel, by decide +kernel, by decide +kernel, by decide +kernel⟩

/-- What its list clause speaks of: the drift of that reading is new. -/
theorem witness_drift : newDrifts (turnOf (watched boundRec [(127, 511)]) (tried 15 1) (.call 15 .a)) 15
    (List.replicate 7 (0, false) ++ [(5800, true)]) = [511] ∧
    newDrifts (turnOf (watched boundRec [(127, 511)]) (tried 15 1) (.call 15 .a)) 15
      (List.replicate 7 (0, false) ++ [(5799, true)]) = [] := by decide +kernel

/-- Hypotheses of FailedWindowCountsAgainstTheStation: an attempt left, none left at one below the silence limit, an attempt
left but no line, a FETCH, and no window at all. -/
theorem witness_failed : (tried 1 1).tries ≤ (tried 1 1).retry ∧ HasTurn winchWindow 1 ∧
    winchWindow.bmu.exchange = .call (tried 1 1).station .a ∧
    (∃ s : State, s = (turnOf (working .running (.insert ins0)) (tried 1 2) (.call 1 .a)).putStation 1
        { (working .running (.insert ins0)).stationAt 1 with failures := 4 } ∧ (tried 1 2).retry < (tried 1 2).tries ∧
      (s.stationAt 1).state = .present ∧ s.tbc.site.silence ≤ min 255 ((s.stationAt 1).failures + 1)) ∧
    (winchWindow.stationAt 1).failures + 1 < winchWindow.tbc.site.silence ∧
    ¬ HasTurn (winchWindow.putStation 1 Station.unenrolled) 1 ∧
    (turnOf idle (freshTurn 0) (.fetch 0 .a)).bmu.exchange = .fetch 0 .a ∧ idle.bmu.exchange = .idle := by
  refine ⟨by decide, ⟨by decide, by decide +kernel, .a, by decide +kernel⟩, rfl, ⟨_, rfl, by decide, by decide +kernel,
    by decide +kernel⟩, by decide +kernel, fun h => ?_, rfl, rfl⟩
  exact absurd h.2.1 (by decide +kernel)

/-- Hypotheses of NoiseIsCountedAndAllstopSent: a free line and one in an exchange, the last turn, an owed ALLSTOP, and one that
waits for the ANSWER of the request that began the stop. -/
theorem witness_noise : idle.bmu.exchange.holds .b = false ∧ (turnOf idle (freshTurn 0) (.fetch 0 .a)).bmu.exchange.holds .a = true ∧
    (∀ m, 0 + 1 ≤ m → ¬ HasTurn (turnOf idle (freshTurn 0) (.fetch 0 .a)) m) ∧
    (∃ s : State, s = idle.eachLine (fun x => { x with allstopDue := true }) ∧ s.busUp = true ∧
      (s.lineAt .a).allstopDue = true ∧ (s.lineAt .a).state = .active ∧ s.bmu.exchange.holds .a = false ∧
      ∀ h a, s.bmu.exchange ≠ .answer h a .allstop) ∧
    (∃ s : State, s = idle.setExchange (.answer sup (answerTo .siteWrite .done []) .allstop) ∧
      s.bmu.exchange.holds .b = false ∧ ∃ h a, s.bmu.exchange = .answer h a .allstop) ∧
    (idle.lineAt .a).allstopDue = false := by
  refine ⟨by decide +kernel, by decide +kernel, ?_, ⟨_, rfl, by decide +kernel, by decide +kernel, by decide +kernel,
    by decide +kernel, nofun⟩, ⟨_, rfl, by decide +kernel, _, _, rfl⟩, by decide +kernel⟩
  rintro m h1 ⟨h2, h3, -⟩
  have h : ∀ k : Fin 16, k.val ≠ 0 → ((turnOf idle (freshTurn 0) (.fetch 0 .a)).stationAt k).state = .unused := by
    decide +kernel
  exact h3 (h ⟨m, h2⟩ (by simp; omega))

/-! ## Witnesses: used replies -/

/-- A part in the window of the CALL of station 1, which context 0 binds with a progress. -/
def window (run : RunState) (prog : Progress) : State := turnOf (working run prog) (tried 1 1) (.call 1 .a)

/-- The record that a kind of context works on. -/
def workRec (k : CtxKind) : Record := { neededBy k with state := k.workState, context := some 0 }

/-- A reply without BUSY, of the kind that the progress needs, is a used one in that window. -/
theorem used {run : RunState} {prog : Progress} {y : Reply} (w : workOk (window run prog) = true) (hb : y.busy = false)
    (hd : declaredKind y.data = prog.kind.stationKind) :
    UsedReply (window run prog) 1 .a y 0 (ctx0 run prog) (workRec prog.kind) class0 := by
  refine ⟨workLaw_of_check w, by decide, rfl, rfl, ⟨_, rfl, rfl⟩, ?_, hb, rfl, rfl, rfl, rfl, ?_⟩
  · rw [hd]; cases prog <;> rfl
  · cases prog <;> rfl

/-- The same with the calibration of station 1, for a stressing. -/
theorem used_stress {run : RunState} {p : JackProg} {y : Reply} (w : workOk (window run (.stress p)) = true)
    (hb : y.busy = false) (hd : declaredKind y.data = .jack) :
    JackReply (window run (.stress p)) 1 .a y 0 (ctx0 run (.stress p)) (workRec .stress) class0 cal0 true p :=
  ⟨used w hb hd, rfl, rfl⟩

/-- And for a destressing. -/
theorem used_destress {run : RunState} {p : JackProg} {y : Reply} (w : workOk (window run (.destress p)) = true)
    (hb : y.busy = false) (hd : declaredKind y.data = .jack) :
    JackReply (window run (.destress p)) 1 .a y 0 (ctx0 run (.destress p)) (workRec .destress) class0 cal0 false p :=
  ⟨used w hb hd, rfl, rfl⟩

/-- A reply with SRQ. -/
def heard (data : Telemetry) : Reply := { srq := true, busy := false, fault := false, data := data }

/-- Hypotheses of PumpReplyMakesItsStepsInOrder, with a pressure at the burst limit; a total at the cap below it; the refusal
time reached in RUNNING, and in a context that a site stop holds; 216 pulses of 250 are the cap, one less goes on. -/
theorem witness_pump_reply :
    UsedReply (window .running (.grout gro0)) 1 .a (heard (.grout 41 4000)) 0 (ctx0 .running (.grout gro0)) (workRec .grout)
      class0 ∧
    UsedReply (window .stopped (.grout gro0)) 1 .a (heard (.grout 41 3999)) 0 (ctx0 .stopped (.grout gro0)) (workRec .grout)
      class0 ∧
    gro0.baseline < 65536 ∧ (gro0.baseline + 32768) % 65536 = 32809 ∧ class0.burst = 4000 ∧
    volume { gro0 with total := 216 } = class0.theoVol * class0.volCap / 100 ∧
    volume { gro0 with total := 215 } < class0.theoVol * class0.volCap / 100 ∧
    (heardContext (window .running (.grout gro0)) (ctx0 .running (.grout gro0))).run = .running ∧
    class0.refPress ≤ 1500 ∧ class0.refTime ≤ ({ gro0 with counting := true, refTimer := 120 } : GroutProg).refTimer :=
  ⟨used (by decide +kernel) rfl rfl, used (by decide +kernel) rfl rfl, by decide, by decide, by decide, by decide,
    by decide, by decide, by decide, by decide⟩

/-- Hypotheses of JackReplyIsCheckedBeforeItsPhase: a load over the limit that is in range, one at the last calibration point
and one past it; the search limit passed by one; a context that a site stop holds and a FAULT. -/
theorem witness_jack_checks :
    JackReply (window .running (.stress str0)) 1 .a (heard (jackAt 80001 150)) 0 (ctx0 .running (.stress str0))
      (workRec .stress) class0 cal0 true str0 ∧
    loadOf cal0 80001 = (8180, true) ∧ overloadLimit class0 = 7560 ∧ LoadPasses class0 cal0 4700 ∧
    JackReply (window .running (.destress des0)) 1 .a (heard (jackAt 62010 150)) 0 (ctx0 .running (.destress des0))
      (workRec .destress) class0 cal0 false des0 ∧
    LoadPasses class0 cal0 62010 ∧ (loadOf cal0 62010).1 = 6327 ∧ des0.phase = .liftoff ∧ des0.liftoff = none ∧
    searchLimit ((workRec .destress).lockoffLoad.getD 0) = 6326 ∧
    ¬ InFull (window .running (.stress str0)) (ctx0 .stopped (.stress str0)) str0 true false ∧
    ¬ InFull (window .running (.stress str0)) (ctx0 .running (.stress str0)) str0 true true ∧
    ¬ InFull (window .running (.stress str0)) (ctx0 .running (.stress str0)) { str0 with register := .opened } true false := by
  unfold LoadPasses InFull
  exact ⟨used_stress (by decide +kernel) rfl rfl, by decide +kernel, by decide +kernel, by decide +kernel,
    used_destress (by decide +kernel) rfl rfl, by decide +kernel, by decide +kernel, by decide, by decide, by decide,
    by decide +kernel, by decide +kernel, by decide +kernel⟩

/-- A progress in TEST. -/
def test0 : JackProg := { str0 with phase := .test, order := .pressure 70485 }

/-- A test hold with its first reading, or none. -/
def hold0 (elapsed : Nat) (first : Option Reading) : JackProg :=
  { test0 with phase := .holdA, elapsed := elapsed, counting := true, atA0 := first }

/-- Hypotheses of BandPhaseFollowsTheLoad: the datum phase in APPROACH, holding and with a due advance; a load at the edge of
its band and one past it; TEST with a load in the band; and a context that does not run. -/
theorem witness_band_phase :
    JackReply (window .running (.stress str0)) 1 .a (heard (jackAt 4700 150)) 0 (ctx0 .running (.stress str0))
      (workRec .stress) class0 cal0 true str0 ∧ BandPhase str0 ∧ LoadPasses class0 cal0 4700 ∧
    (replied class0 (workRec .stress) cal0 true str0 false 1000 475 150 false).last = some { pressure := 1000, load := 475, stroke := 150, ext := 0 } ∧
    InFull (window .running (.stress str0)) (ctx0 .running (.stress str0)) str0 true false ∧
    (str0.pendingAdv = false ∧ str0.holding = false ∧ Within class0 (phaseLoad class0 (workRec .stress) str0) 576 ∧
      ¬ Within class0 (phaseLoad class0 (workRec .stress) str0) 577) ∧
    JackReply (window .running (.stress { str0 with holding := true, pendingAdv := true })) 1 .a (heard (jackAt 4700 150)) 0
      (ctx0 .running (.stress { str0 with holding := true, pendingAdv := true })) (workRec .stress) class0 cal0 true
      { str0 with holding := true, pendingAdv := true } ∧
    JackReply (window .stopped (.stress test0)) 1 .a (heard (jackAt 70485 150)) 0 (ctx0 .stopped (.stress test0))
      (workRec .stress) class0 cal0 true test0 ∧
    Within class0 (phaseLoad class0 (workRec .stress) test0) 7200 ∧ (loadOf cal0 70485).1 = 7200 := by
  unfold LoadPasses InFull Within BandPhase
  exact ⟨used_stress (by decide +kernel) rfl rfl, by decide +kernel, by decide +kernel, by decide +kernel,
    by decide +kernel, by decide +kernel, used_stress (by decide +kernel) rfl rfl, used_stress (by decide +kernel) rfl rfl,
    by decide +kernel, by decide +kernel⟩

/-- Hypotheses of TestHoldTakesItsReadings: a reply 20 seconds past a time, and one later; a hold that the tA1 reading closes at
the creep limit, and one it does not; a failed creep B. -/
theorem witness_test_hold :
    JackReply (window .running (.stress (hold0 80 none))) 1 .a (heard (jackAt 70485 150)) 0
      (ctx0 .running (.stress (hold0 80 none))) (workRec .stress) class0 cal0 true (hold0 80 none) ∧
    LoadPasses class0 cal0 70485 ∧ (hold0 80 none).phase = .holdA ∧ ¬ TestLate class0 (hold0 80 none) ∧
    TestLate class0 (hold0 81 none) ∧
    (let r0 := hold0 600 (some { ext := 0, load := 7200 })
     ({ r0 with atB0 := some { ext := 0, load := 7200 } } : JackProg).elapsed = 600 ∧
      (testJudged class0 r0 { ext := 100, load := 7200 }).closing = some { ext := 100, load := 7200 } ∧
      (testJudged class0 r0 { ext := 101, load := 7200 }).phase = .holdB) ∧
    (∃ j : JackProg, j = testJudged class0
        { hold0 3600 (some { ext := 0, load := 7200 }) with
          phase := .holdB, creepA := some 101, atA1 := some { ext := 101, load := 7200 }
          atB0 := some { ext := 50, load := 7200 } }
        { ext := 251, load := 7200 } ∧ j.closing = none ∧ j.creepB = some 201) := by
  unfold LoadPasses TestLate
  exact ⟨used_stress (by decide +kernel) rfl rfl, by decide +kernel, by decide, by decide, by decide, by decide,
    ⟨_, rfl, by decide, by decide⟩⟩

/-- A stressing that has left the load 5,879 to its seating. -/
def seat0 : JackProg :=
  { str0 with phase := .seating, order := .seat, creepA := some 50, freeLength := some 11009, beforeSeat := some (5879, 7812) }

/-- A destressing that waits for the release. -/
def free0 : JackProg := { des0 with phase := .free, order := .free, liftoff := some 5300 }

/-- Hypotheses of SeatingAndReleaseEndTheWork: a seating whose residual passes, one whose residual does not; a record that
replaces the live one of its position; a lift-off, with its steps and with none; a release at 499 kPa. -/
theorem witness_seating :
    (∃ y : Reply, y = heard (.jack 57620 7200 true false false false) ∧
      JackReply (window .running (.stress seat0)) 1 .a y 0 (ctx0 .running (.stress seat0)) (workRec .stress) class0 cal0 true
        seat0 ∧ LoadPasses class0 cal0 57620 ∧ seat0.afterSeat = none ∧ y.fault = false) ∧
    lockoffPasses class0 (residualLoad class0 5879 (7812 - 7200) 11009) = true ∧
    lockoffPasses class0 (residualLoad class0 5879 (7812 - 0) 11009) = false ∧
    (let s := pair .locked
     (s.recAt 0).bind Record.replaces = some 511 ∧ s.liveAt 12 400 = some 511) ∧
    JackReply (window .running (.destress des0)) 1 .a (heard (.jack 57620 150 false true false false)) 0
      (ctx0 .running (.destress des0)) (workRec .destress) class0 cal0 false des0 ∧
    (stepTargets 5876 class0.destStep ≠ [] ∧ stepTargets 0 class0.destStep = []) ∧
    JackReply (window .running (.destress free0)) 1 .a (heard (.jack 499 150 false false false true)) 0
      (ctx0 .running (.destress free0)) (workRec .destress) class0 cal0 false free0 ∧ LoadPasses class0 cal0 499 ∧
    InFull (window .running (.destress free0)) (ctx0 .running (.destress free0)) free0 false false ∧
    (workRec .destress).replaces = none := by
  unfold LoadPasses InFull
  exact ⟨⟨_, rfl, used_stress (by decide +kernel) rfl rfl, by decide +kernel, by decide, rfl⟩, by decide +kernel,
    by decide +kernel, by decide +kernel, used_destress (by decide +kernel) rfl rfl, by decide +kernel,
    used_destress (by decide +kernel) rfl rfl, by decide +kernel, by decide +kernel, rfl⟩

/-! ## Witnesses: pins, power, the image, arithmetic and laws -/

/-- A part before the header of a restore has been read. -/
def restoring : State := { idle.unpowered with sys := { mode := .restore, phase := .readHeader, rst := false } }

/-- Hypotheses of InputsAreFilteredAndActedOn. -/
theorem witness_inputs : idle.sampling = true ∧ idle.tbc.site.inputs[(0 : Fin 4)].filter ≠ 0 ∧
    idle.tbc.site.inputs[(3 : Fin 4)].filter = 0 ∧ restoring.sampling = false ∧
    { restoring with sys := { restoring.sys with phase := .readRecords none } }.sampling = true := by decide +kernel

/-- Hypotheses of PowerAndRstStartThePart. -/
theorem witness_power : idle.sys.rst = false ∧ idle.sys.phase = .up ∧ WorkLaw idle ∧
    WorkLaw (working .running (.stress str0)) ∧ (idle.setRst true).sys.rst = true ∧ (idle.setRst true).sys.phase ≠ .awaitRst ∧
    restoring.sys.phase ≠ .up ∧ (restoring.unpowered.setRst true).sys.phase = .awaitRst :=
  ⟨rfl, rfl, workLaw_of_check (by decide +kernel), workLaw_of_check (by decide +kernel), rfl, by decide +kernel,
    by decide +kernel, by decide +kernel⟩

/-- Hypotheses of RestoreTakesTheImage and of RestoreMendsTheRecordsAndTheMaps: an undelivered header block, a record phase,
each way a block is taken, and two blocks of one key, of which the later is kept. -/
theorem witness_restore : restoring.sys.phase = .readHeader ∧ 15 < 16 ∧ restoring.isi.header [15] = none ∧
    (∃ s : State, s = { restoring with sys := { restoring.sys with phase := .readRecords none } } ∧
      s.isi.takeAt [527] (16 + 511) = .free 65535) ∧ idle.sys.phase ≠ .readHeader ∧
    takePassed (recordBlock 7 (rec0 .bored) true) = .sound 7 (rec0 .bored) true ∧
    takeFailed (recordBlock 7 (rec0 .bored) true) = .suspect 12 400 0 ∧
    KeptBefore (fun n => takePassed (recordBlock 7 { rec0 .bored with stamp := { time := n, station := 0 } } true)) 511 510 := by
  refine ⟨rfl, by decide, by decide +kernel, ⟨_, rfl, by decide +kernel⟩, by decide +kernel, by decide +kernel,
    by decide +kernel, ?_⟩
  have e : ∀ n : Fin 2, takePassed (recordBlock 7 { rec0 .bored with stamp := { time := 510 + n, station := 0 } } true) =
      .sound 7 { rec0 .bored with stamp := { time := 510 + n, station := 0 } } true := by decide +kernel
  have e0 := e 0
  have e1 := e 1
  simp only [KeptBefore]
  rw [show (511 : Nat) = 510 + (1 : Fin 2).val from rfl, e1]
  rw [show (510 : Nat) = 510 + (0 : Fin 2).val from rfl, e0]
  decide

/-- The clause of ScanGivesEachStationItsTurn on an ANSWER whose end moves no turn: with none, and in that of another station. -/
theorem witness_answer_end : (idle.setExchange (.answer rig (answerTo .begin .done []) .nothing)).bmu.turn = none ∧
    ∃ s : State, s = turnOf idle (freshTurn 0) (.answer rig (answerTo .begin .done []) .nothing) ∧
      (freshTurn 0).station ≠ rig.station := ⟨by decide +kernel, _, rfl, by decide⟩

/-- The clause of RestoreTakesTheImage on a header byte without a meaning: the image memory of that part holds such bytes. -/
theorem witness_header_byte : HeaderByteWrong restoring :=
  .inr (.inl ⟨15, by decide, by decide +kernel⟩)

/-- A part that writes the last slot's block. -/
def writing (noted : List (Item × Subject)) : State :=
  { holding (rec0 .locked) with isi := { (holding (rec0 .locked)).isi with
      writer := .writing (.slot 511) 527 [List.replicate 256 0], noted := noted } }

/-- Hypotheses of WriterWritesItemsBlockByBlock. -/
theorem witness_writer : (∃ s : State, s = { idle with isi := { idle.isi with queue := [.header] } } ∧ s.isi.writer = .idle) ∧
    (∃ s : State, s = { idle with isi := { idle.isi with queue := [.slot 511], writer := .waiting } } ∧
      s.isi.queue = [.slot 511]) ∧ idle.isi.queue = [] ∧
    (writing [(.slot 511, .record 511)]).isi.writer = .writing (.slot 511) 527 [List.replicate 256 0] ∧
    (List.replicate 256 (0 : Byte)).length = 256 ∧ (writing []).isi.writer ≠ .idle :=
  ⟨⟨_, rfl, rfl⟩, ⟨_, rfl, rfl⟩, rfl, rfl, List.length_replicate, by decide +kernel⟩

/-- The same record with the results of its life cycle. -/
def lockedRec : Record :=
  { boundRec with
    insertion := some 20500, grout := some (GroutResult.mk 19250 1540 (some .refusal) (some 1000000)), cureEnd := some 1604800
    stress := some (verdictResult class0 { str0 with creepA := some 50 } .pass (some 11009) (some (5876, 612, 5272))) }

/-- Hypotheses of ImageBlocksAreReadBackAsWritten for the header: a part with a class, a calibration, and a winch. -/
theorem witness_header : HeaderFits winched := by
  refine ⟨by decide +kernel, by decide +kernel, by decide +kernel, by decide +kernel, ?_, ?_, ?_⟩
  · intro n e h
    have := Table.mem_of_get? h
    rw [show winched.tbc.classes = [(0, class0)] from rfl, List.mem_singleton, Prod.mk.injEq] at this
    obtain ⟨-, rfl⟩ := this
    unfold ClassEntry.Fits
    decide
  · intro n ps h
    have := Table.mem_of_get? h
    rw [show winched.cals = [(1, cal0)] from rfl, List.mem_singleton, Prod.mk.injEq] at this
    obtain ⟨-, rfl⟩ := this
    decide
  · intro n hn x hx
    subst hx
    have key : ∀ m : Fin 16, (winched.stationAt m).retry < 256 ∧ (∀ p ∈ (winched.stationAt m).param, p < 65536) ∧
        ((winched.stationAt m).param.isSome ↔ (winched.stationAt m).kind = .winch ∨ (winched.stationAt m).kind = .grout ∨
          (winched.stationAt m).kind = .monitor) := by decide +kernel
    exact ⟨(key ⟨n, hn⟩).1, fun p h => (key ⟨n, hn⟩).2.1 p h, (key ⟨n, hn⟩).2.2⟩

/-- The same record after a failing verdict in place of the PASS. -/
def failedRec : Record :=
  { lockedRec with
    state := .failed, lockoffLoad := none, monitored := none, binding := none
    stress := some (verdictResult class0 { str0 with creepA := some 50 } .lockoffFail (some 11009) (some (5876, 612, 5272))) }

/-- R4, R22, R25, R56, R84, R85, R119 to R121, R124, R178: a record that breaks the order of its fields is no sound one. -/
theorem test_incoherent_records :
    ({ lockedRec with cureEnd := none } : Record).presence = false ∧
    ({ lockedRec with stress := none } : Record).presence = false ∧
    ({ lockedRec with cureEnd := none, grout := none, stress := none, retests := 1 } : Record).presence = false ∧
    ({ rec0 .retired with retireReason := some .supervisor } : Record).presence = true ∧
    ({ rec0 .retired with retireReason := some .supervisor, liftoffLoad := some 1 } : Record).presence = false ∧
    ({ rec0 .retired with retireReason := some .supervisor, monitored := some { load := 1, time := 0 } } : Record).presence = false ∧
    ({ rec0 .planned with gen := 0, replaces := some 511 } : Record).presence = false ∧
    ({ rec0 .planned with gen := 1, replaces := some 511 } : Record).presence = true ∧
    ({ lockedRec with grout := none, cureEnd := none } : Record).presence = false ∧
    ({ rec0 .grouting with context := some 0, grout := some (GroutResult.mk 1 1 (some .accepted) (some 1)) } :
      Record).presence = false ∧
    ({ lockedRec with state := .ready, binding := none, lockoffLoad := none } : Record).presence = false ∧
    ({ rec0 .planned with gen := 3, replacedBy := some 511 } : Record).presence = false ∧
    ({ failedRec with state := .ready } : Record).presence = false ∧
    ({ failedRec with state := .ready, retests := 1 } : Record).presence = true ∧ failedRec.presence = true ∧
    ({ rec0 .inserted with gen := 1, replaces := some 511 } : Record).presence = false ∧
    ({ rec0 .locked with gen := 1, lockoffLoad := some 1, replaces := some 511 } : Record).presence = false ∧
    ({ lockedRec with gen := 1, replaces := some 511 } : Record).presence = true ∧
    ({ rec0 .retired with gen := 1, retireReason := some .failed, replaces := some 511 } : Record).presence = false ∧
    ({ rec0 .retired with retireReason := some .destressed, replacedBy := some 511 } : Record).presence = false ∧
    ({ rec0 .retired with retireReason := some .destressed } : Record).presence = true ∧
    ({ rec0 .suspect with conds := [.imageSuspect] } : Record).presence = true ∧
    (rec0 .suspect).presence = false := by decide +kernel

/-- R177 (log 22): a status byte is UNSET 1 or SET 2, and no other reads. -/
theorem test_status_byte : readFront rdCal [0] = none ∧ readFront rdCal [1] = some none ∧ readFront rdCal [3] = none ∧
    readFront rdClass [0] = none ∧ readFront rdClass [1] = some none ∧ readFront rdInput [3, 1, 0, 1] = none := by
  decide +kernel

/-- The ranges and checks of R28 and R29 that the target loads rest on, for the class of the worked case. -/
theorem class0_targets : TargetsInRange class0 := by unfold TargetsInRange; decide

/-- Hypotheses of ImageBlocksAreReadBackAsWritten, LoadsAndPressuresFollowTheTable, TargetLoadsKeepTheirOrder and
LimitsAndLengthsFollowTheirFormulas: a record with its results, the segments of the table at their ends, a class in range,
two readings apart, and a step of 10 percent. -/
theorem witness_block_and_table : lockedRec.inRange = true ∧ lockedRec.presence = true ∧ lockedRec.Fits ∧
    CalSound cal0 ∧
    Segment cal0 { pressure := 5000, load := 505 } { pressure := 20000, load := 2030 } ∧
    cal0.getLast? = some { pressure := 80000, load := 8180 } ∧ TargetsInRange class0 ∧
    (class0.stages[2 - 1]? = some 100 ∧ (6968 : Int) = 199 + (6769 : Nat) ∧ 482 < 7196) ∧
    0 < (rec0 .stressing).freeOv.getD class0.freeLen ∧ 10 ≤ class0.destStep ∧
    (class0.destStep = 25 ∧ 3 * 25 < 100 ∧ Rounds (5300 * (100 - 3 * 25)) 100 1325) := by
  refine ⟨by decide +kernel, by decide +kernel, ?_, by unfold CalSound; decide +kernel, ⟨[], _, rfl⟩, rfl,
    class0_targets, by decide, by decide, by decide, by decide, by decide, by unfold Rounds; decide⟩
  refine ⟨by decide, ?_, ?_, ?_, nofun, ?_⟩
  · rintro n ⟨⟩; decide
  · rintro n ⟨⟩; decide
  · rintro g ⟨⟩; exact ⟨by decide, by rintro n ⟨⟩; decide⟩
  · rintro x ⟨⟩; exact ⟨by decide, nofun, by rintro n ⟨⟩; decide, by decide⟩

/-- Hypotheses of StepKeepsTheBooks in a start-up: a restore that holds a header time at the end of its width ends. -/
theorem witness_clock : ∃ s t : State, s = { restoring with
      sys := { restoring.sys with phase := .readRecords (some 4294967295) }, pending := [.restoreComplete []] } ∧
    step s = .next t ∧ ClockLaw s ∧ s.wck.time = 0 :=
  ⟨_, _, rfl, rfl, ⟨by decide +kernel, fun h e => by cases e; decide⟩, by decide +kernel⟩

/-- Hypotheses of the laws that every step keeps: a step of a part with a DESTRESS context, where every law holds. -/
theorem witness_laws : ∃ s t : State, s = { working .running (.destress des0) with pending := [.realSecond] } ∧
    step s = .next t ∧ TableLaw s ∧ WorkLaw s ∧ ExclusionLaw s ∧ DigLaw s ∧ ChannelLaw s ∧ QueueDistinct s ∧
    ImageCanonical s ∧ RecordRanges s ∧ AttentionLaw s ∧ InputLaw s ∧ ClockLaw s ∧ MarkLaw s ∧ StartUpLaw s ∧
    s.sys.phase = .up ∧
    ∀ md1 md0 left, s.pending.head? ≠ some (.powerOn md1 md0 left) := by
  have only : ∀ c x, ({ working .running (.destress des0) with pending := [.realSecond] } : State).ctxAt c = some x →
      c = 0 ∧ x = ctx0 .running (.destress des0) := by
    intro c x h
    have := Table.mem_of_get? h
    simpa [working] using this
  refine ⟨_, _, rfl, rfl, tableLaw_of_check (by decide +kernel), workLaw_of_check (by decide +kernel), ?_, ⟨?_, ?_, ?_⟩,
    channelLaw_of_check (by decide +kernel), by unfold QueueDistinct; decide +kernel,
    by unfold ImageCanonical; decide +kernel, recordRanges_of_check (by decide +kernel),
    by unfold AttentionLaw; decide +kernel, by unfold InputLaw; decide +kernel, ⟨by decide +kernel, nofun⟩,
    by unfold MarkLaw; decide +kernel, fun h => absurd rfl h, rfl,
    by intros; exact fun h => nomatch h⟩
  · intro c d x y r q hne hc hd
    exact absurd ((only c x hc).1.trans (only d y hd).1.symm) hne
  · intro row bay n r h1 h2
    exact absurd (Nat.le_trans h1 h2) (by decide +kernel)
  · intro c x r hc _ hr
    obtain ⟨rfl, rfl⟩ := only c x hc
    have : ({ working .running (.destress des0) with pending := [.realSecond] } : State).recAt 511 =
        some { neededBy .destress with state := .destressing, context := some 0 } := by decide +kernel
    obtain rfl := Option.some.inj (hr.symm.trans this)
    decide +kernel
  · intro h; exact absurd rfl h

end Sys2Proof.Machine.Tests
end

section
/-! Rules of the shared operations that every later proof cites: what an operation leaves of the parts of the TBC, what
stands in a slot after a record update, and which conditions are marked on a subject after it. -/

namespace Sys2Proof.Machine

/-! ## Sparse tables in canonical form -/

/-- In canonical form a listed pair is what its key holds. -/
theorem Table.get?_of_mem {α : Type} {t : Table α} (hw : t.wf) {n : Nat} {v : α} (h : (n, v) ∈ t) :
    t.get? n = some v := by
  induction t with
  | nil => cases h
  | cons p t ih =>
    obtain ⟨k, w⟩ := p
    obtain ⟨hk, ht⟩ := List.pairwise_cons.1 hw
    rcases List.mem_cons.1 h with h | h
    · cases h; simp [Table.get?]
    · have hne : ¬ k = n := fun e => absurd (hk _ h) (by simp [e])
      simpa [Table.get?, hne] using ih ht h

theorem State.mem_usedSlots_of_recAt {s : State} {n : Nat} {r : Record} (h : s.recAt n = some r) : n ∈ s.usedSlots := by
  obtain ⟨x, hm, hx⟩ := State.mem_of_recAt h
  exact List.mem_filterMap.2 ⟨(n, x), hm, by simp [hx]⟩

/-- In canonical form the used slots are those that hold a record. -/
theorem State.mem_usedSlots {s : State} (hw : s.tbc.slots.wf) {n : Nat} :
    n ∈ s.usedSlots ↔ ∃ r, s.recAt n = some r := by
  refine ⟨fun h => ?_, fun ⟨_, h⟩ => State.mem_usedSlots_of_recAt h⟩
  obtain ⟨⟨k, x⟩, hm, hx⟩ := List.mem_filterMap.1 h
  dsimp only at hx
  split at hx
  · next hs =>
    cases hx
    obtain ⟨r, hr⟩ := Option.isSome_iff_exists.1 hs
    exact ⟨r, by simp [State.recAt, State.slotAt, Table.get?_of_mem hw hm, hr]⟩
  · cases hx

theorem Table.keys_nodup {α : Type} {t : Table α} (hw : t.wf) : (t.map Prod.fst).Nodup :=
  List.pairwise_map.2 (hw.imp fun h => Nat.ne_of_lt h)

/-- The used slots rise, so none is listed twice. -/
theorem State.usedSlots_sorted {s : State} (hw : s.tbc.slots.wf) : s.usedSlots.Pairwise (· < ·) := by
  refine List.Pairwise.filterMap _ ?_ hw
  intro a b hab x hx y hy
  split at hx <;> cases hx
  split at hy <;> cases hy
  exact hab

/-! ## What the TBC keeps but for the Anchor Table and the map -/

@[simp] theorem State.update_map (s : State) (n st : Nat) (f : Record → Record) :
    (s.update n st f).tbc.map = s.tbc.map := by rw [State.update_tbc_rest]
@[simp] theorem State.update_site (s : State) (n st : Nat) (f : Record → Record) :
    (s.update n st f).tbc.site = s.tbc.site := by rw [State.update_tbc_rest]
@[simp] theorem State.update_classes (s : State) (n st : Nat) (f : Record → Record) :
    (s.update n st f).tbc.classes = s.tbc.classes := by rw [State.update_tbc_rest]
@[simp] theorem State.update_staged (s : State) (n st : Nat) (f : Record → Record) :
    (s.update n st f).tbc.staged = s.tbc.staged := by rw [State.update_tbc_rest]

/-- A map change keeps everything the TBC holds but the map. -/
theorem State.setMap_tbc_rest (s : State) (key : Nat) (v? : Option Nat) :
    (s.setMap key v?).tbc = { s.tbc with map := (s.setMap key v?).tbc.map } := by
  unfold State.setMap
  dsimp only
  split
  · rfl
  · cases s.tbc.map.get? key <;> cases v? <;> simp

@[simp] theorem State.setMap_slots (s : State) (key : Nat) (v? : Option Nat) :
    (s.setMap key v?).tbc.slots = s.tbc.slots := by rw [State.setMap_tbc_rest]
@[simp] theorem State.setMap_site (s : State) (key : Nat) (v? : Option Nat) :
    (s.setMap key v?).tbc.site = s.tbc.site := by rw [State.setMap_tbc_rest]
@[simp] theorem State.slotAt_setMap (s : State) (key : Nat) (v? : Option Nat) (n : Nat) :
    (s.setMap key v?).slotAt n = s.slotAt n := State.slotAt_congr (by simp) n
@[simp] theorem State.recAt_setMap (s : State) (key : Nat) (v? : Option Nat) (n : Nat) :
    (s.setMap key v?).recAt n = s.recAt n := by simp [State.recAt]
@[simp] theorem State.revAt_setMap (s : State) (key : Nat) (v? : Option Nat) (n : Nat) :
    (s.setMap key v?).revAt n = s.revAt n := by simp [State.revAt]

/-- After a map change the key holds the given value, whether or not it held it before (R9). -/
theorem State.setMap_get? (s : State) (key : Nat) (v? : Option Nat) :
    (s.setMap key v?).tbc.map.get? key = v? := by
  unfold State.setMap
  dsimp only
  split
  · assumption
  · cases s.tbc.map.get? key <;> cases v? <;> simp

/-- A map change leaves every other key alone. -/
theorem State.setMap_get?_ne (s : State) (key k : Nat) (v? : Option Nat) (h : k ≠ key) :
    (s.setMap key v?).tbc.map.get? k = s.tbc.map.get? k := by
  unfold State.setMap
  dsimp only
  split
  · rfl
  · cases s.tbc.map.get? key <;> cases v? <;> simp [Table.get?_set_ne _ _ _ _ h]

theorem State.setMap_wf {s : State} (h : s.tbc.map.wf) (key : Nat) (v? : Option Nat) :
    (s.setMap key v?).tbc.map.wf := by
  unfold State.setMap
  dsimp only
  split
  · exact h
  · cases s.tbc.map.get? key <;> cases v? <;> simpa using Table.wf_set h _ _

theorem State.putSlot_wf {s : State} (h : s.tbc.slots.wf) (n : Nat) (x : Slot) : (s.putSlot n x).tbc.slots.wf :=
  Table.wf_set h _ _

/-! ## What stands in a slot after a record update (R5) -/

theorem State.recAt_congr {s t : State} (h : t.tbc.slots = s.tbc.slots) (n : Nat) : t.recAt n = s.recAt n := by
  simp [State.recAt, State.slotAt_congr h]

theorem State.revAt_congr {s t : State} (h : t.tbc.slots = s.tbc.slots) (n : Nat) : t.revAt n = s.revAt n := by
  simp [State.revAt, State.slotAt_congr h]

@[simp] theorem State.recAt_freeChannel (s : State) (b? : Option Binding) (n : Nat) :
    (s.freeChannel b?).recAt n = s.recAt n := State.recAt_congr (by simp) n

@[simp] theorem State.recAt_putSlot_same (s : State) (n : Nat) (x : Slot) : (s.putSlot n x).recAt n = x.rec? := by
  simp [State.recAt]

theorem State.recAt_putSlot_ne (s : State) (n m : Nat) (x : Slot) (h : m ≠ n) : (s.putSlot n x).recAt m = s.recAt m := by
  simp [State.recAt, State.slotAt_putSlot_ne _ _ _ _ h]

theorem State.recAt_update_ne (s : State) (n m st : Nat) (f : Record → Record) (h : m ≠ n) :
    (s.update n st f).recAt m = s.recAt m := by
  simp [State.recAt, State.update_slotAt_ne _ _ _ _ _ h]

/-- An update leaves the fields it gives, and the stamp apart nothing else (R5). -/
theorem State.recAt_update {s : State} {n : Nat} {r : Record} (h : s.recAt n = some r) (st : Nat) (f : Record → Record) :
    ∃ stamp, (s.update n st f).recAt n = some { f r with stamp := stamp } := by
  by_cases hf : f r = r
  · exact ⟨r.stamp, by rw [State.update_same h st hf, h, hf]⟩
  · exact ⟨_, by rw [State.update_some h st hf]; simp; rfl⟩

theorem State.recAt_update_none {s : State} {n m : Nat} (h : s.recAt n = none) (st : Nat) (f : Record → Record) :
    (s.update m st f).recAt n = none := by
  by_cases e : n = m
  · subst e; rw [State.update_none h, h]
  · rw [State.recAt_update_ne _ _ _ _ _ e, h]

/-- An update gives no slot a record. -/
theorem State.recAt_update_cases {s : State} {n m st : Nat} {f : Record → Record} {q : Record}
    (h : (s.update n st f).recAt m = some q) :
    ∃ r, s.recAt m = some r ∧ ((m ≠ n ∧ q = r) ∨ (m = n ∧ ∃ stamp, q = { f r with stamp := stamp })) := by
  by_cases e : m = n
  · subst e
    cases hr : s.recAt m with
    | none => rw [State.recAt_update_none hr] at h; cases h
    | some r =>
      obtain ⟨stamp, hs⟩ := State.recAt_update hr st f
      rw [hs] at h; cases h
      exact ⟨r, rfl, .inr ⟨rfl, stamp, rfl⟩⟩
  · rw [State.recAt_update_ne _ _ _ _ _ e] at h
    exact ⟨q, h, .inl ⟨e, rfl⟩⟩

theorem State.update_wf {s : State} (h : s.tbc.slots.wf) (n st : Nat) (f : Record → Record) :
    (s.update n st f).tbc.slots.wf := by
  unfold State.update
  split
  · exact h
  · split
    · exact h
    · simpa using State.putSlot_wf h _ _

/-- What a record update makes of its slot (R5). -/
theorem State.slotAt_update (s : State) (n st : Nat) (f : Record → Record) :
    (s.update n st f).slotAt n = updatedSlot s st f (s.slotAt n) := by
  unfold updatedSlot
  cases hr : s.recAt n with
  | none =>
    rw [State.update_none hr, show (s.slotAt n).rec? = none from hr]
  | some r =>
    rw [show (s.slotAt n).rec? = some r from hr]
    by_cases hf : f r = r
    · rw [State.update_same hr _ hf]; simp [hf]
    · rw [State.update_some hr _ hf]; simp [hf, State.revAt]

/-- What stands in a slot after the same update of several slots: each is stepped once, by what it held. -/
theorem State.slotAt_updates (st : Nat) (f : Record → Record) {l : List Nat} (hl : l.Nodup) (s : State) (m : Nat) :
    (l.foldl (fun t n => t.update n st f) s).slotAt m =
      if m ∈ l then updatedSlot s st f (s.slotAt m) else s.slotAt m := by
  induction l generalizing s with
  | nil => rfl
  | cons n l ih =>
    obtain ⟨hn, hl⟩ := List.nodup_cons.1 hl
    rw [List.foldl_cons, ih hl]
    have hup : updatedSlot (s.update n st f) st f = updatedSlot s st f := by
      funext z; simp [updatedSlot]
    rw [hup]
    by_cases e : m = n
    · subst e
      rw [if_neg hn, if_pos List.mem_cons_self, State.slotAt_update]
    · rw [State.update_slotAt_ne _ _ _ _ _ e]
      simp [e]

/-- What an update makes of the TBC depends on the TBC and the clock alone. -/
theorem State.update_tbc_congr {s t : State} (htbc : t.tbc = s.tbc) (hwck : t.wck = s.wck) (n st : Nat)
    (f : Record → Record) : (t.update n st f).tbc = (s.update n st f).tbc := by
  have hrec : t.recAt n = s.recAt n := State.recAt_congr (by rw [htbc]) n
  have hrev : t.revAt n = s.revAt n := State.revAt_congr (by rw [htbc]) n
  cases hr : s.recAt n with
  | none => rw [State.update_none hr, State.update_none (hrec.trans hr), htbc]
  | some r =>
    by_cases hf : f r = r
    · rw [State.update_same hr _ hf, State.update_same (hrec.trans hr) _ hf, htbc]
    · rw [State.update_some hr _ hf, State.update_some (hrec.trans hr) _ hf, hrev, hwck]
      simp [State.putSlot, htbc]

/-- What an update makes of the ISI depends on the TBC and the ISI alone. -/
theorem State.update_isi_congr {s t : State} (htbc : t.tbc = s.tbc) (hisi : t.isi = s.isi) (n st : Nat)
    (f : Record → Record) : (t.update n st f).isi = (s.update n st f).isi := by
  have hrec : t.recAt n = s.recAt n := State.recAt_congr (by rw [htbc]) n
  cases hr : s.recAt n with
  | none => rw [State.update_none hr, State.update_none (hrec.trans hr), hisi]
  | some r =>
    by_cases hf : f r = r
    · rw [State.update_same hr _ hf, State.update_same (hrec.trans hr) _ hf, hisi]
    · rw [State.update_some hr _ hf, State.update_some (hrec.trans hr) _ hf]
      rw [State.hand_isi, State.hand_isi, State.putSlot_isi, State.putSlot_isi, hisi]

/-- A binding makes of the TBC what its record update makes of it. -/
@[simp] theorem State.bindCtx_tbc (s : State) (c : Nat) (k : CtxKind) (n station sender : Nat) (r : Record) (b : Bool) :
    (s.bindCtx c k n station sender r b).tbc = (s.update n sender (bindFields k c)).tbc := by
  unfold State.bindCtx
  dsimp only
  split
  · rw [State.freeChannel_tbc]; refine State.update_tbc_congr ?_ ?_ n sender _ <;> rfl
  · refine State.update_tbc_congr ?_ ?_ n sender _ <;> rfl

@[simp] theorem State.bindCtx_isi (s : State) (c : Nat) (k : CtxKind) (n station sender : Nat) (r : Record) (b : Bool) :
    (s.bindCtx c k n station sender r b).isi = (s.update n sender (bindFields k c)).isi := by
  unfold State.bindCtx
  dsimp only
  split
  · rw [State.freeChannel_isi]; refine State.update_isi_congr ?_ ?_ n sender _ <;> rfl
  · refine State.update_isi_congr ?_ ?_ n sender _ <;> rfl

/-! ## The conditions told of by an update (R6) -/

/-- A fold of told conditions leaves alone what telling one leaves alone. -/
theorem State.tells_tbc (s : State) (subj : Subject) (cs : List Cond) :
    (cs.foldl (fun t c => t.tell subj c) s).tbc = s.tbc :=
  foldl_same State.tbc _ (fun t c => by simp) cs s

@[simp] theorem State.updateRaising_tbc (s : State) (n st : Nat) (cs : List Cond) (f : Record → Record) :
    (s.updateRaising n st cs f).tbc = (s.update n st (fun r => { f r with conds := addConds cs (f r).conds })).tbc :=
  foldl_same State.tbc _ (fun t c => by simp) _ _

@[simp] theorem State.updateRaising_isi (s : State) (n st : Nat) (cs : List Cond) (f : Record → Record) :
    (s.updateRaising n st cs f).isi = (s.update n st (fun r => { f r with conds := addConds cs (f r).conds })).isi :=
  foldl_same State.isi _ (fun t c => by simp) _ _

theorem State.recAt_updateRaising (s : State) (n st : Nat) (cs : List Cond) (f : Record → Record) (m : Nat) :
    (s.updateRaising n st cs f).recAt m =
      (s.update n st (fun r => { f r with conds := addConds cs (f r).conds })).recAt m :=
  State.recAt_congr (by rw [State.updateRaising_tbc]) m

/-- An update that raises nothing is the update alone. -/
theorem State.updateRaising_nil (s : State) (n st : Nat) (f : Record → Record) :
    s.updateRaising n st [] f = s.update n st f := by
  unfold State.updateRaising State.newConds
  cases s.recAt n <;> rfl

theorem mem_addCond {c d : Cond} {l : List Cond} : d ∈ addCond c l ↔ d = c ∨ d ∈ l := by
  induction l with
  | nil => simp [addCond]
  | cons x l ih =>
    unfold addCond
    split
    · next h => subst h; simp
    · split
      · simp
      · simp only [List.mem_cons, ih]; tauto

theorem mem_addConds {d : Cond} {cs l : List Cond} : d ∈ addConds cs l ↔ d ∈ cs ∨ d ∈ l := by
  unfold addConds
  induction cs generalizing l with
  | nil => simp
  | cons c cs ih => simp only [List.foldl_cons, ih, mem_addCond, List.mem_cons]; tauto

@[simp] theorem mem_dropCond {c d : Cond} {l : List Cond} : d ∈ dropCond c l ↔ d ∈ l ∧ d ≠ c := by
  simp [dropCond]

/-! ## The queue of a FRESH start-up (R173) -/

theorem Isi.freshQueue_nodup : Isi.freshQueue.Nodup := by
  refine List.nodup_cons.2 ⟨by simp, (List.nodup_range).map fun a b h => ?_⟩
  cases h; rfl

/-! ## Attention entries -/

@[simp] theorem State.tell_sound_entries (a : Atu) (alarm : Nat) : (a.sound alarm).entries = a.entries := rfl
@[simp] theorem Atu.sound_overflow (a : Atu) (alarm : Nat) : (a.sound alarm).overflow = a.overflow := rfl

/-- An entry that handling adds is the one handled; the others were listed (R136). -/
theorem Atu.mem_place {a : Atu} {e x : Entry} (h : x ∈ (a.place e).entries) : x = e ∨ x ∈ a.entries := by
  unfold Atu.place at h
  split at h
  · exact mem_insertEntry.1 h
  · split at h
    · split at h
      · exact (mem_insertEntry.1 h).imp id (List.mem_of_mem_erase ·)
      · exact .inr h
    · exact .inr h

end Sys2Proof.Machine
end

section
/-! The part at reset (R1, R176): its fresh state and every law of the part. -/

namespace Sys2Proof.Machine

@[simp] theorem State.recAt_reset (n : Nat) : State.reset.recAt n = none := rfl

@[simp] theorem State.ctxAt_reset (c : Nat) : State.reset.ctxAt c = none := rfl

@[simp] theorem State.liveAt_reset (row bay : Nat) : State.reset.liveAt row bay = none := rfl

theorem State.isRelieved_reset (row : Nat) : State.reset.isRelieved row = false := by
  simp [State.isRelieved, State.reset, SiteSettings.default, Vector.getElem?_replicate]
  split <;> rfl

theorem State.stationAt_reset (n : Nat) (h1 : 1 ≤ n) (h2 : n ≤ 15) : State.reset.stationAt n = Station.unenrolled := by
  have hn : n < 16 := by omega
  simp [State.stationAt, State.reset, hn, show n ≠ 0 by omega]

/-- Settles O2: the reset state is spelt out, so every value is read off; the quantified ones by the lemma of their accessor. -/
theorem resetIsAFreshPart : Obligations.ResetIsAFreshPart := by
  unfold Obligations.ResetIsAFreshPart
  refine ⟨fun _ => rfl, State.liveAt_reset, fun _ => rfl, State.ctxAt_reset, fun _ => rfl, fun _ => rfl,
    ⟨rfl, rfl, State.isRelieved_reset, rfl, rfl, rfl, rfl, rfl, by decide, rfl, by decide⟩, rfl, ?_,
    ⟨rfl, rfl, rfl, rfl⟩, fun n h1 h2 => ?_, rfl, rfl, rfl, rfl⟩
  · rintro (_ | _) <;> exact ⟨rfl, rfl, rfl, rfl, rfl⟩
  · rw [State.stationAt_reset n h1 h2]; exact ⟨rfl, rfl⟩

/-- Settles O56: nothing is listed, bound or entered at reset, so only the queue, the inputs and the stations need a look. -/
theorem lawsHoldAtReset : Obligations.LawsHoldAtReset := by
  unfold Obligations.LawsHoldAtReset
  refine ⟨Isi.freshQueue_nodup, ⟨by decide, by decide, List.Pairwise.nil, by decide⟩, ⟨List.Pairwise.nil, nofun⟩,
    fun h => absurd rfl h, tableLaw_of_check (by decide +kernel), workLaw_of_check (by decide +kernel), ?_, ?_,
    channelLaw_of_check (by decide +kernel), recordRanges_of_check (by decide +kernel), ?_, ?_, ?_⟩
  · rintro c d x y r q - hx
    rw [State.ctxAt_reset] at hx; cases hx
  · refine ⟨fun row bay n r _ _ _ _ _ hl => ?_, fun c x r hx => ?_, fun h => absurd rfl h⟩
    · rw [State.liveAt_reset] at hl; cases hl
    · rw [State.ctxAt_reset] at hx; cases hx
  · unfold ImageCanonical; decide
  · exact fun _ => ⟨fun _ => by decide, by decide⟩
  · exact ⟨by decide, nofun⟩

end Sys2Proof.Machine
end

section
/-! What a step can do, said once: the moves that every command but those of power and of the restore is made of. Each
law of the part is then kept by every move, and so by every step. -/

namespace Sys2Proof.Machine

/-! ## How a move may change a record -/

/-- A state that is no work state and neither LOCKED, RETIRED nor SUSPECT. -/
def looseState (st : RecState) : Prop := st.isWork = false ∧ st ≠ .locked ∧ st ≠ .retired ∧ st ≠ .suspect

/-- `q` keeps the key of `r`, has no link that `r` has not, and no retest count out of range. -/
structure Carries (r q : Record) : Prop where
  row : q.row = r.row
  bay : q.bay = r.bay
  gen : q.gen = r.gen
  replaces : ∀ m, q.replaces = some m → r.replaces = some m
  replacedBy : ∀ m, q.replacedBy = some m → r.replacedBy = some m
  retests : r.retests ≤ 2 → q.retests ≤ 2

/-- `q` has the state and the context of `r`, or both states are loose. -/
def StateKept (r q : Record) : Prop :=
  q.state = r.state ∧ q.context = r.context ∨ looseState r.state ∧ looseState q.state

/-- A change of a record that stays in or out of work, LOCKED, RETIRED and SUSPECT as it is. -/
structure Mild (r q : Record) : Prop extends Carries r q where
  conds : q.conds = r.conds
  binding : q.binding = r.binding
  state : StateKept r q

/-- A change that ends the work of a record (R53, R119). -/
structure Released (r q : Record) : Prop extends Carries r q where
  conds : q.conds = r.conds
  binding : q.binding = r.binding
  state : looseState q.state ∨ q.state = .locked

/-- A change that takes the condition `c` from a record: alone, or as a SUSPECT record is certified (R25, R139). -/
structure Dropped (c : Cond) (r q : Record) : Prop extends Carries r q where
  conds : q.conds = dropCond c r.conds
  binding : q.binding = r.binding
  state : q.state = r.state ∧ q.context = r.context ∨ r.state = .suspect ∧ (looseState q.state ∨ q.state = .locked)

theorem Carries.refl (r : Record) : Carries r r := ⟨rfl, rfl, rfl, fun _ h => h, fun _ h => h, fun h => h⟩

theorem Mild.refl (r : Record) : Mild r r := { Carries.refl r with conds := rfl, binding := rfl, state := .inl ⟨rfl, rfl⟩ }

/-- What the work on a record leaves alone: its key, its links, its retest count, its conditions, its monitor binding. -/
def Record.fixed (r : Record) : (Nat × Nat × Nat) × (Option Nat × Option Nat) × Nat × List Cond × Option Binding :=
  ((r.row, r.bay, r.gen), (r.replaces, r.replacedBy), r.retests, r.conds, r.binding)

theorem Carries.of_fixed {r q : Record} (h : q.fixed = r.fixed) : Carries r q := by
  simp only [Record.fixed, Prod.mk.injEq] at h
  obtain ⟨⟨h1, h2, h3⟩, ⟨h4, h5⟩, h6, -, -⟩ := h
  exact ⟨h1, h2, h3, fun m hm => h4 ▸ hm, fun m hm => h5 ▸ hm, fun hm => h6 ▸ hm⟩

theorem Mild.of_fixed {r q : Record} (h : q.fixed = r.fixed) (hst : StateKept r q) : Mild r q :=
  { Carries.of_fixed h with
    conds := congrArg (fun x => x.2.2.2.1) h, binding := congrArg (fun x => x.2.2.2.2) h, state := hst }

theorem Released.of_fixed {r q : Record} (h : q.fixed = r.fixed) (hst : looseState q.state ∨ q.state = .locked) :
    Released r q :=
  { Carries.of_fixed h with
    conds := congrArg (fun x => x.2.2.2.1) h, binding := congrArg (fun x => x.2.2.2.2) h, state := hst }

/-! ## The moves -/

/-- Nothing that a law speaks of has changed: of the TBC the staged part and the classes at most, of the stations and lines
neither a mark nor a binding. -/
structure Quiet (s t : State) : Prop where
  slots : t.tbc.slots = s.tbc.slots
  map : t.tbc.map = s.tbc.map
  site : t.tbc.site = s.tbc.site
  contexts : t.cxp.contexts = s.cxp.contexts
  channels : t.channels = s.channels
  atu : t.atu = s.atu
  wck : t.wck = s.wck
  ifu : t.ifu = s.ifu
  isi : t.isi = s.isi
  sys : t.sys = s.sys
  bound : ∀ n, (t.stationAt n).ctx = (s.stationAt n).ctx
  kinds : ∀ n, (t.stationAt n).kind = (s.stationAt n).kind ∨ (s.stationAt n).ctx = none
  faults : ∀ n, (t.stationAt n).faultMark = (s.stationAt n).faultMark
  lineFaults : ∀ l, (t.lineAt l).faultMark = (s.lineAt l).faultMark
  lineNoises : ∀ l, (t.lineAt l).noiseMark = (s.lineAt l).noiseMark

/-- One move of the part, `G` being what is known of the state the step began in. -/
inductive Move (G : Prop) (s : State) : State → Prop
  | quiet {t : State} (h : Quiet s t) : Move G s t
  | hand (i : Item) : Move G s (s.hand i)
  | isi (i : Isi) (hq : s.isi.queue.Nodup → i.queue.Nodup) (hi : s.isi.image.wf → i.image.wf)
      (hs : i.suspectMark = s.isi.suspectMark) (hw : i.writeMark = s.isi.writeMark) : Move G s { s with isi := i }
  | clock (w : Wck) (h : s.wck.time ≤ Config.max32 → s.wck.time ≤ w.time ∧ w.time ≤ Config.max32) :
      Move G s { s with wck := w }
  | setDig (row : Nat) (h : row ≤ s.tbc.site.digRow ∨ row ≤ s.digValue false) : Move G s (s.setDig row)
  | relieve (row : Nat) : Move G s (s.setRelieved row true)
  | rely (row : Nat) (hd : row ≤ s.tbc.site.digRow → (s.notHolding false row).isEmpty = true)
      (hx : s.destressIn row = false) : Move G s (s.setRelieved row false)
  | putCtx (c : Nat) (x y : Context) (hy : s.ctxAt c = some y) (hslot : x.slot = y.slot) (hstation : x.station = y.station)
      (hkind : x.prog.kind = y.prog.kind) : Move G s (s.putCtx c x)
  | eachCtx (f : Context → Context)
      (hf : ∀ x, (f x).slot = x.slot ∧ (f x).station = x.station ∧ (f x).prog.kind = x.prog.kind) : Move G s (s.eachCtx f)
  | raising (n st : Nat) (cs : List Cond) (f : Record → Record) (hcs : cs.Nodup)
      (hf : ∀ r, s.recAt n = some r → Mild r (f r)) : Move G s (s.updateRaising n st cs f)
  | dropping (n st : Nat) (c : Cond) (f : Record → Record) (hf : ∀ r, s.recAt n = some r → Dropped c r (f r))
      (hlive : ∀ r, s.recAt n = some r → s.isLive n r = true → s.isRelied r.row = true →
        (f r).state = r.state ∨ (f r).state = .locked) :
      Move G s ((s.update n st f).untellOne (.record n) c)
  | raiseMark (subj : Subject) (c : Cond) (h : (s.setMark subj c true).marked subj c = true) : Move G s (s.raiseMark subj c)
  | clearMark (subj : Subject) (c : Cond) : Move G s (s.clearMark subj c)
  | setMap (key n : Nat) (r : Record) (hr : s.recAt n = some r) (hk : posKey r.row r.bay = key) (hl : r.state ≠ .retired)
      (hd : r.state = .locked ∨ s.isRelied r.row = false) : Move G s (s.setMap key (some n))
  | place (n : Nat) (r : Record) (hn : n < 512) (hfree : s.recAt n = none) (hrow : 1 ≤ r.row ∧ r.row ≤ 12)
      (hbay : 1 ≤ r.bay ∧ r.bay ≤ 400) (hgen : r.gen ≤ 3) (hnew : s.nextGen r.row r.bay ≤ r.gen) (hst : r.state = .planned)
      (hr : r.retests = 0 ∧ r.conds = [] ∧ r.binding = none ∧ r.replaces = none ∧ r.replacedBy = none) :
      Move G s (s.place n r)
  | replace (slot sender n : Nat) (r q : Record) (hslot : s.recAt slot = some r) (hn : n < 512) (hfree : s.recAt n = none)
      (hkey : q.row = r.row ∧ q.bay = r.bay) (hgen : q.gen ≤ 3) (hnew : s.nextGen r.row r.bay ≤ q.gen) (hst : q.state = .planned)
      (hq : q.retests = 0 ∧ q.conds = [] ∧ q.binding = none ∧ q.replaces = some slot ∧ q.replacedBy = none) :
      Move G s ((s.update slot sender (fun q => { q with replacedBy := some n })).place n q)
  | purge (n sender : Nat) (r : Record) (hr : s.recAt n = some r) (hst : r.state = .retired) : Move G s (s.purge n sender)
  | retire (n st : Nat) (reason : RetireReason) (f : Record → Record) (r : Record) (hr : s.recAt n = some r)
      (hw : r.state.isWork = false) (hlive : s.isLive n r = true → s.isRelied r.row = false) (hf : Carries r (f r)) :
      Move G s (s.retireRecord n st reason f)
  | bind (c : Nat) (k : CtxKind) (n station sender : Nat) (r : Record) (resumed : Bool) (hr : s.recAt n = some r)
      (hup : s.sys.phase = .up) (hready : s.readyRefusal k station r resumed = none) (hnear : s.nearRefusal k r = none)
      (hc : s.lowestFreeCtx = some c) : Move G s (s.bindCtx c k n station sender r resumed)
  | release (c : Nat) (x : Context) (p : Parting) (st : Nat) (cs : List Cond) (f : Record → Record)
      (hx : G → s.ctxAt c = some x) (hcs : cs.Nodup) (hf : ∀ r, s.recAt x.slot = some r → Released r (f r)) :
      Move G s ((s.freeCtx c x p).updateRaising x.slot st cs f)
  | releaseRetire (c : Nat) (x : Context) (p : Parting) (st : Nat) (hx : s.ctxAt c = some x) :
      Move G s ((s.freeCtx c x p).retireRecord x.slot st .destressed id)
  | setBinding (n st : Nat) (b : Binding) (r : Record) (hr : s.recAt n = some r) (hl : r.state = .locked)
      (hb : 1 ≤ b.station ∧ b.station ≤ 15 ∧ b.channel ≤ 7) (hfree : ∀ m, s.channels.get? (channelKey b) = some m → m = n) :
      Move G s (s.setBinding n st b r)
  | dropBinding (n st : Nat) (r : Record) (hr : s.recAt n = some r) : Move G s (s.dropBinding n st r)
  | overflow : Move G s { s with atu := { s.atu with overflow := 0 } }
  | endStop (h : stopDemand s.tbc.site s.ifu = false) : Move G s s.endStop
  | changeInputs (v : Vector Input 4) : Move G s (s.changeInputs v)
  | restartInputs : Move G s s.restartInputs
  | key (k : KeyState) (hk : k ≠ .idle) (hs : s.ifu.key ≠ .idle) : Move G s (s.setKey k)
  | pins (v : Vector Input 4) (h : ∀ i : Fin 4, v[i].accepted = s.ifu.inputs[i].accepted) :
      Move G s { s with ifu := { s.ifu with inputs := v } }
  | siteApply (x : SiteItems) (h : x.span.any (fun n => s.tbc.site.span < n ∧ s.spanConflicts n) = false) :
      Move G s (s.siteApply x)

/-- What one command does: moves, one after the other. -/
abbrev Moves (G : Prop) : State → State → Prop := Relation.ReflTransGen (Move G)

theorem Move.one {G : Prop} {s t : State} (h : Move G s t) : Moves G s t := .single h

/-- A change of a record that raises nothing is a move. -/
theorem Move.update {G : Prop} {s : State} (n st : Nat) {f : Record → Record}
    (hf : ∀ r, s.recAt n = some r → Mild r (f r)) : Move G s (s.update n st f) :=
  State.updateRaising_nil s n st f ▸ Move.raising n st [] f List.nodup_nil hf

theorem Quiet.refl (s : State) : Quiet s s :=
  ⟨rfl, rfl, rfl, rfl, rfl, rfl, rfl, rfl, rfl, rfl, fun _ => rfl, fun _ => .inl rfl, fun _ => rfl, fun _ => rfl, fun _ => rfl⟩

/-- What holds of no move between two states cannot change through moves. -/
theorem Moves.keep {G : Prop} {s t : State} (P : State → Prop) (step : ∀ s t, Move G s t → P s → P t) (h : Moves G s t)
    (hs : P s) : P t := by
  induction h with
  | refl => exact hs
  | tail _ hm ih => exact step _ _ hm ih

/-! ## The books: write queue, image memory, ranges and works time (R1, R5, R56, R63, R173) -/

/-- What the books keep between two states: with each law the later state keeps it, works time does not fall, and the start-up
phase is the same. -/
structure Books (s t : State) : Prop where
  queue : QueueDistinct s → QueueDistinct t
  image : ImageCanonical s → ImageCanonical t
  ranges : RecordRanges s → RecordRanges t
  time : s.wck.time ≤ Config.max32 → s.wck.time ≤ t.wck.time ∧ t.wck.time ≤ Config.max32
  sys : t.sys = s.sys

theorem Books.refl (s : State) : Books s s := ⟨id, id, id, fun h => ⟨Nat.le_refl _, h⟩, rfl⟩

theorem Books.trans {s t u : State} (h : Books s t) (k : Books t u) : Books s u :=
  ⟨k.queue ∘ h.queue, k.image ∘ h.image, k.ranges ∘ h.ranges,
    fun hs => ⟨Nat.le_trans (h.time hs).1 (k.time (h.time hs).2).1, (k.time (h.time hs).2).2⟩, k.sys.trans h.sys⟩

theorem Books.foldl {β : Type} {f : State → β → State} (h : ∀ t x, Books t (f t x)) (l : List β) (s : State) :
    Books s (l.foldl f s) := by
  induction l generalizing s with
  | nil => exact Books.refl s
  | cons x l ih => exact (h s x).trans (ih _)

theorem RecordRanges.congr {s t : State} (h : RecordRanges s) (hslots : t.tbc.slots = s.tbc.slots) : RecordRanges t :=
  ⟨fun n => State.revAt_congr hslots n ▸ h.1 n, fun n r hr => h.2 n r (State.recAt_congr hslots n ▸ hr)⟩

/-- What reaches neither the slots, the ISI, the clock nor the start-up keeps the books. -/
theorem Books.of_same {s t : State} (hslots : t.tbc.slots = s.tbc.slots) (hisi : t.isi = s.isi) (hwck : t.wck = s.wck)
    (hsys : t.sys = s.sys) : Books s t where
  queue h := by unfold QueueDistinct; rw [hisi]; exact h
  image h := by unfold ImageCanonical; rw [hisi]; exact h
  ranges h := h.congr hslots
  time h := by rw [hwck]; exact ⟨Nat.le_refl _, h⟩
  sys := hsys

theorem Books.hand (s : State) (i : Item) : Books s (s.hand i) where
  queue h := State.hand_nodup h i
  image h := by unfold ImageCanonical; rw [State.hand_isi]; exact h
  ranges h := ⟨fun n => by rw [State.revAt_hand]; exact h.1 n, fun n r hr => h.2 n r (by rwa [State.recAt_hand] at hr)⟩
  time h := by simp [h]
  sys := by simp

theorem Books.putSlot {s : State} (n : Nat) (x : Slot) (hrev : RecordRanges s → x.rev ≤ 65535)
    (hrec : ∀ r, x.rec? = some r → RecordRanges s → r.retests ≤ 2) : Books s (s.putSlot n x) where
  queue h := h
  image h := h
  ranges h := by
    refine ⟨fun m => ?_, fun m r hr => ?_⟩
    · by_cases e : m = n
      · subst e; rw [State.revAt_eq, State.slotAt_putSlot_same]; exact hrev h
      · rw [State.revAt_eq, State.slotAt_putSlot_ne _ _ _ _ e]; exact h.1 m
    · by_cases e : m = n
      · subst e; rw [State.recAt_putSlot_same] at hr; exact hrec r hr h
      · rw [State.recAt_putSlot_ne _ _ _ _ e] at hr; exact h.2 m r hr
  time h := by simpa using h
  sys := rfl

theorem Books.update {s : State} (n st : Nat) {f : Record → Record}
    (hf : ∀ r, s.recAt n = some r → r.retests ≤ 2 → (f r).retests ≤ 2) : Books s (s.update n st f) := by
  cases hr : s.recAt n with
  | none => rw [State.update_none hr]; exact Books.refl s
  | some r =>
    by_cases hfr : f r = r
    · rw [State.update_same hr _ hfr]; exact Books.refl s
    · rw [State.update_some hr _ hfr]
      refine (Books.putSlot n _ (fun _ => ?_) (fun q hq hs => ?_)).trans (Books.hand _ _)
      · exact Nat.le_of_lt_succ (Nat.mod_lt _ (by decide))
      · cases hq; exact hf r hr (hs.2 n r hr)

theorem Books.tell (s : State) (subj : Subject) (c : Cond) : Books s (s.tell subj c) :=
  Books.of_same (by simp) (by simp) (by simp) (by simp)

theorem Books.updateRaising {s : State} (n st : Nat) (cs : List Cond) {f : Record → Record}
    (hf : ∀ r, s.recAt n = some r → r.retests ≤ 2 → (f r).retests ≤ 2) : Books s (s.updateRaising n st cs f) :=
  Books.trans (Books.update (f := fun r => { f r with conds := addConds cs (f r).conds }) n st hf)
    (Books.foldl (f := fun t c => t.tell (.record n) c) (fun t c => Books.tell t _ c) _ _)

theorem Books.setMap (s : State) (key : Nat) (v? : Option Nat) : Books s (s.setMap key v?) := by
  unfold State.setMap
  dsimp only
  split
  · exact Books.refl s
  · have h0 : Books s { s with tbc := { s.tbc with map := s.tbc.map.set key v? } } := Books.of_same rfl rfl rfl rfl
    cases s.tbc.map.get? key <;> cases v?
    · exact h0
    · exact h0.trans (Books.hand _ _)
    · exact h0.trans (Books.hand _ _)
    · exact h0.trans ((Books.hand _ _).trans (Books.hand _ _))

theorem Books.retireRecord {s : State} (n st : Nat) (reason : RetireReason) {f : Record → Record}
    (hf : ∀ r, s.recAt n = some r → r.retests ≤ 2 → (f r).retests ≤ 2) : Books s (s.retireRecord n st reason f) := by
  unfold State.retireRecord
  cases hr : s.recAt n with
  | none => exact Books.refl s
  | some r =>
    have h1 : Books s (((s.update n st (fun q => retireFields reason (f q))).freeChannel r.binding).untell
        (fun e => e.subject = .record n)) :=
      Books.trans (Books.update (f := fun q => retireFields reason (f q)) n st hf)
        (Books.of_same (by simp) (by simp) (by simp) (by simp))
    have h2 : ∀ t : State, Books t (t.unlinkOld n st r) := fun t => by
      unfold State.unlinkOld
      split
      · exact Books.refl t
      · split
        · exact Books.refl t
        · split
          · exact Books.update _ _ (fun _ _ h => h)
          · exact Books.refl t
    dsimp only
    split
    · exact h1.trans ((h2 _).trans (Books.setMap _ _ _))
    · exact h1.trans (h2 _)

theorem Books.place {s : State} (n : Nat) (r : Record) (hr : r.retests = 0) : Books s (s.place n r) :=
  (Books.putSlot n _ (fun _ => Nat.le_of_lt_succ (Nat.mod_lt _ (by decide)))
    (fun q hq _ => by cases hq; omega)).trans (Books.hand _ _)

theorem Books.untell (s : State) (p : Entry → Bool) : Books s (s.untell p) := Books.of_same rfl rfl rfl rfl

theorem Books.purge (s : State) (n sender : Nat) : Books s (s.purge n sender) := by
  unfold State.purge
  dsimp only
  refine Books.trans (Books.trans ?_ (Books.untell _ _))
    (Books.foldl (fun t m => Books.update (f := unlink n) m sender (fun _ _ h => h)) _ _)
  exact Books.trans (Books.putSlot n _ (fun h => by exact h.1 n) (fun _ h _ => by cases h)) (Books.hand _ _)

/-- A begun site stop reaches neither slots, ISI nor clock. -/
theorem Books.followStop (s : State) : Books s s.followStop :=
  Books.of_same (by simp) (by simp) (by simp) (by simp)

theorem Books.relevel (s : State) (c : Cond) (level : Nat) : Books s (s.relevel c level) := by
  unfold State.relevel
  dsimp only
  have h1 : Books s { s with atu := ({ s.atu with entries := relevelEntries s.atu.entries c level }).sound s.tbc.site.alarm } :=
    Books.of_same rfl rfl rfl rfl
  split
  · exact h1
  · refine h1.trans (Books.foldl (fun t subj => ?_) _ _)
    split
    · exact Books.tell t _ _
    · exact Books.refl t

theorem Books.setMark (s : State) (subj : Subject) (c : Cond) (on : Bool) : Books s (s.setMark subj c on) := by
  have h : ∀ i : Isi, i.queue = s.isi.queue → i.image = s.isi.image → Books s { s with isi := i } := fun i hq hi =>
    ⟨fun h => by unfold QueueDistinct; rw [hq]; exact h, fun h => by unfold ImageCanonical; rw [hi]; exact h, id,
      fun h => ⟨Nat.le_refl _, h⟩, rfl⟩
  unfold State.setMark
  split
  · exact Books.of_same rfl rfl rfl rfl
  · exact Books.of_same (by simp) (by simp) (by simp) (by simp)
  · exact Books.of_same (by simp) (by simp) (by simp) (by simp)
  · exact h _ rfl rfl
  · exact h _ rfl rfl
  · exact Books.refl s

theorem Books.bindCtx (s : State) (c : Nat) (k : CtxKind) (n station sender : Nat) (r : Record) (resumed : Bool) :
    Books s (s.bindCtx c k n station sender r resumed) := by
  refine (Books.update (f := bindFields k c) n sender (fun _ _ h => h)).trans ?_
  exact Books.of_same (by simp) (by simp) (by simp) (by simp)

theorem Books.siteApply (s : State) (x : SiteItems) : Books s (s.siteApply x) := by
  unfold State.siteApply
  dsimp only
  have h1 : Books s { s with
      tbc := { s.tbc with site := SiteItems.apply x s.tbc.site }
      wck := { s.wck with scale := x.scale.getD s.wck.scale } } :=
    ⟨id, id, id, fun h => ⟨Nat.le_refl _, h⟩, rfl⟩
  have h2 := h1.trans (Books.foldl (f := fun t (p : Cond × Nat) => t.relevel p.1 p.2) (fun t p => Books.relevel t _ _)
    (changedLevels s.tbc.site (SiteItems.apply x s.tbc.site)) _)
  have h3 : ∀ t : State, ∀ a v, Books t (({ t with atu := a } : State).changeInputs v) := fun t a v =>
    Books.of_same (by simp) (by simp) (by simp) (by simp)
  split
  · exact h2.trans (h3 _ _ _)
  · exact (h2.trans (h3 _ _ _)).trans (Books.hand _ _)

/-- Every move keeps the books. -/
theorem Move.books {G : Prop} {s t : State} (h : Move G s t) : Books s t := by
  cases h with
  | quiet h => exact Books.of_same h.slots h.isi h.wck h.sys
  | hand i => exact Books.hand s i
  | isi i hq hi hs hw => exact ⟨hq, hi, id, fun h => ⟨Nat.le_refl _, h⟩, rfl⟩
  | clock w h => exact ⟨id, id, id, h, rfl⟩
  | setDig row h =>
    unfold State.setDig
    split
    · exact Books.refl s
    · refine Books.trans ?_ (Books.hand _ _)
      exact Books.of_same rfl rfl rfl rfl
  | relieve row =>
    unfold State.setRelieved
    split
    · exact Books.refl s
    · refine Books.trans ?_ (Books.hand _ _)
      exact Books.of_same rfl rfl rfl rfl
  | rely row hd hx =>
    unfold State.setRelieved
    split
    · exact Books.refl s
    · refine Books.trans ?_ (Books.hand _ _)
      exact Books.of_same rfl rfl rfl rfl
  | putCtx => exact Books.of_same rfl rfl rfl rfl
  | eachCtx => exact Books.of_same rfl rfl rfl rfl
  | raising n st cs f hcs hf => exact Books.updateRaising n st cs (fun r hr => (hf r hr).retests)
  | dropping n st c f hf hlive =>
    exact (Books.update n st (fun r hr => (hf r hr).retests)).trans (Books.of_same rfl rfl rfl rfl)
  | raiseMark subj c h =>
    unfold State.raiseMark
    split
    · exact Books.refl s
    · exact (Books.setMark s subj c true).trans (Books.tell _ _ _)
  | clearMark subj c =>
    unfold State.clearMark
    split
    · exact (Books.setMark s subj c false).trans (Books.of_same rfl rfl rfl rfl)
    · exact Books.refl s
  | setMap key n r hr hk hl hd => exact Books.setMap s _ _
  | place n r hn hfree hrow hbay hgen hnew hst hr => exact Books.place n r hr.1
  | replace slot sender n r q hslot hn hfree hkey hgen hnew hst hq =>
    exact Books.trans (Books.update (f := fun q => { q with replacedBy := some n }) slot sender (fun _ _ h => h))
      (Books.place n q hq.1)
  | purge n sender r hr hst => exact Books.purge s n sender
  | retire n st reason f r hr hw hlive hf =>
    exact Books.retireRecord n st reason (fun q hq => by rw [hr] at hq; cases hq; exact hf.retests)
  | bind c k n station sender r resumed hr hup hready hnear hc => exact Books.bindCtx s c k n station sender r resumed
  | release c x p st cs f hx hcs hf =>
    exact (Books.of_same (by simp) (by simp) (by simp) (by simp)).trans
      (Books.updateRaising (s := s.freeCtx c x p) x.slot st cs (fun r hr => (hf r hr).retests))
  | releaseRetire c x p st hx =>
    exact (Books.of_same (by simp) (by simp) (by simp) (by simp)).trans
      (Books.retireRecord (s := s.freeCtx c x p) x.slot st _ (fun _ _ h => h))
  | setBinding n st b r hr hl hb hfree =>
    exact (Books.update (f := fun q => { q with binding := some b }) n st (fun _ _ h => h)).trans
      (Books.of_same (by simp [State.setBinding]) (by simp [State.setBinding]) (by simp [State.setBinding])
        (by simp [State.setBinding]))
  | dropBinding n st r hr =>
    exact (Books.update (f := fun q => { q with binding := none }) n st (fun _ _ h => h)).trans
      (Books.of_same (by simp [State.dropBinding]) (by simp [State.dropBinding]) (by simp [State.dropBinding])
        (by simp [State.dropBinding]))
  | overflow => exact Books.of_same rfl rfl rfl rfl
  | endStop h => exact Books.of_same rfl rfl rfl rfl
  | changeInputs v => exact Books.of_same (by simp) (by simp) (by simp) (by simp)
  | restartInputs => exact Books.of_same (by simp) (by simp) (by simp) (by simp)
  | key k hk hs => exact Books.of_same rfl rfl rfl rfl
  | pins v h => exact Books.of_same rfl rfl rfl rfl
  | siteApply x h => exact Books.siteApply s x

end Sys2Proof.Machine
end

section
/-! The attention list (R133 to R141): its order is kept by everything that is done to it, and so the law of the list is kept
by every move. -/

namespace Sys2Proof.Machine

/-! ## The order of the list -/

/-- The list with its count: at most 64 entries in the order of R135, an overflow count of at most 255. -/
def Atu.Ordered (a : Atu) : Prop :=
  a.entries.length ≤ 64 ∧ a.overflow ≤ 255 ∧ a.entries.Pairwise (fun x y => y.before x = false)

/-- Of two entries at most one stands before the other. -/
theorem Entry.before_asymm {x y : Entry} (h : x.before y = true) : y.before x = false := by
  simp only [Entry.before, decide_eq_true_eq, decide_eq_false_iff_not] at *
  omega

theorem insertEntry_sorted (e : Entry) {l : List Entry} (h : l.Pairwise (fun x y => y.before x = false)) :
    (insertEntry e l).Pairwise (fun x y => y.before x = false) := by
  obtain ⟨hi, lo, rfl, h2, hhi, hlo⟩ := insertEntry_putInPlace e l h
  rw [h2]
  obtain ⟨phi, plo, hcross⟩ := List.pairwise_append.1 h
  refine List.pairwise_append.2 ⟨phi, List.pairwise_cons.2 ⟨fun y hy => Entry.before_asymm (hlo y hy), plo⟩, ?_⟩
  intro x hx y hy
  rcases List.mem_cons.1 hy with rfl | hy
  · exact hhi x hx
  · exact hcross x hx y hy

theorem insertEntry_perm (e : Entry) (l : List Entry) : (insertEntry e l).Perm (e :: l) := by
  induction l with
  | nil => exact List.Perm.refl _
  | cons x l ih =>
    unfold insertEntry
    split
    · exact List.Perm.refl _
    · exact (ih.cons x).trans (List.Perm.swap e x l)

theorem Atu.place_ordered {a : Atu} (h : a.Ordered) (e : Entry) : (a.place e).Ordered := by
  obtain ⟨hlen, hover, hsort⟩ := h
  have hbump : bump255 a.overflow ≤ 255 := Nat.min_le_left _ _
  unfold Atu.place
  split
  · next hl => exact ⟨by simpa [insertEntry_length] using hl, hover, insertEntry_sorted e hsort⟩
  · split
    · split
      · next old hold =>
        have hmem : old ∈ a.entries := by
          have := newestOf_spec (lowestLevel a.entries) a.entries
          rw [hold] at this
          obtain ⟨hi, lo, heq, -⟩ := this
          rw [heq]; simp
        refine ⟨?_, hbump, insertEntry_sorted e (hsort.sublist List.erase_sublist)⟩
        simp only [insertEntry_length, List.length_erase_of_mem hmem]
        have := List.length_pos_of_mem hmem
        omega
      · exact ⟨hlen, hbump, hsort⟩
    · exact ⟨hlen, hbump, hsort⟩

theorem Atu.drop_ordered {a : Atu} (h : a.Ordered) (p : Entry → Bool) : (a.drop p).Ordered :=
  ⟨(List.length_filter_le _ _).trans h.1, h.2.1, h.2.2.filter _⟩

theorem insertAll_length (g : Entry → Entry) (es l : List Entry) :
    (es.foldl (fun acc e => insertEntry (g e) acc) l).length = l.length + es.length := by
  induction es generalizing l with
  | nil => rfl
  | cons e es ih => rw [List.foldl_cons, ih, insertEntry_length, List.length_cons]; omega

theorem insertAll_sorted (g : Entry → Entry) (es : List Entry) {l : List Entry}
    (h : l.Pairwise (fun x y => y.before x = false)) :
    (es.foldl (fun acc e => insertEntry (g e) acc) l).Pairwise (fun x y => y.before x = false) := by
  induction es generalizing l with
  | nil => exact h
  | cons e es ih => exact ih (insertEntry_sorted _ h)

theorem insertAll_perm (g : Entry → Entry) (es l : List Entry) :
    (es.foldl (fun acc e => insertEntry (g e) acc) l).Perm (l ++ es.map g) := by
  induction es generalizing l with
  | nil => simp
  | cons e es ih =>
    refine (ih _).trans (((insertEntry_perm (g e) l).append_right _).trans ?_)
    simpa using List.perm_middle.symm

theorem relevelEntries_length (l : List Entry) (c : Cond) (level : Nat) : (relevelEntries l c level).length ≤ l.length := by
  unfold relevelEntries
  dsimp only
  split
  · exact List.length_filter_le _ _
  · rw [insertAll_length (fun e => { e with level := level })]
    have := List.length_eq_length_filter_add (l := l) (fun e => decide (e.cond ≠ c))
    simp only [decide_not, Bool.not_not] at this ⊢
    omega

theorem relevelEntries_sorted {l : List Entry} (h : l.Pairwise (fun x y => y.before x = false)) (c : Cond) (level : Nat) :
    (relevelEntries l c level).Pairwise (fun x y => y.before x = false) := by
  unfold relevelEntries
  dsimp only
  split
  · exact h.filter _
  · exact insertAll_sorted (fun e => { e with level := level }) _ (h.filter _)

/-! ## The law of the list under each operation -/

/-- A list in order whose alarm has just been set obeys the law (R141). -/
theorem attentionLaw_of_sound {t : State} {a : Atu} (ha : a.Ordered) (h : t.atu = a.sound t.tbc.site.alarm) :
    AttentionLaw t := by
  unfold AttentionLaw
  rw [h]
  exact ⟨ha.1, ha.2.1, ha.2.2, Atu.sound_alm _ _⟩

theorem AttentionLaw.ordered {s : State} (h : AttentionLaw s) : s.atu.Ordered := ⟨h.1, h.2.1, h.2.2.1⟩

theorem AttentionLaw.congr {s t : State} (h : AttentionLaw s) (hatu : t.atu = s.atu)
    (halarm : t.tbc.site.alarm = s.tbc.site.alarm) : AttentionLaw t := by
  unfold AttentionLaw
  rw [hatu, halarm]
  exact h

theorem AttentionLaw.tell {s : State} (h : AttentionLaw s) (subj : Subject) (c : Cond) : AttentionLaw (s.tell subj c) := by
  unfold State.tell State.tellAt
  split
  · exact h
  · exact attentionLaw_of_sound (Atu.place_ordered h.ordered _) rfl

theorem AttentionLaw.untell {s : State} (h : AttentionLaw s) (p : Entry → Bool) : AttentionLaw (s.untell p) :=
  attentionLaw_of_sound (Atu.drop_ordered h.ordered p) rfl

/-- A fold of steps that each keep a law keeps it. -/
theorem foldl_keeps {σ β : Type} {P : σ → Prop} {f : σ → β → σ} (h : ∀ t x, P t → P (f t x)) (l : List β) {s : σ} (hs : P s) :
    P (l.foldl f s) := by
  induction l generalizing s with
  | nil => exact hs
  | cons x l ih => exact ih (h s x hs)

theorem AttentionLaw.updateRaising {s : State} (h : AttentionLaw s) (n st : Nat) (cs : List Cond) (f : Record → Record) :
    AttentionLaw (s.updateRaising n st cs f) :=
  foldl_keeps (f := fun (t : State) c => t.tell (.record n) c) (fun _ c ht => ht.tell _ c) _ (h.congr (by simp) (by simp))

/-- Entry to RETIRED takes the record's entries from the list (R8). -/
theorem State.retireRecord_atu {s : State} {n : Nat} {r : Record} (hr : s.recAt n = some r) (st : Nat)
    (reason : RetireReason) (f : Record → Record) : (s.retireRecord n st reason f).atu =
      (s.atu.drop (fun e => e.subject = .record n)).sound s.tbc.site.alarm := by
  have h : ∀ t : State, (t.unlinkOld n st r).atu = t.atu := fun t => by simp
  unfold State.retireRecord
  rw [hr]
  dsimp only
  split
  · rw [State.setMap_atu, h]; simp [State.untell]
  · rw [h]; simp [State.untell]

@[simp] theorem State.unlinkOld_site (s : State) (n st : Nat) (r : Record) :
    (s.unlinkOld n st r).tbc.site = s.tbc.site := by
  unfold State.unlinkOld
  repeat' split
  all_goals simp

@[simp] theorem State.retireRecord_site (s : State) (n st : Nat) (reason : RetireReason) (f : Record → Record) :
    (s.retireRecord n st reason f).tbc.site = s.tbc.site := by
  unfold State.retireRecord
  split
  · rfl
  · dsimp only; split <;> simp

theorem AttentionLaw.retireRecord {s : State} (h : AttentionLaw s) (n st : Nat) (reason : RetireReason)
    (f : Record → Record) : AttentionLaw (s.retireRecord n st reason f) := by
  cases hr : s.recAt n with
  | none => unfold State.retireRecord; rw [hr]; exact h
  | some r =>
    refine attentionLaw_of_sound (Atu.drop_ordered h.ordered (fun e => e.subject = .record n)) ?_
    rw [State.retireRecord_atu hr, State.retireRecord_site]

theorem AttentionLaw.setMark {s : State} (h : AttentionLaw s) (subj : Subject) (c : Cond) (on : Bool) :
    AttentionLaw (s.setMark subj c on) := h.congr (by simp) (by simp)

@[simp] theorem State.followKey_sameAtu (s : State) : s.followKey.atu = s.atu := rfl

theorem AttentionLaw.followStop {s : State} (h : AttentionLaw s) : AttentionLaw s.followStop := by
  unfold State.followStop
  split
  · unfold State.beginStop
    dsimp only
    split
    · refine AttentionLaw.tell (h.congr ?_ ?_) _ _ <;> rfl
    · exact h.congr rfl rfl
  · exact h

theorem State.relevel_tbc (s : State) (c : Cond) (level : Nat) : (s.relevel c level).tbc = s.tbc := by
  unfold State.relevel
  dsimp only
  split
  · rfl
  · exact foldl_same State.tbc _ (fun t subj => by split <;> simp) _ _

/-- Re-levelling one kind keeps the list in order (R138). -/
theorem State.relevel_ordered {s : State} (h : s.atu.Ordered) (c : Cond) (level : Nat) : (s.relevel c level).atu.Ordered := by
  have hr : ({ s.atu with entries := relevelEntries s.atu.entries c level } : Atu).Ordered :=
    ⟨(relevelEntries_length _ _ _).trans h.1, h.2.1, relevelEntries_sorted h.2.2 c level⟩
  unfold State.relevel
  dsimp only
  split
  · exact hr
  · refine foldl_keeps (P := fun t : State => t.atu.Ordered) (fun t subj ht => ?_) _ hr
    split
    · unfold State.tell State.tellAt
      split
      · exact ht
      · exact Atu.place_ordered ht _
    · exact ht

/-- The part once a SITE_WRITE has set its values, before anything follows them (R34). -/
def State.siteValues (s : State) (x : SiteItems) : State :=
  { s with
    tbc := { s.tbc with site := SiteItems.apply x s.tbc.site }
    wck := { s.wck with scale := x.scale.getD s.wck.scale } }

/-- The part once the changed kinds have been re-levelled, with ALM against the new threshold (R138, R141). -/
def State.siteLevels (s : State) (x : SiteItems) : State :=
  let t := (changedLevels s.tbc.site (SiteItems.apply x s.tbc.site)).foldl (fun t p => t.relevel p.1 p.2) (s.siteValues x)
  { t with atu := t.atu.sound (SiteItems.apply x s.tbc.site).alarm }

/-- A SITE_WRITE sets its values, re-levels the list, acts on the inputs and hands the header where anything changed. -/
theorem State.siteApply_eq (s : State) (x : SiteItems) : s.siteApply x =
    let t := (s.siteLevels x).changeInputs
      (restartChanged s.tbc.site (SiteItems.apply x s.tbc.site) (s.siteLevels x).ifu)
    if SiteItems.apply x s.tbc.site = s.tbc.site ∧ x.scale.getD s.wck.scale = s.wck.scale then t else t.hand .header := rfl

theorem State.siteLevels_tbc (s : State) (x : SiteItems) :
    (s.siteLevels x).tbc = { s.tbc with site := SiteItems.apply x s.tbc.site } := by
  have h := foldl_same State.tbc (fun (t : State) (p : Cond × Nat) => t.relevel p.1 p.2)
    (fun t p => State.relevel_tbc t p.1 p.2) (changedLevels s.tbc.site (SiteItems.apply x s.tbc.site)) (s.siteValues x)
  exact h

theorem State.siteLevels_attention {s : State} (h : s.atu.Ordered) (x : SiteItems) : AttentionLaw (s.siteLevels x) := by
  have hord := foldl_keeps (P := fun t : State => t.atu.Ordered) (f := fun t (p : Cond × Nat) => t.relevel p.1 p.2)
    (fun t p ht => State.relevel_ordered ht p.1 p.2) (changedLevels s.tbc.site (SiteItems.apply x s.tbc.site))
    (s := s.siteValues x) h
  refine attentionLaw_of_sound hord ?_
  rw [State.siteLevels_tbc]
  rfl

theorem AttentionLaw.changeInputs {s : State} (h : AttentionLaw s) (v : Vector Input 4) : AttentionLaw (s.changeInputs v) := by
  have h1 : AttentionLaw { s with ifu := { s.ifu with inputs := v } } := h.congr rfl rfl
  exact h1.followStop.congr rfl rfl

theorem AttentionLaw.restartInputs {s : State} (h : AttentionLaw s) : AttentionLaw s.restartInputs := by
  have h1 : AttentionLaw { s with ifu := { s.ifu with inputs := s.ifu.inputs.map Input.restart } } := h.congr rfl rfl
  exact h1.followStop.congr rfl rfl

theorem AttentionLaw.siteApply {s : State} (h : AttentionLaw s) (x : SiteItems) : AttentionLaw (s.siteApply x) := by
  have h1 := (State.siteLevels_attention h.ordered x).changeInputs
    (restartChanged s.tbc.site (SiteItems.apply x s.tbc.site) (s.siteLevels x).ifu)
  rw [State.siteApply_eq]
  dsimp only
  split
  · exact h1
  · exact h1.congr (by simp) (by simp)

theorem State.setDig_atu (s : State) (row : Nat) : (s.setDig row).atu = s.atu := by
  unfold State.setDig; split <;> simp
theorem State.setDig_alarm (s : State) (row : Nat) : (s.setDig row).tbc.site.alarm = s.tbc.site.alarm := by
  unfold State.setDig; split <;> simp
theorem State.setRelieved_atu (s : State) (row : Nat) (on : Bool) : (s.setRelieved row on).atu = s.atu := by
  unfold State.setRelieved; split <;> simp
theorem State.setRelieved_alarm (s : State) (row : Nat) (on : Bool) :
    (s.setRelieved row on).tbc.site.alarm = s.tbc.site.alarm := by
  unfold State.setRelieved; split <;> simp

@[simp] theorem State.place_site (s : State) (n : Nat) (r : Record) : (s.place n r).tbc.site = s.tbc.site := by
  simp [State.place]

/-- A purge takes the record's entries from the list, and nothing else of the ATU and the settings (R20). -/
theorem State.purge_atu (s : State) (n sender : Nat) :
    (s.purge n sender).atu = (s.atu.drop (fun e => e.subject = .record n)).sound s.tbc.site.alarm := by
  unfold State.purge
  dsimp only
  rw [foldl_same State.atu _ (fun t m => by simp)]
  simp [State.untell]

theorem State.purge_site (s : State) (n sender : Nat) : (s.purge n sender).tbc.site = s.tbc.site := by
  unfold State.purge
  dsimp only
  rw [foldl_same (fun t : State => t.tbc.site) _ (fun t m => by simp)]
  simp

/-- Every move keeps the law of the attention list. -/
theorem Move.attention {G : Prop} {s t : State} (h : Move G s t) (hs : AttentionLaw s) : AttentionLaw t := by
  cases h with
  | quiet h => exact hs.congr h.atu (by rw [h.site])
  | hand i => exact hs.congr (by simp) (by simp)
  | isi i hq hi h1 h2 => exact hs.congr rfl rfl
  | clock w h => exact hs.congr rfl rfl
  | setDig row h => exact hs.congr (State.setDig_atu s row) (State.setDig_alarm s row)
  | relieve row => exact hs.congr (State.setRelieved_atu s row true) (State.setRelieved_alarm s row true)
  | rely row hd hx => exact hs.congr (State.setRelieved_atu s row false) (State.setRelieved_alarm s row false)
  | putCtx => exact hs.congr rfl rfl
  | eachCtx => exact hs.congr rfl rfl
  | raising n st cs f hcs hf => exact hs.updateRaising n st cs f
  | dropping n st c f hf hlive => exact AttentionLaw.untell (hs.congr (by simp) (by simp)) _
  | raiseMark subj c h =>
    unfold State.raiseMark
    split
    · exact hs
    · exact (hs.setMark subj c true).tell _ _
  | clearMark subj c =>
    unfold State.clearMark
    split
    · exact (hs.setMark subj c false).untell _
    · exact hs
  | setMap => exact hs.congr (by simp) (by simp)
  | place => exact hs.congr (by simp) (by simp)
  | replace => exact hs.congr (by simp) (by simp)
  | purge n sender r hr hst =>
    refine attentionLaw_of_sound (Atu.drop_ordered hs.ordered (fun e => e.subject = .record n)) ?_
    rw [State.purge_atu, State.purge_site]
  | retire n st reason f r hr hw hlive hf => exact hs.retireRecord n st reason f
  | bind => exact hs.congr (by simp) (by simp)
  | release c x p st cs f hx hcs hf => exact AttentionLaw.updateRaising (hs.congr (by simp) (by simp)) _ _ _ _
  | releaseRetire c x p st hx => exact AttentionLaw.retireRecord (hs.congr (by simp) (by simp)) _ _ _ _
  | setBinding => exact hs.congr (by simp [State.setBinding]) (by simp [State.setBinding])
  | dropBinding => exact hs.congr (by simp [State.dropBinding]) (by simp [State.dropBinding])
  | overflow => exact ⟨hs.1, Nat.zero_le _, hs.2.2⟩
  | endStop h => exact AttentionLaw.congr (AttentionLaw.untell (hs.congr rfl rfl) _) rfl rfl
  | changeInputs v => exact hs.changeInputs v
  | restartInputs => exact hs.restartInputs
  | key => exact hs.congr rfl rfl
  | pins => exact hs.congr rfl rfl
  | siteApply x h => exact hs.siteApply x

end Sys2Proof.Machine
end

section
/-! The marks (R6, R134) and the entries that show them, and the inputs (R145 to R152): kept by every move. -/

namespace Sys2Proof.Machine

/-! ## Which conditions are marked -/

/-- What is marked in `s` is marked in `t`: no record has lost a condition, and no owner a mark. -/
structure MarksKept (s t : State) : Prop where
  recs : ∀ n c, s.marked (.record n) c = true → t.marked (.record n) c = true
  stations : ∀ n, (s.stationAt n).faultMark = true → (t.stationAt n).faultMark = true
  lineFaults : ∀ l, (s.lineAt l).faultMark = true → (t.lineAt l).faultMark = true
  lineNoises : ∀ l, (s.lineAt l).noiseMark = true → (t.lineAt l).noiseMark = true
  stop : s.ifu.stop.isSome = true → t.ifu.stop.isSome = true
  suspect : s.isi.suspectMark = true → t.isi.suspectMark = true
  write : s.isi.writeMark = true → t.isi.writeMark = true

theorem State.marked_record {s : State} {n : Nat} {c : Cond} :
    s.marked (.record n) c = true ↔ ∃ r, s.recAt n = some r ∧ c ∈ r.conds := by
  cases hr : s.recAt n <;> simp [State.marked, hr]

theorem MarksKept.marked {s t : State} (h : MarksKept s t) {subj : Subject} {c : Cond} (hm : s.marked subj c = true) :
    t.marked subj c = true := by
  cases subj with
  | record n => exact h.recs n c hm
  | station n =>
    simp only [State.marked, decide_eq_true_eq] at hm ⊢
    exact ⟨hm.1, h.stations n hm.2⟩
  | line l =>
    simp only [State.marked, decide_eq_true_eq] at hm ⊢
    exact hm.imp (fun ⟨a, b⟩ => ⟨a, h.lineFaults l b⟩) (fun ⟨a, b⟩ => ⟨a, h.lineNoises l b⟩)
  | site =>
    simp only [State.marked, decide_eq_true_eq] at hm ⊢
    exact hm.imp (fun ⟨a, b⟩ => ⟨a, h.stop b⟩)
      (fun k => k.imp (fun ⟨a, b⟩ => ⟨a, h.suspect b⟩) (fun ⟨a, b⟩ => ⟨a, h.write b⟩))

theorem State.stationAt_congr {s t : State} (h : t.bmu = s.bmu) (n : Nat) : t.stationAt n = s.stationAt n := by
  simp [State.stationAt, h]
theorem State.lineAt_congr {s t : State} (h : t.bmu = s.bmu) (l : LineId) : t.lineAt l = s.lineAt l := by
  cases l <;> simp [State.lineAt, h]

/-- What reaches no owner of a mark but the records keeps the marks that the records keep. -/
theorem MarksKept.of_recs {s t : State} (hrec : ∀ n r, s.recAt n = some r → ∃ q, t.recAt n = some q ∧ ∀ c ∈ r.conds, c ∈ q.conds)
    (hbmu : t.bmu = s.bmu) (hifu : t.ifu = s.ifu) (hs : t.isi.suspectMark = s.isi.suspectMark)
    (hw : t.isi.writeMark = s.isi.writeMark) : MarksKept s t where
  recs n c hm := by
    obtain ⟨r, hr, hc⟩ := State.marked_record.1 hm
    obtain ⟨q, hq, hk⟩ := hrec n r hr
    exact State.marked_record.2 ⟨q, hq, hk c hc⟩
  stations n h := by rw [State.stationAt_congr hbmu]; exact h
  lineFaults l h := by rw [State.lineAt_congr hbmu]; exact h
  lineNoises l h := by rw [State.lineAt_congr hbmu]; exact h
  stop h := by rw [hifu]; exact h
  suspect h := by rw [hs]; exact h
  write h := by rw [hw]; exact h

theorem MarksKept.of_same {s t : State} (hslots : t.tbc.slots = s.tbc.slots) (hbmu : t.bmu = s.bmu) (hifu : t.ifu = s.ifu)
    (hs : t.isi.suspectMark = s.isi.suspectMark) (hw : t.isi.writeMark = s.isi.writeMark) : MarksKept s t :=
  MarksKept.of_recs (fun n r hr => ⟨r, (State.recAt_congr hslots n).trans hr, fun _ h => h⟩) hbmu hifu hs hw

theorem MarksKept.trans {s t u : State} (h : MarksKept s t) (k : MarksKept t u) : MarksKept s u :=
  ⟨fun n c => k.recs n c ∘ h.recs n c, fun n => k.stations n ∘ h.stations n, fun l => k.lineFaults l ∘ h.lineFaults l,
    fun l => k.lineNoises l ∘ h.lineNoises l, k.stop ∘ h.stop, k.suspect ∘ h.suspect, k.write ∘ h.write⟩

theorem MarksKept.refl (s : State) : MarksKept s s := MarksKept.of_same rfl rfl rfl rfl rfl

theorem MarksKept.foldl {β : Type} {f : State → β → State} (h : ∀ t x, MarksKept t (f t x)) (l : List β) (s : State) :
    MarksKept s (l.foldl f s) := by
  induction l generalizing s with
  | nil => exact MarksKept.refl s
  | cons x l ih => exact (h s x).trans (ih _)

@[simp] theorem State.hand_suspectMark (s : State) (i : Item) : (s.hand i).isi.suspectMark = s.isi.suspectMark := by
  rw [State.hand_isi]
@[simp] theorem State.hand_writeMark (s : State) (i : Item) : (s.hand i).isi.writeMark = s.isi.writeMark := by
  rw [State.hand_isi]
@[simp] theorem State.update_suspectMark (s : State) (n st : Nat) (f : Record → Record) :
    (s.update n st f).isi.suspectMark = s.isi.suspectMark := by rw [State.update_isi_rest]
@[simp] theorem State.update_writeMark (s : State) (n st : Nat) (f : Record → Record) :
    (s.update n st f).isi.writeMark = s.isi.writeMark := by rw [State.update_isi_rest]
@[simp] theorem State.setMap_suspectMark (s : State) (key : Nat) (v? : Option Nat) :
    (s.setMap key v?).isi.suspectMark = s.isi.suspectMark := by
  unfold State.setMap; dsimp only; split
  · rfl
  · cases s.tbc.map.get? key <;> cases v? <;> simp
@[simp] theorem State.setMap_writeMark (s : State) (key : Nat) (v? : Option Nat) :
    (s.setMap key v?).isi.writeMark = s.isi.writeMark := by
  unfold State.setMap; dsimp only; split
  · rfl
  · cases s.tbc.map.get? key <;> cases v? <;> simp

theorem MarksKept.update {s : State} (n st : Nat) {f : Record → Record}
    (hf : ∀ r, s.recAt n = some r → ∀ c ∈ r.conds, c ∈ (f r).conds) : MarksKept s (s.update n st f) := by
  refine MarksKept.of_recs (fun m r hr => ?_) (by simp) (by simp) (by simp) (by simp)
  by_cases e : m = n
  · subst e
    obtain ⟨stamp, h⟩ := State.recAt_update hr st f
    exact ⟨_, h, hf r hr⟩
  · exact ⟨r, (State.recAt_update_ne _ _ _ _ _ e).trans hr, fun _ h => h⟩

theorem MarksKept.setMap (s : State) (key : Nat) (v? : Option Nat) : MarksKept s (s.setMap key v?) :=
  MarksKept.of_same (by simp) (by simp) (by simp) (by simp) (by simp)

theorem State.tell_marked (s : State) (subj : Subject) (c : Cond) : MarksKept s (s.tell subj c) :=
  MarksKept.of_same (by simp) (by simp) (by simp) (by simp) (by simp)

/-! ## Entries and marks under each operation -/

/-- Every listed condition is listed once. -/
def Distinct (l : List Entry) : Prop := l.Pairwise (fun x y => ¬ (x.subject = y.subject ∧ x.cond = y.cond))

theorem Distinct.perm {l l' : List Entry} (h : Distinct l) (p : l.Perm l') : Distinct l' :=
  (p.pairwise_iff (fun hxy hyx => hxy ⟨hyx.1.symm, hyx.2.symm⟩)).1 h

/-- Handling an entry lists it beside entries that were listed, or lists nothing new (R136). -/
theorem Atu.place_perm (a : Atu) (e : Entry) :
    (∃ l, l.Sublist a.entries ∧ (a.place e).entries.Perm (e :: l)) ∨ (a.place e).entries = a.entries := by
  unfold Atu.place
  split
  · exact .inl ⟨_, List.Sublist.refl _, insertEntry_perm e _⟩
  · split
    · split
      · exact .inl ⟨_, List.erase_sublist, insertEntry_perm e _⟩
      · exact .inr rfl
    · exact .inr rfl

theorem MarkLaw.mono {s t : State} (h : MarkLaw s) (hsub : t.atu.entries.Sublist s.atu.entries)
    (hm : ∀ e ∈ t.atu.entries, s.marked e.subject e.cond = true → t.marked e.subject e.cond = true) : MarkLaw t :=
  ⟨h.1.sublist hsub, fun e he => hm e he (h.2 e (hsub.subset he))⟩

theorem MarkLaw.keep {s t : State} (h : MarkLaw s) (hatu : t.atu = s.atu) (hm : MarksKept s t) : MarkLaw t :=
  h.mono (hatu ▸ List.Sublist.refl _) (fun _ _ => hm.marked)

/-- What is not marked is not listed. -/
theorem MarkLaw.not_listed {s : State} (h : MarkLaw s) {subj : Subject} {c : Cond} (hm : s.marked subj c = false) :
    ∀ e ∈ s.atu.entries, ¬ (e.subject = subj ∧ e.cond = c) := by
  rintro e he ⟨rfl, rfl⟩
  rw [h.2 e he] at hm
  cases hm

/-- Telling a marked condition that is not listed keeps entries and marks in agreement (R134, R136). -/
theorem MarkLaw.tell {s : State} (h : MarkLaw s) {subj : Subject} {c : Cond} (hm : s.marked subj c = true)
    (hn : ∀ e ∈ s.atu.entries, ¬ (e.subject = subj ∧ e.cond = c)) : MarkLaw (s.tell subj c) := by
  have hk := State.tell_marked s subj c
  by_cases hl : levelOf s.tbc.site c = 0
  · exact h.keep (by simp [State.tell, State.tellAt, hl]) hk
  have hentries : (s.tell subj c).atu.entries =
      (s.atu.place { subject := subj, cond := c, level := levelOf s.tbc.site c, time := s.wck.time }).entries := by
    simp [State.tell, State.tellAt, hl]
  rcases s.atu.place_perm { subject := subj, cond := c, level := levelOf s.tbc.site c, time := s.wck.time } with
    ⟨l, hl, hp⟩ | he
  · have hd : Distinct ({ subject := subj, cond := c, level := levelOf s.tbc.site c, time := s.wck.time } :: l) := by
      refine List.pairwise_cons.2 ⟨fun y hy => ?_, h.1.sublist hl⟩
      rintro ⟨hsubj, hcond⟩
      exact hn y (hl.subset hy) ⟨hsubj.symm, hcond.symm⟩
    refine ⟨by rw [hentries]; exact hd.perm hp.symm, fun e he => ?_⟩
    rw [hentries] at he
    rcases List.mem_cons.1 (hp.subset he) with rfl | he
    · exact hk.marked hm
    · exact hk.marked (h.2 e (hl.subset he))
  · exact h.mono (by rw [hentries, he]) (fun _ _ => hk.marked)

/-- What telling leaves listed is what was told of or listed before. -/
theorem State.mem_tell {s : State} {subj : Subject} {c : Cond} {e : Entry} (h : e ∈ (s.tell subj c).atu.entries) :
    (e.subject = subj ∧ e.cond = c) ∨ e ∈ s.atu.entries := by
  unfold State.tell State.tellAt at h
  split at h
  · exact .inr h
  · rcases Atu.mem_place h with rfl | h
    · exact .inl ⟨rfl, rfl⟩
    · exact .inr h

/-- Telling marked conditions one after the other, none listed and none twice. -/
theorem MarkLaw.tells {subj : Subject} {cs : List Cond} (hcs : cs.Nodup) {s : State} (h : MarkLaw s)
    (hm : ∀ c ∈ cs, s.marked subj c = true) (hn : ∀ c ∈ cs, ∀ e ∈ s.atu.entries, ¬ (e.subject = subj ∧ e.cond = c)) :
    MarkLaw (cs.foldl (fun t c => t.tell subj c) s) := by
  induction cs generalizing s with
  | nil => exact h
  | cons c cs ih =>
    obtain ⟨hc, hcs⟩ := List.nodup_cons.1 hcs
    refine ih hcs (h.tell (hm c (by simp)) (hn c (by simp))) (fun d hd => ?_) (fun d hd e he => ?_)
    · exact (State.tell_marked s subj c).marked (hm d (by simp [hd]))
    · rcases State.mem_tell he with ⟨-, he⟩ | he
      · rintro ⟨-, rfl⟩; exact hc (he ▸ hd)
      · exact hn d (by simp [hd]) e he

/-- A record update that raises conditions, each once, keeps entries and marks in agreement (R6). -/
theorem MarkLaw.updateRaising {s : State} (h : MarkLaw s) (n st : Nat) {cs : List Cond} (hcs : cs.Nodup)
    {f : Record → Record} (hf : ∀ r, s.recAt n = some r → (f r).conds = r.conds) :
    MarkLaw (s.updateRaising n st cs f) := by
  unfold State.updateRaising
  cases hr : s.recAt n with
  | none =>
    rw [State.update_none hr]
    simpa [State.newConds, hr] using h
  | some r =>
    have hnew : s.newConds n cs = cs.filter (fun c => c ∉ r.conds) := by simp [State.newConds, hr]
    have hk : MarksKept s (s.update n st (fun r => { f r with conds := addConds cs (f r).conds })) :=
      MarksKept.update n st (fun q hq c hc => mem_addConds.2 (.inr (by rw [hf q hq]; exact hc)))
    rw [hnew]
    refine MarkLaw.tells (hcs.filter _) (h.keep (by simp) hk) (fun c hc => ?_) (fun c hc e he => ?_)
    · obtain ⟨stamp, hu⟩ := State.recAt_update hr st (fun r => { f r with conds := addConds cs (f r).conds })
      exact State.marked_record.2 ⟨_, hu, mem_addConds.2 (.inl (List.mem_filter.1 hc).1)⟩
    · rw [State.update_atu] at he
      refine h.not_listed ?_ e he
      have hc : c ∉ r.conds := by simpa using (List.mem_filter.1 hc).2
      simp [State.marked, hr, hc]

/-- Removing entries keeps the law where only removed ones lose their mark (R137). -/
theorem MarkLaw.untell {s t : State} (h : MarkLaw s) (p : Entry → Bool) (hatu : t.atu = s.atu)
    (hm : ∀ subj c, s.marked subj c = true →
      (∃ e : Entry, e.subject = subj ∧ e.cond = c ∧ p e = false) → t.marked subj c = true) : MarkLaw (t.untell p) := by
  have hentries : (t.untell p).atu.entries = s.atu.entries.filter (fun e => !p e) := by
    simp [State.untell, Atu.sound, Atu.drop, hatu]
  refine h.mono (by rw [hentries]; exact List.filter_sublist) (fun e he hme => ?_)
  have hp : p e = false := by
    rw [hentries] at he
    simpa using (List.mem_filter.1 he).2
  exact (MarksKept.of_same (s := t) (t := t.untell p) rfl rfl rfl rfl rfl).marked (hm _ _ hme ⟨e, rfl, rfl, hp⟩)

/-! ## The marks that stations, lines and the ISI hold -/

theorem State.stationAt_ge {s : State} {n : Nat} (h : 16 ≤ n) : s.stationAt n = Station.unenrolled := by
  have : s.bmu.stations[n]? = none := by simp; omega
  simp [State.stationAt, this]

/-- A written station entry reads back where the station exists; no other entry changes. -/
theorem State.stationAt_putStation (s : State) (n m : Nat) (x : Station) :
    (s.putStation n x).stationAt m = if m = n ∧ n < 16 then x else s.stationAt m := by
  by_cases e : m = n
  · subst e
    by_cases h : m < 16
    · rw [if_pos ⟨rfl, h⟩, State.stationAt_putStation_same _ _ _ h]
    · rw [if_neg (fun k => h k.2), State.stationAt_ge (by omega), State.stationAt_ge (by omega)]
  · rw [if_neg (fun k => e k.1), State.stationAt_putStation_ne _ _ _ _ e]

@[simp] theorem State.lineAt_putStation (s : State) (n : Nat) (x : Station) (l : LineId) :
    (s.putStation n x).lineAt l = s.lineAt l := by cases l <;> rfl
@[simp] theorem State.stationAt_putLine (s : State) (l : LineId) (x : Line) (n : Nat) :
    (s.putLine l x).stationAt n = s.stationAt n := by cases l <;> rfl
theorem State.lineAt_putLine (s : State) (l m : LineId) (x : Line) :
    (s.putLine l x).lineAt m = if m = l then x else s.lineAt m := by cases l <;> cases m <;> rfl
@[simp] theorem State.recAt_putStation (s : State) (n m : Nat) (x : Station) : (s.putStation n x).recAt m = s.recAt m := rfl
@[simp] theorem State.recAt_putLine (s : State) (l : LineId) (m : Nat) (x : Line) : (s.putLine l x).recAt m = s.recAt m := by
  cases l <;> rfl

/-- Setting a mark changes what is marked of its own subject and condition alone. -/
theorem State.setMark_marked_ne (s : State) (subj other : Subject) (c d : Cond) (on : Bool) (h : (other, d) ≠ (subj, c)) :
    (s.setMark subj c on).marked other d = s.marked other d := by
  unfold State.setMark
  split
  · next n =>
    cases other with
    | station m =>
      simp only [State.marked, State.stationAt_putStation]
      by_cases hd : d = .stationFault
      · have hm : m ≠ n := fun e => h (by rw [e, hd])
        simp [hm]
      · simp [hd]
    | record m => simp [State.marked]
    | line l => simp [State.marked]
    | site => rfl
  · next l =>
    cases other with
    | line m =>
      simp only [State.marked, State.lineAt_putLine]
      by_cases hm : m = l
      · have hd : d ≠ .lineFault := fun e => h (by rw [e, hm])
        simp [hd, hm]
      · simp [hm]
    | record m => simp [State.marked]
    | station m => simp [State.marked]
    | site => cases l <;> rfl
  · next l =>
    cases other with
    | line m =>
      simp only [State.marked, State.lineAt_putLine]
      by_cases hm : m = l
      · have hd : d ≠ .lineNoise := fun e => h (by rw [e, hm])
        simp [hd, hm]
      · simp [hm]
    | record m => simp [State.marked]
    | station m => simp [State.marked]
    | site => cases l <;> rfl
  · cases other with
    | site =>
      have hd : d ≠ .imageSuspect := fun e => h (by rw [e])
      simp [State.marked, hd]
    | _ => rfl
  · cases other with
    | site =>
      have hd : d ≠ .imageWrite := fun e => h (by rw [e])
      simp [State.marked, hd]
    | _ => rfl
  · rfl

theorem MarkLaw.raiseMark {s : State} (h : MarkLaw s) {subj : Subject} {c : Cond}
    (hm : (s.setMark subj c true).marked subj c = true) : MarkLaw (s.raiseMark subj c) := by
  unfold State.raiseMark
  by_cases hs : s.marked subj c = true
  · rwa [if_pos hs]
  · rw [if_neg hs]
    have hs' : s.marked subj c = false := by simpa using hs
    have hkeep : MarkLaw (s.setMark subj c true) := h.mono (by simp) (fun e he hme => by
      by_cases heq : (e.subject, e.cond) = (subj, c)
      · cases heq; exact hm
      · rw [State.setMark_marked_ne _ _ _ _ _ _ heq]; exact hme)
    refine hkeep.tell hm (fun e he => ?_)
    rw [State.setMark_atu] at he
    exact h.not_listed hs' e he

theorem MarkLaw.untellOne {s t : State} (h : MarkLaw s) (subj : Subject) (c : Cond) (hatu : t.atu = s.atu)
    (hm : ∀ other d, (other, d) ≠ (subj, c) → s.marked other d = true → t.marked other d = true) :
    MarkLaw (t.untellOne subj c) := by
  refine h.untell _ hatu (fun other d hod => ?_)
  rintro ⟨e, rfl, rfl, hp⟩
  refine hm _ _ (fun heq => ?_) hod
  cases heq
  simp at hp

theorem MarkLaw.clearMark {s : State} (h : MarkLaw s) (subj : Subject) (c : Cond) : MarkLaw (s.clearMark subj c) := by
  unfold State.clearMark
  split
  · exact h.untellOne subj c (by simp) (fun other d hne hm => by rw [State.setMark_marked_ne _ _ _ _ _ _ hne]; exact hm)
  · exact h

end Sys2Proof.Machine
end

section
/-! The marks and the inputs under every move (R6, R134 to R138, R145 to R152). -/

namespace Sys2Proof.Machine

/-! ## Marks under the larger operations -/

theorem MarksKept.putRecord {s : State} {n : Nat} (hfree : s.recAt n = none) (x : Slot) : MarksKept s (s.putSlot n x) := by
  refine MarksKept.of_recs (fun m r hr => ?_) rfl rfl rfl rfl
  have e : m ≠ n := by rintro rfl; rw [hfree] at hr; cases hr
  exact ⟨r, (State.recAt_putSlot_ne _ _ _ _ e).trans hr, fun _ h => h⟩

theorem MarksKept.hand (s : State) (i : Item) : MarksKept s (s.hand i) :=
  MarksKept.of_same (by simp) (by simp) (by simp) (by simp) (by simp)

theorem MarksKept.place {s : State} {n : Nat} (hfree : s.recAt n = none) (r : Record) : MarksKept s (s.place n r) :=
  (MarksKept.putRecord hfree _).trans (MarksKept.hand _ _)

/-- Removing all entries of a record's subject where no other record and no owner loses a mark. -/
theorem MarkLaw.untellRecord {s t : State} (h : MarkLaw s) (n : Nat) (hatu : t.atu = s.atu)
    (hrec : ∀ m, m ≠ n → ∀ r, s.recAt m = some r → t.recAt m = some r) (hbmu : t.bmu = s.bmu) (hifu : t.ifu = s.ifu)
    (hs : t.isi.suspectMark = s.isi.suspectMark) (hw : t.isi.writeMark = s.isi.writeMark) :
    MarkLaw (t.untell (fun e => e.subject = .record n)) := by
  refine h.untell _ hatu (fun subj c hm => ?_)
  rintro ⟨e, rfl, rfl, hp⟩
  have hne : e.subject ≠ .record n := by simpa using hp
  cases hsub : e.subject with
  | record m =>
    rw [hsub] at hm hne
    obtain ⟨r, hr, hc⟩ := State.marked_record.1 hm
    exact State.marked_record.2 ⟨r, hrec m (fun e => hne (by rw [e])) r hr, hc⟩
  | station m => rw [hsub] at hm; simpa [State.marked, State.stationAt_congr hbmu] using hm
  | line l => rw [hsub] at hm; simpa [State.marked, State.lineAt_congr hbmu] using hm
  | site => rw [hsub] at hm; simpa [State.marked, hifu, hs, hw] using hm

theorem MarkLaw.purge {s : State} (h : MarkLaw s) (n sender : Nat) : MarkLaw (s.purge n sender) := by
  have h1 : MarkLaw (((s.putSlot n { rev := s.revAt n, rec? := none }).hand (.slot n)).untell
      (fun e => e.subject = .record n)) :=
    h.untellRecord n (by simp) (fun m e r hr => by rw [State.recAt_hand, State.recAt_putSlot_ne _ _ _ _ e, hr]) (by simp)
      (by simp) (by simp) (by simp)
  have hk : ∀ (t : State) (m : Nat), MarksKept t (t.update m sender (unlink n)) := fun t m =>
    MarksKept.update m sender (fun _ _ _ hc => hc)
  unfold State.purge
  exact h1.keep (foldl_same State.atu _ (fun t m => by simp) _ _) (MarksKept.foldl hk _ _)

theorem MarksKept.unlinkOld (s : State) (n st : Nat) (r : Record) : MarksKept s (s.unlinkOld n st r) := by
  unfold State.unlinkOld
  split
  · exact MarksKept.refl s
  · split
    · exact MarksKept.refl s
    · split
      · exact MarksKept.update _ _ (fun _ _ _ hc => hc)
      · exact MarksKept.refl s

theorem MarkLaw.retireRecord {s : State} (h : MarkLaw s) (n st : Nat) (reason : RetireReason) (f : Record → Record) :
    MarkLaw (s.retireRecord n st reason f) := by
  unfold State.retireRecord
  cases hr : s.recAt n with
  | none => exact h
  | some r =>
    have h1 : MarkLaw (((s.update n st (fun q => retireFields reason (f q))).freeChannel r.binding).untell
        (fun e => e.subject = .record n)) :=
      h.untellRecord n (by simp) (fun m e q hq => by
        rw [State.recAt_freeChannel, State.recAt_update_ne _ _ _ _ _ e, hq])
        (by simp) (by simp) (by simp) (by simp)
    have h2 := h1.keep (by simp) (MarksKept.unlinkOld _ n st r)
    dsimp only
    split
    · exact h2.keep (by simp) (MarksKept.setMap _ _ _)
    · exact h2

theorem MarksKept.of_bmu {s t : State} (hslots : t.tbc.slots = s.tbc.slots)
    (hst : ∀ n, (t.stationAt n).faultMark = (s.stationAt n).faultMark)
    (hlf : ∀ l, (t.lineAt l).faultMark = (s.lineAt l).faultMark)
    (hln : ∀ l, (t.lineAt l).noiseMark = (s.lineAt l).noiseMark) (hstop : s.ifu.stop.isSome = true → t.ifu.stop.isSome = true)
    (hs : t.isi.suspectMark = s.isi.suspectMark) (hw : t.isi.writeMark = s.isi.writeMark) : MarksKept s t where
  recs n c hm := by
    obtain ⟨r, hr, hc⟩ := State.marked_record.1 hm
    exact State.marked_record.2 ⟨r, (State.recAt_congr hslots n).trans hr, hc⟩
  stations n h := by rw [hst]; exact h
  lineFaults l h := by rw [hlf]; exact h
  lineNoises l h := by rw [hln]; exact h
  stop := hstop
  suspect h := by rw [hs]; exact h
  write h := by rw [hw]; exact h

theorem MarkLaw.followStop {s : State} (h : MarkLaw s) : MarkLaw s.followStop := by
  unfold State.followStop
  split
  · next i _ hstop _ =>
    have hn := h.not_listed (subj := .site) (c := .siteStop) (by simp [State.marked, hstop])
    have hk : MarksKept s ({ s with ifu := { s.ifu with stop := some { input := i.val, time := s.wck.time } } }).spreadStop :=
      MarksKept.of_bmu rfl (fun _ => rfl) (fun l => by cases l <;> rfl) (fun l => by cases l <;> rfl) (fun _ => rfl) rfl rfl
    have h1 := h.keep (t := ({ s with ifu := { s.ifu with stop := some { input := i.val, time := s.wck.time } } }).spreadStop)
      rfl hk
    unfold State.beginStop
    dsimp only
    split
    · exact h1.tell (by simp [State.marked, State.spreadStop, State.eachCtx, State.eachLine]) hn
    · exact h1
  · exact h

theorem MarkLaw.changeInputs {s : State} (h : MarkLaw s) (v : Vector Input 4) : MarkLaw (s.changeInputs v) := by
  have h1 : MarkLaw { s with ifu := { s.ifu with inputs := v } } :=
    h.keep rfl (MarksKept.of_bmu rfl (fun _ => rfl) (fun l => by cases l <;> rfl) (fun l => by cases l <;> rfl) id rfl rfl)
  exact h1.followStop.keep rfl
    (MarksKept.of_bmu rfl (fun _ => rfl) (fun l => by cases l <;> rfl) (fun l => by cases l <;> rfl) id rfl rfl)

theorem MarkLaw.restartInputs {s : State} (h : MarkLaw s) : MarkLaw s.restartInputs := by
  have h1 : MarkLaw { s with ifu := { s.ifu with inputs := s.ifu.inputs.map Input.restart } } :=
    h.keep rfl (MarksKept.of_bmu rfl (fun _ => rfl) (fun l => by cases l <;> rfl) (fun l => by cases l <;> rfl) id rfl rfl)
  exact h1.followStop.keep rfl
    (MarksKept.of_bmu rfl (fun _ => rfl) (fun l => by cases l <;> rfl) (fun l => by cases l <;> rfl) id rfl rfl)

/-! ## Re-levelling (R138) -/

/-- What an entry is listed for. -/
def Entry.key (e : Entry) : Subject × Cond := (e.subject, e.cond)

theorem distinct_iff {l : List Entry} : Distinct l ↔ (l.map Entry.key).Nodup := by
  unfold Distinct List.Nodup
  rw [List.pairwise_map]
  exact List.pairwise_iff_forall_sublist.trans (Iff.trans (by simp [Entry.key]) List.pairwise_iff_forall_sublist.symm)

/-- Re-levelled entries are listed for what listed entries were, each once. -/
theorem relevelEntries_keys (l : List Entry) (c : Cond) (level : Nat) :
    ∃ l' : List Entry, l'.Sublist l ∧ ((relevelEntries l c level).map Entry.key).Perm (l'.map Entry.key) := by
  unfold relevelEntries
  dsimp only
  split
  · exact ⟨_, List.filter_sublist, List.Perm.refl _⟩
  · refine ⟨l, List.Sublist.refl _, ?_⟩
    refine ((insertAll_perm (fun e => { e with level := level }) _ _).map Entry.key).trans ?_
    have hg : ((l.filter (fun e => e.cond = c)).map (fun e : Entry => { e with level := level })).map Entry.key =
        (l.filter (fun e => e.cond = c)).map Entry.key := by rw [List.map_map]; rfl
    rw [List.map_append, hg, ← List.map_append]
    refine List.Perm.map _ (List.perm_append_comm.trans ?_)
    have := List.filter_append_perm (fun e : Entry => decide (e.cond = c)) l
    simpa using this

theorem MarkLaw.relevel {s : State} (h : MarkLaw s) (c : Cond) (level : Nat) : MarkLaw (s.relevel c level) := by
  have h1 : MarkLaw { s with atu := ({ s.atu with entries := relevelEntries s.atu.entries c level }).sound s.tbc.site.alarm } := by
    obtain ⟨l', hsub, hp⟩ := relevelEntries_keys s.atu.entries c level
    refine ⟨?_, fun e he => ?_⟩
    · exact distinct_iff.2 (hp.nodup_iff.2 (distinct_iff.1 (List.Pairwise.sublist hsub h.1)))
    · obtain ⟨e', he', hk⟩ := List.mem_map.1 (hp.subset (List.mem_map_of_mem (f := Entry.key) he))
      obtain ⟨hsubj, hcond⟩ := Prod.mk.inj hk
      rw [← hsubj, ← hcond]
      exact h.2 e' (hsub.subset he')
  unfold State.relevel
  dsimp only
  split
  · exact h1
  · refine foldl_keeps (fun t subj ht => ?_) _ h1
    split
    · next hb =>
      obtain ⟨hm, hl⟩ := Bool.and_eq_true_iff.1 hb
      refine ht.tell hm (fun e he hse => ?_)
      have : t.atu.lists subj c = true := List.any_eq_true.2 ⟨e, he, by simpa using hse⟩
      simp [this] at hl
    · exact ht

theorem MarkLaw.siteApply {s : State} (h : MarkLaw s) (x : SiteItems) : MarkLaw (s.siteApply x) := by
  have h0 : MarkLaw (s.siteValues x) := h.keep rfl (MarksKept.of_same rfl rfl rfl rfl rfl)
  have h1 := foldl_keeps (P := MarkLaw) (f := fun (t : State) (p : Cond × Nat) => t.relevel p.1 p.2) (fun t p ht => MarkLaw.relevel ht p.1 p.2)
    (changedLevels s.tbc.site (SiteItems.apply x s.tbc.site)) h0
  have h2 : MarkLaw (s.siteLevels x) :=
    h1.mono (List.Sublist.refl _) (fun _ _ => (MarksKept.of_same rfl rfl rfl rfl rfl).marked)
  have h3 := h2.changeInputs (restartChanged s.tbc.site (SiteItems.apply x s.tbc.site) (s.siteLevels x).ifu)
  rw [State.siteApply_eq]
  dsimp only
  split
  · exact h3
  · exact h3.keep (by simp) (MarksKept.hand _ _)

theorem Quiet.marks {s t : State} (h : Quiet s t) : MarksKept s t :=
  MarksKept.of_bmu h.slots h.faults h.lineFaults h.lineNoises (by rw [h.ifu]; exact id) (by rw [h.isi]) (by rw [h.isi])

theorem State.setDig_marks (s : State) (row : Nat) : MarksKept s (s.setDig row) := by
  unfold State.setDig
  split
  · exact MarksKept.refl s
  · exact MarksKept.of_same (by simp) (by simp) (by simp) (by simp) (by simp)

theorem State.setRelieved_marks (s : State) (row : Nat) (on : Bool) : MarksKept s (s.setRelieved row on) := by
  unfold State.setRelieved
  split
  · exact MarksKept.refl s
  · exact MarksKept.of_same (by simp) (by simp) (by simp) (by simp) (by simp)

/-- Freeing a context unbinds its station and leaves its mark. -/
theorem State.freeCtx_stationAt (s : State) (c : Nat) (x : Context) (p : Parting) (n : Nat) :
    (s.freeCtx c x p).stationAt n =
      if n = x.station ∧ x.station < 16 then { s.stationAt x.station with ctx := none } else s.stationAt n := by
  unfold State.freeCtx
  dsimp only
  rw [State.stationAt_putStation]
  split <;> rfl

theorem State.freeCtx_lineAt (s : State) (c : Nat) (x : Context) (p : Parting) (l : LineId) :
    (s.freeCtx c x p).lineAt l = s.lineAt l := by cases l <;> rfl

theorem State.freeCtx_marks (s : State) (c : Nat) (x : Context) (p : Parting) : MarksKept s (s.freeCtx c x p) := by
  refine MarksKept.of_bmu rfl (fun n => ?_) (fun l => by rw [State.freeCtx_lineAt]) (fun l => by rw [State.freeCtx_lineAt])
    id rfl rfl
  rw [State.freeCtx_stationAt]
  split
  · next h => rw [h.1]
  · rfl

/-- A binding binds the station it names, and no other. -/
theorem State.bindCtx_bmu (s : State) (c : Nat) (k : CtxKind) (n station sender : Nat) (r : Record) (b : Bool) :
    (s.bindCtx c k n station sender r b).bmu =
      (s.putStation station { s.stationAt station with ctx := some c }).bmu := by
  unfold State.bindCtx
  dsimp only
  split
  · rw [State.freeChannel_bmu, State.update_bmu]; rfl
  · rw [State.update_bmu]; rfl

theorem State.bindCtx_stationAt (s : State) (c : Nat) (k : CtxKind) (n station sender : Nat) (r : Record) (b : Bool) (m : Nat) :
    (s.bindCtx c k n station sender r b).stationAt m =
      if m = station ∧ station < 16 then { s.stationAt station with ctx := some c } else s.stationAt m := by
  rw [State.stationAt_congr (State.bindCtx_bmu ..), State.stationAt_putStation]

theorem State.bindCtx_lineAt (s : State) (c : Nat) (k : CtxKind) (n station sender : Nat) (r : Record) (b : Bool) (l : LineId) :
    (s.bindCtx c k n station sender r b).lineAt l = s.lineAt l := by
  rw [State.lineAt_congr (State.bindCtx_bmu ..), State.lineAt_putStation]

theorem State.bindCtx_marks (s : State) (c : Nat) (k : CtxKind) (n station sender : Nat) (r : Record) (b : Bool) :
    MarksKept s (s.bindCtx c k n station sender r b) where
  recs m d hm := by
    obtain ⟨q, hq, hc⟩ := State.marked_record.1 hm
    obtain ⟨q', hq', hc'⟩ := State.marked_record.1
      ((MarksKept.update (f := bindFields k c) n sender (fun _ _ _ hc => hc)).recs m d hm)
    exact State.marked_record.2 ⟨q', (State.recAt_congr (by rw [State.bindCtx_tbc]) m).trans hq', hc'⟩
  stations m h := by
    rw [State.bindCtx_stationAt]
    split
    · next e => rw [e.1] at h; exact h
    · exact h
  lineFaults l h := by rw [State.bindCtx_lineAt]; exact h
  lineNoises l h := by rw [State.bindCtx_lineAt]; exact h
  stop h := by rw [State.bindCtx_ifu]; exact h
  suspect h := by rw [State.bindCtx_isi, State.update_suspectMark]; exact h
  write h := by rw [State.bindCtx_isi, State.update_writeMark]; exact h

theorem MarkLaw.endStop {s : State} (h : MarkLaw s) : MarkLaw s.endStop := by
  have h1 : MarkLaw (({ s with ifu := { s.ifu with stop := none } }).untellOne .site .siteStop) := by
    refine h.untellOne _ _ rfl (fun other d hne hm => ?_)
    cases other with
    | site =>
      have hd : d ≠ .siteStop := fun e => hne (by rw [e])
      simpa [State.marked, hd] using hm
    | record n => exact hm
    | station n => exact hm
    | line l => cases l <;> exact hm
  exact h1.keep rfl
    (MarksKept.of_bmu rfl (fun _ => rfl) (fun l => by cases l <;> rfl) (fun l => by cases l <;> rfl) id rfl rfl)

/-- Every move keeps the entries in agreement with the marks. -/
theorem Move.marks {G : Prop} {s t : State} (h : Move G s t) (hs : MarkLaw s) : MarkLaw t := by
  cases h with
  | quiet h => exact hs.keep h.atu h.marks
  | hand i => exact hs.keep (by simp) (MarksKept.hand s i)
  | isi i hq hi h1 h2 => exact hs.keep rfl (MarksKept.of_same rfl rfl rfl h1 h2)
  | clock w h => exact hs.keep rfl (MarksKept.of_same rfl rfl rfl rfl rfl)
  | setDig row h => exact hs.keep (State.setDig_atu s row) (State.setDig_marks s row)
  | relieve row => exact hs.keep (State.setRelieved_atu s row true) (State.setRelieved_marks s row true)
  | rely row hd hx => exact hs.keep (State.setRelieved_atu s row false) (State.setRelieved_marks s row false)
  | putCtx => exact hs.keep rfl (MarksKept.of_same rfl rfl rfl rfl rfl)
  | eachCtx => exact hs.keep rfl (MarksKept.of_same rfl rfl rfl rfl rfl)
  | raising n st cs f hcs hf => exact hs.updateRaising n st hcs (fun r hr => (hf r hr).conds)
  | dropping n st c f hf hlive =>
    refine hs.untellOne _ _ (by simp) (fun other d hne hm => ?_)
    cases other with
    | record m =>
      obtain ⟨r, hr, hc⟩ := State.marked_record.1 hm
      by_cases e : m = n
      · subst e
        obtain ⟨stamp, hu⟩ := State.recAt_update hr st f
        refine State.marked_record.2 ⟨_, hu, ?_⟩
        show d ∈ (f r).conds
        rw [(hf r hr).conds]
        exact mem_dropCond.2 ⟨hc, fun e => hne (by rw [e])⟩
      · exact State.marked_record.2 ⟨r, (State.recAt_update_ne _ _ _ _ _ e).trans hr, hc⟩
    | station m => simpa [State.marked, State.stationAt_congr (State.update_bmu s n st f)] using hm
    | line l => simpa [State.marked, State.lineAt_congr (State.update_bmu s n st f)] using hm
    | site => simpa [State.marked] using hm
  | raiseMark subj c h => exact hs.raiseMark h
  | clearMark subj c => exact hs.clearMark subj c
  | setMap => exact hs.keep (by simp) (MarksKept.setMap _ _ _)
  | place n r hn hfree => exact hs.keep (by simp) (MarksKept.place hfree r)
  | replace slot sender n r q hslot hn hfree =>
    have hu : MarksKept s (s.update slot sender (fun q => { q with replacedBy := some n })) :=
      MarksKept.update slot sender (fun _ _ _ hc => hc)
    exact hs.keep (by simp) (hu.trans (MarksKept.place (State.recAt_update_none hfree _ _) q))
  | purge n sender => exact hs.purge n sender
  | retire n st reason f => exact hs.retireRecord n st reason f
  | bind c k n station sender r resumed => exact hs.keep (by simp) (State.bindCtx_marks ..)
  | release c x p st cs f hx hcs hf =>
    exact MarkLaw.updateRaising (hs.keep (by simp) (State.freeCtx_marks s c x p)) _ _ hcs (fun r hr => (hf r hr).conds)
  | releaseRetire c x p st => exact MarkLaw.retireRecord (hs.keep (by simp) (State.freeCtx_marks s c x p)) _ _ _ _
  | setBinding n st b r =>
    have hu : MarksKept s (s.update n st (fun q => { q with binding := some b })) :=
      MarksKept.update n st (fun _ _ _ hc => hc)
    refine hs.keep (by simp [State.setBinding]) (hu.trans (MarksKept.of_same ?_ ?_ ?_ ?_ ?_))
    all_goals simp [State.setBinding]
  | dropBinding n st r =>
    have hu : MarksKept s (s.update n st (fun q => { q with binding := none })) :=
      MarksKept.update n st (fun _ _ _ hc => hc)
    refine hs.keep (by simp [State.dropBinding]) (hu.trans (MarksKept.of_same ?_ ?_ ?_ ?_ ?_))
    all_goals simp [State.dropBinding]
  | overflow => exact hs.mono (List.Sublist.refl _) (fun _ _ => (MarksKept.of_same rfl rfl rfl rfl rfl).marked)
  | endStop h => exact hs.endStop
  | changeInputs v => exact hs.changeInputs v
  | restartInputs => exact hs.restartInputs
  | key => exact hs.keep rfl (MarksKept.of_bmu rfl (fun _ => rfl) (fun l => by cases l <;> rfl) (fun l => by cases l <;> rfl) id rfl rfl)
  | pins => exact hs.keep rfl (MarksKept.of_bmu rfl (fun _ => rfl) (fun l => by cases l <;> rfl) (fun l => by cases l <;> rfl) id rfl rfl)
  | siteApply x h => exact hs.siteApply x

/-! ## The inputs (R145, R146, R150) -/

theorem asserted_congr {site site' : SiteSettings} {ifu ifu' : Ifu} (hsite : site'.inputs = site.inputs)
    (hin : ∀ i : Fin 4, ifu'.inputs[i].accepted = ifu.inputs[i].accepted) : asserted site' ifu' = asserted site ifu := by
  funext i
  simp only [asserted, inputAsserted, hsite, hin i]

theorem stopInputs_congr {site site' : SiteSettings} {ifu ifu' : Ifu} (hsite : site'.inputs = site.inputs)
    (hin : ∀ i : Fin 4, ifu'.inputs[i].accepted = ifu.inputs[i].accepted) : stopInputs site' ifu' = stopInputs site ifu := by
  simp only [stopInputs, asserted_congr hsite hin, hsite]

theorem keyCombination_congr {site site' : SiteSettings} {ifu ifu' : Ifu} (hsite : site'.inputs = site.inputs)
    (hin : ∀ i : Fin 4, ifu'.inputs[i].accepted = ifu.inputs[i].accepted) :
    keyCombination site' ifu' = keyCombination site ifu := by
  have h : keyInputs site' = keyInputs site := by simp only [keyInputs, hsite]
  rw [keyCombination, keyCombination, h, asserted_congr hsite hin]

theorem State.sampling_congr {s t : State} (h : t.sys = s.sys) : t.sampling = s.sampling := by
  simp only [State.sampling, h]

theorem InputLaw.congr {s t : State} (h : InputLaw s) (hsite : t.tbc.site.inputs = s.tbc.site.inputs)
    (hin : ∀ i : Fin 4, t.ifu.inputs[i].accepted = s.ifu.inputs[i].accepted)
    (hstop : t.ifu.stop = none → s.ifu.stop = none) (hkey : t.ifu.key = .idle ↔ s.ifu.key = .idle) (hsys : t.sys = s.sys) :
    InputLaw t := by
  intro hs
  rw [State.sampling_congr hsys] at hs
  obtain ⟨h1, h2⟩ := h hs
  refine ⟨fun k => ?_, ?_⟩
  · rw [stopDemand, stopInputs_congr hsite hin]; exact h1 (hstop k)
  · rw [keyCombination_congr hsite hin, hkey]; exact h2

theorem InputLaw.same {s t : State} (h : InputLaw s) (hsite : t.tbc.site.inputs = s.tbc.site.inputs) (hifu : t.ifu = s.ifu)
    (hsys : t.sys = s.sys) : InputLaw t :=
  h.congr hsite (fun _ => by rw [hifu]) (by rw [hifu]; exact id) (by rw [hifu]) hsys

/-- A begun stop leaves the inputs and the key state alone. -/
theorem State.followStop_inputs (s : State) : s.followStop.ifu.inputs = s.ifu.inputs ∧ s.followStop.ifu.key = s.ifu.key := by
  unfold State.followStop
  split
  · unfold State.beginStop; dsimp only; split
    · simp only [State.tell_ifu]; exact ⟨rfl, rfl⟩
    · exact ⟨rfl, rfl⟩
  · exact ⟨rfl, rfl⟩

/-- Once a stop demand has been acted on, none stands with the site CLEAR (R146). -/
theorem State.followStop_clear (s : State) (h : s.followStop.ifu.stop = none) :
    stopDemand s.followStop.tbc.site s.followStop.ifu = false := by
  have hin := s.followStop_inputs
  rw [State.followStop_tbc, stopDemand, stopInputs_congr (site := s.tbc.site) (ifu := s.ifu) rfl (by simp [hin])]
  unfold State.followStop at h
  split at h
  · unfold State.beginStop at h; dsimp only at h; split at h
    · simp only [State.tell_ifu] at h; cases h
    · cases h
  · next hno =>
    cases hsi : stopInputs s.tbc.site s.ifu with
    | nil => rfl
    | cons i l => exact absurd hsi (hno _ _ h)

/-- The key state after a change follows the combination (R150). -/
theorem KeyState.follow_idle (k : KeyState) (b : Bool) : k.follow b = .idle ↔ b = false := by
  cases k <;> cases b <;> simp [KeyState.follow]

/-- The key state that a restart of the filters leaves follows the combination (R152). -/
theorem KeyState.settled_idle (b : Bool) : (if b then KeyState.spent else KeyState.idle) = .idle ↔ b = false := by
  cases b <;> simp

theorem inputLaw_followInputs (s : State) : InputLaw s.followInputs := by
  intro _
  refine ⟨fun h => s.followStop_clear h, ?_⟩
  exact KeyState.follow_idle _ _

theorem inputLaw_restartInputs (s : State) : InputLaw s.restartInputs := by
  intro _
  refine ⟨fun h => State.followStop_clear _ h, ?_⟩
  exact KeyState.settled_idle _

@[simp] theorem State.setMark_site (s : State) (subj : Subject) (c : Cond) (on : Bool) :
    (s.setMark subj c on).tbc = s.tbc := by simp

theorem State.setDig_ifu (s : State) (row : Nat) : (s.setDig row).ifu = s.ifu := by unfold State.setDig; split <;> simp
theorem State.setDig_inputs (s : State) (row : Nat) : (s.setDig row).tbc.site.inputs = s.tbc.site.inputs := by
  unfold State.setDig; split <;> simp
theorem State.setRelieved_ifu (s : State) (row : Nat) (on : Bool) : (s.setRelieved row on).ifu = s.ifu := by
  unfold State.setRelieved; split <;> simp
theorem State.setRelieved_inputs (s : State) (row : Nat) (on : Bool) :
    (s.setRelieved row on).tbc.site.inputs = s.tbc.site.inputs := by unfold State.setRelieved; split <;> simp

theorem State.purge_ifu (s : State) (n sender : Nat) : (s.purge n sender).ifu = s.ifu := by
  unfold State.purge; dsimp only; rw [foldl_same State.ifu _ (fun t m => by simp)]; simp

/-- Every move keeps the law of the inputs. -/
theorem Move.inputs {G : Prop} {s t : State} (h : Move G s t) (hs : InputLaw s) : InputLaw t := by
  have hsys : t.sys = s.sys := h.books.sys
  cases h with
  | quiet h => exact hs.same (by rw [h.site]) h.ifu hsys
  | setDig row h => exact hs.same (State.setDig_inputs s row) (State.setDig_ifu s row) hsys
  | relieve row => exact hs.same (State.setRelieved_inputs s row true) (State.setRelieved_ifu s row true) hsys
  | rely row hd hx => exact hs.same (State.setRelieved_inputs s row false) (State.setRelieved_ifu s row false) hsys
  | raising => exact hs.same (by simp) (by simp) hsys
  | dropping => exact hs.same (by simp) (by simp) hsys
  | purge n sender => exact hs.same (by rw [State.purge_site]) (State.purge_ifu s n sender) hsys
  | release => exact hs.same (by simp) (by simp) hsys
  | setBinding => exact hs.same (by simp [State.setBinding]) (by simp [State.setBinding]) hsys
  | dropBinding => exact hs.same (by simp [State.dropBinding]) (by simp [State.dropBinding]) hsys
  | endStop h =>
    intro hsamp
    obtain ⟨-, h2⟩ := hs hsamp
    exact ⟨fun _ => h, h2⟩
  | changeInputs v => exact inputLaw_followInputs _
  | restartInputs => exact inputLaw_restartInputs _
  | key k hk hk' => exact hs.congr rfl (fun _ => rfl) id (iff_of_false hk hk') hsys
  | pins v h => exact hs.congr rfl h id Iff.rfl hsys
  | siteApply x h =>
    rw [State.siteApply_eq]
    dsimp only
    split
    · exact inputLaw_followInputs _
    · exact (inputLaw_followInputs _).same (by rw [State.hand_tbc]; rfl) (by rw [State.hand_ifu]; rfl) (by rw [State.hand_sys]; rfl)
  | _ => exact hs.same (by simp) (by simp) hsys

end Sys2Proof.Machine
end

section
/-! The Anchor Table with the map (R1, R4, R9) and the contexts with the stations (R46, R47): kept by every move. -/

namespace Sys2Proof.Machine

/-! ## Records of two states, slot by slot -/

/-- The two states hold records in the same slots, and each pair of records is related. -/
def RecsRel (R : Nat → Record → Record → Prop) (s t : State) : Prop := ∀ n, Option.Rel (R n) (s.recAt n) (t.recAt n)

theorem RecsRel.fwd {R : Nat → Record → Record → Prop} {s t : State} (h : RecsRel R s t) {n : Nat} {r : Record}
    (hr : s.recAt n = some r) : ∃ q, t.recAt n = some q ∧ R n r q := by
  have k := h n
  rw [hr] at k
  cases hq : t.recAt n with
  | none => rw [hq] at k; cases k
  | some q => rw [hq] at k; cases k with | some k => exact ⟨q, rfl, k⟩

theorem RecsRel.bwd {R : Nat → Record → Record → Prop} {s t : State} (h : RecsRel R s t) {n : Nat} {q : Record}
    (hq : t.recAt n = some q) : ∃ r, s.recAt n = some r ∧ R n r q := by
  have k := h n
  rw [hq] at k
  cases hr : s.recAt n with
  | none => rw [hr] at k; cases k
  | some r => rw [hr] at k; cases k with | some k => exact ⟨r, rfl, k⟩

theorem RecsRel.of_slots {R : Nat → Record → Record → Prop} (hR : ∀ n r, R n r r) {s t : State}
    (h : t.tbc.slots = s.tbc.slots) : RecsRel R s t := fun n => by
  rw [State.recAt_congr h]
  cases s.recAt n with
  | none => exact Option.Rel.none
  | some r => exact Option.Rel.some (hR n r)

theorem RecsRel.update {R : Nat → Record → Record → Prop} (hR : ∀ n r, R n r r) {s : State} (n st : Nat)
    {f : Record → Record} (hf : ∀ r stamp, s.recAt n = some r → R n r { f r with stamp := stamp }) :
    RecsRel R s (s.update n st f) := fun m => by
  by_cases e : m = n
  · subst e
    cases hr : s.recAt m with
    | none => rw [State.recAt_update_none hr]; exact Option.Rel.none
    | some r =>
      obtain ⟨stamp, h⟩ := State.recAt_update hr st f
      rw [h]
      exact Option.Rel.some (hf r stamp hr)
  · rw [State.recAt_update_ne _ _ _ _ _ e]
    cases s.recAt m with
    | none => exact Option.Rel.none
    | some r => exact Option.Rel.some (hR m r)

theorem RecsRel.trans {R : Nat → Record → Record → Prop} (hR : ∀ n a b c, R n a b → R n b c → R n a c) {s t u : State}
    (h : RecsRel R s t) (k : RecsRel R t u) : RecsRel R s u := fun n => by
  cases hs : s.recAt n with
  | none =>
    cases hu : u.recAt n with
    | none => exact Option.Rel.none
    | some q =>
      obtain ⟨p, hp, -⟩ := k.bwd hu
      obtain ⟨r, hr, -⟩ := h.bwd hp
      rw [hs] at hr; cases hr
  | some r =>
    obtain ⟨p, hp, h1⟩ := h.fwd hs
    obtain ⟨q, hq, h2⟩ := k.fwd hp
    rw [hq]
    exact Option.Rel.some (hR n r p q h1 h2)

theorem RecsRel.mono {R Q : Nat → Record → Record → Prop} (hRQ : ∀ n a b, R n a b → Q n a b) {s t : State}
    (h : RecsRel R s t) : RecsRel Q s t := fun n => by
  have k := h n
  cases hs : s.recAt n with
  | none =>
    cases ht : t.recAt n with
    | none => exact Option.Rel.none
    | some q => rw [hs, ht] at k; cases k
  | some r =>
    cases ht : t.recAt n with
    | none => rw [hs, ht] at k; cases k
    | some q => rw [hs, ht] at k; cases k with | some k => exact Option.Rel.some (hRQ n r q k)

/-! ## The Anchor Table and the map (R1, R4, R9) -/

/-- `q` stands where `r` stood, with no new link; where `P` holds, it is not RETIRED unless `r` was. -/
structure InPlaceIf (P : Prop) (r q : Record) : Prop where
  row : q.row = r.row
  bay : q.bay = r.bay
  gen : q.gen = r.gen
  replaces : ∀ m, q.replaces = some m → r.replaces = some m
  replacedBy : ∀ m, q.replacedBy = some m → r.replacedBy = some m
  state : P → r.state ≠ .retired → q.state ≠ .retired

/-- The same of a record that no move retires. -/
abbrev InPlace : Record → Record → Prop := InPlaceIf True

theorem InPlaceIf.refl (P : Prop) (r : Record) : InPlaceIf P r r := ⟨rfl, rfl, rfl, fun _ h => h, fun _ h => h, fun _ => id⟩

theorem InPlace.refl (r : Record) : InPlace r r := InPlaceIf.refl True r

theorem InPlaceIf.trans {P : Prop} {a b c : Record} (h : InPlaceIf P a b) (k : InPlaceIf P b c) : InPlaceIf P a c :=
  ⟨k.row.trans h.row, k.bay.trans h.bay, k.gen.trans h.gen, fun m => h.replaces m ∘ k.replaces m,
    fun m => h.replacedBy m ∘ k.replacedBy m, fun p => k.state p ∘ h.state p⟩

theorem InPlaceIf.imp {P Q : Prop} (hPQ : Q → P) {r q : Record} (h : InPlaceIf P r q) : InPlaceIf Q r q :=
  ⟨h.row, h.bay, h.gen, h.replaces, h.replacedBy, fun p => h.state (hPQ p)⟩

theorem Carries.inPlaceIf {P : Prop} {r q : Record} (h : Carries r q) (hs : P → r.state ≠ .retired → q.state ≠ .retired) :
    InPlaceIf P r q :=
  ⟨h.row, h.bay, h.gen, h.replaces, h.replacedBy, hs⟩

theorem StateKept.retired {r q : Record} (h : StateKept r q) (hr : r.state ≠ .retired) : q.state ≠ .retired := by
  rcases h with ⟨h, -⟩ | ⟨-, h⟩
  · rw [h]; exact hr
  · exact h.2.2.1

theorem Mild.inPlace {r q : Record} (h : Mild r q) : InPlace r q := h.toCarries.inPlaceIf fun _ => h.state.retired

/-- The table in another arrangement of the same records: the map entries and the links are still to be looked at. -/
theorem TableLaw.of_keys {s t : State} (h : TableLaw s) (hwf : t.tbc.slots.wf) (hmap : t.tbc.map.wf)
    (hr : RecsRel (fun _ r q => q.row = r.row ∧ q.bay = r.bay ∧ q.gen = r.gen) s t)
    (hent : ∀ key n, t.tbc.map.get? key = some n →
      ∃ q, t.recAt n = some q ∧ posKey q.row q.bay = key ∧ q.state ≠ .retired)
    (hlink : ∀ n m q, t.recAt n = some q → (q.replacedBy = some m ∨ q.replaces = some m) →
      ∃ p, t.recAt m = some p ∧ p.row = q.row ∧ p.bay = q.bay) : TableLaw t := by
  obtain ⟨-, -, hrange, huniq, -, -⟩ := h
  refine ⟨hwf, hmap, ?_, ?_, hent, hlink⟩
  · intro n q hq
    obtain ⟨r, hr', k1, k2, k3⟩ := hr.bwd hq
    rw [k1, k2, k3]
    exact hrange n r hr'
  · intro n m q q' hq hq' h1 h2 h3
    obtain ⟨r, hr1, k1, k2, k3⟩ := hr.bwd hq
    obtain ⟨r', hr2, l1, l2, l3⟩ := hr.bwd hq'
    rw [k1, l1] at h1
    rw [k2, l2] at h2
    rw [k3, l3] at h3
    exact huniq n m r r' hr1 hr2 h1 h2 h3

/-- The same where no record has a new link: only the map entries are still to be looked at. -/
theorem TableLaw.of_places {s t : State} (h : TableLaw s) (hwf : t.tbc.slots.wf) (hmap : t.tbc.map.wf)
    (hr : RecsRel (fun _ => InPlaceIf False) s t)
    (hent : ∀ key n, t.tbc.map.get? key = some n →
      ∃ q, t.recAt n = some q ∧ posKey q.row q.bay = key ∧ q.state ≠ .retired) : TableLaw t := by
  refine h.of_keys hwf hmap (hr.mono fun _ _ _ k => ⟨k.row, k.bay, k.gen⟩) hent fun n m q hq hl => ?_
  obtain ⟨r, hr1, k⟩ := hr.bwd hq
  obtain ⟨p, hp, h1, h2⟩ := h.2.2.2.2.2 n m r hr1 (hl.imp (k.replacedBy m) (k.replaces m))
  obtain ⟨p', hp', k'⟩ := hr.fwd hp
  exact ⟨p', hp', by rw [k'.row, k.row, h1], by rw [k'.bay, k.bay, h2]⟩

/-- An entry of the map names its record still, where that has not retired. -/
theorem TableLaw.entry {s t : State} (h : TableLaw s) {P : Nat → Prop} (hr : RecsRel (fun n => InPlaceIf (P n)) s t)
    {key n : Nat} (hk : s.tbc.map.get? key = some n) (hp : P n) :
    ∃ q, t.recAt n = some q ∧ posKey q.row q.bay = key ∧ q.state ≠ .retired := by
  obtain ⟨r, hr1, hkey, hst⟩ := h.2.2.2.2.1 key n hk
  obtain ⟨q, hq, k⟩ := hr.fwd hr1
  exact ⟨q, hq, by rw [k.row, k.bay]; exact hkey, k.state hp hst⟩

/-- The table where every record stands in its place. -/
theorem TableLaw.of_inPlace {s t : State} (h : TableLaw s) (hwf : t.tbc.slots.wf) (hmap : t.tbc.map = s.tbc.map)
    (hr : RecsRel (fun _ => InPlace) s t) : TableLaw t :=
  h.of_places hwf (hmap ▸ h.2.1) (hr.mono fun _ _ _ => InPlaceIf.imp (fun hf => hf.elim))
    (fun _ _ hk => h.entry hr (hmap ▸ hk) trivial)

theorem RecsRel.then {P : Nat → Prop} {s t u : State} (h : RecsRel (fun n => InPlaceIf (P n)) s t)
    (k : RecsRel (fun n => InPlaceIf (P n)) t u) : RecsRel (fun n => InPlaceIf (P n)) s u :=
  RecsRel.trans (R := fun n => InPlaceIf (P n)) (fun _ _ _ _ => InPlaceIf.trans) h k

theorem RecsRel.places {P : Nat → Prop} {s t : State} (h : t.tbc.slots = s.tbc.slots) :
    RecsRel (fun n => InPlaceIf (P n)) s t := RecsRel.of_slots (fun _ r => InPlaceIf.refl _ r) h

theorem TableLaw.congr {s t : State} (h : TableLaw s) (hslots : t.tbc.slots = s.tbc.slots) (hmap : t.tbc.map = s.tbc.map) :
    TableLaw t :=
  h.of_inPlace (hslots ▸ h.1) hmap (RecsRel.of_slots (fun _ r => InPlace.refl r) hslots)

theorem TableLaw.update {s : State} (h : TableLaw s) (n st : Nat) {f : Record → Record}
    (hf : ∀ r, s.recAt n = some r → InPlace r (f r)) : TableLaw (s.update n st f) :=
  h.of_inPlace (State.update_wf h.1 n st f) (by simp) (RecsRel.update (fun _ r => InPlace.refl r) n st
    (fun r _ hr => ⟨(hf r hr).row, (hf r hr).bay, (hf r hr).gen, (hf r hr).replaces, (hf r hr).replacedBy, (hf r hr).state⟩))

theorem TableLaw.updateRaising {s : State} (h : TableLaw s) (n st : Nat) (cs : List Cond) {f : Record → Record}
    (hf : ∀ r, s.recAt n = some r → InPlace r (f r)) : TableLaw (s.updateRaising n st cs f) :=
  TableLaw.congr (h.update (f := fun r => { f r with conds := addConds cs (f r).conds }) n st
    (fun r hr => ⟨(hf r hr).row, (hf r hr).bay, (hf r hr).gen, (hf r hr).replaces, (hf r hr).replacedBy, (hf r hr).state⟩))
    (by simp) (by simp)

/-- A map entry that comes to name a record of its position that is not RETIRED, or none (R9). -/
theorem TableLaw.setMap {s : State} (h : TableLaw s) (key : Nat) (v? : Option Nat)
    (hv : ∀ n, v? = some n → ∃ r, s.recAt n = some r ∧ posKey r.row r.bay = key ∧ r.state ≠ .retired) :
    TableLaw (s.setMap key v?) := by
  obtain ⟨hsw, hmw, hrange, huniq, hent, hlink⟩ := h
  refine ⟨by rw [State.setMap_slots]; exact hsw, State.setMap_wf hmw key v?, ?_, ?_, ?_, ?_⟩
  · intro n r hr; rw [State.recAt_setMap] at hr; exact hrange n r hr
  · intro n m r q hr hq; rw [State.recAt_setMap] at hr hq; exact huniq n m r q hr hq
  · intro k n hk
    rw [State.recAt_setMap]
    by_cases e : k = key
    · subst e; rw [State.setMap_get?] at hk; exact hv n hk
    · rw [State.setMap_get?_ne _ _ _ _ e] at hk; exact hent k n hk
  · intro n m r hr hl; rw [State.recAt_setMap] at hr ⊢; exact hlink n m r hr hl

theorem State.place_slots (s : State) (n : Nat) (r : Record) : (s.place n r).tbc.slots =
    (s.putSlot n { rev := (s.revAt n + 1) % Config.revisionModulus, rec? := some r }).tbc.slots := by
  unfold State.place; simp

@[simp] theorem State.place_map (s : State) (n : Nat) (r : Record) : (s.place n r).tbc.map = s.tbc.map := by
  simp [State.place]

theorem State.recAt_place (s : State) (n m : Nat) (r : Record) :
    (s.place n r).recAt m = if m = n then some r else s.recAt m := by
  rw [State.recAt_congr (State.place_slots s n r)]
  by_cases e : m = n
  · subst e; simp
  · rw [if_neg e, State.recAt_putSlot_ne _ _ _ _ e]

/-- The next generation once one more slot has been looked at (R4). -/
def genStep (row bay g : Nat) (p : Nat × Slot) : Nat :=
  match p.2.rec? with
  | some r => if r.row = row ∧ r.bay = bay then max g (r.gen + 1) else g
  | none => g

theorem State.nextGen_fold (s : State) (row bay : Nat) : s.nextGen row bay = s.tbc.slots.foldl (genStep row bay) 0 := rfl

theorem genStep_ge (row bay g : Nat) (p : Nat × Slot) : g ≤ genStep row bay g p := by
  unfold genStep
  split
  · split
    · exact Nat.le_max_left _ _
    · exact Nat.le_refl _
  · exact Nat.le_refl _

/-- A fold over slots stays at or above its start value, and goes above the generation of each record of the position. -/
theorem genStep_fold {row bay : Nat} (l : List (Nat × Slot)) (g : Nat) : g ≤ l.foldl (genStep row bay) g ∧
    ∀ p ∈ l, ∀ r, p.2.rec? = some r → r.row = row → r.bay = bay → r.gen < l.foldl (genStep row bay) g := by
  induction l generalizing g with
  | nil => exact ⟨Nat.le_refl g, fun _ hp => absurd hp List.not_mem_nil⟩
  | cons x l ih =>
    obtain ⟨h1, h2⟩ := ih (genStep row bay g x)
    refine ⟨Nat.le_trans (genStep_ge row bay g x) h1, fun p hp r hr hrow hbay => ?_⟩
    rcases List.mem_cons.1 hp with rfl | hp
    · refine Nat.lt_of_lt_of_le ?_ h1
      simp [genStep, hr, hrow, hbay]
    · exact h2 p hp r hr hrow hbay

/-- The next generation is above every generation at the position (R4). -/
theorem State.gen_lt_nextGen {s : State} {n : Nat} {r : Record} (h : s.recAt n = some r) : r.gen < s.nextGen r.row r.bay := by
  obtain ⟨x, hm, hx⟩ := State.mem_of_recAt h
  exact (genStep_fold s.tbc.slots 0).2 (n, x) hm r hx rfl rfl

/-- A new record in a FREE slot, of a generation above those of its position, whose links name records of the position. -/
theorem TableLaw.place {s : State} (h : TableLaw s) {n : Nat} {r : Record} (hn : n < 512) (hfree : s.recAt n = none)
    (hrow : 1 ≤ r.row ∧ r.row ≤ 12) (hbay : 1 ≤ r.bay ∧ r.bay ≤ 400) (hgen : r.gen ≤ 3)
    (hnew : s.nextGen r.row r.bay ≤ r.gen)
    (hlinks : ∀ m, (r.replacedBy = some m ∨ r.replaces = some m) → ∃ q, s.recAt m = some q ∧ q.row = r.row ∧ q.bay = r.bay) :
    TableLaw (s.place n r) := by
  obtain ⟨hsw, hmw, hrange, huniq, hent, hlink⟩ := h
  have hne : ∀ {m q}, s.recAt m = some q → m ≠ n := by rintro m q hq rfl; rw [hfree] at hq; cases hq
  have hold : ∀ {m q}, s.recAt m = some q → (s.place n r).recAt m = some q := fun hq => by
    rw [State.recAt_place, if_neg (hne hq), hq]
  have hnewkey : ∀ {m q}, s.recAt m = some q → q.row = r.row → q.bay = r.bay → q.gen ≠ r.gen := fun hq h1 h2 h3 => by
    have := State.gen_lt_nextGen hq
    rw [h1, h2, h3] at this
    omega
  refine ⟨by rw [State.place_slots]; exact State.putSlot_wf hsw _ _, by rw [State.place_map]; exact hmw, ?_, ?_, ?_, ?_⟩
  · intro m q hq
    rw [State.recAt_place] at hq
    split at hq
    · next e => cases hq; exact ⟨e ▸ hn, hrow.1, hrow.2, hbay.1, hbay.2, hgen⟩
    · exact hrange m q hq
  · intro m m' q q' hq hq' h1 h2 h3
    rw [State.recAt_place] at hq hq'
    split at hq <;> split at hq'
    · next e e' => rw [e, e']
    · cases hq; exact absurd h3.symm (hnewkey hq' h1.symm h2.symm)
    · cases hq'; exact absurd h3 (hnewkey hq h1 h2)
    · exact huniq m m' q q' hq hq' h1 h2 h3
  · intro key m hk
    rw [State.place_map] at hk
    obtain ⟨q, hq, h1, h2⟩ := hent key m hk
    exact ⟨q, hold hq, h1, h2⟩
  · intro m m' q hq hl
    rw [State.recAt_place] at hq
    split at hq
    · cases hq
      obtain ⟨p, hp, h1, h2⟩ := hlinks m' hl
      exact ⟨p, hold hp, h1, h2⟩
    · obtain ⟨p, hp, h1, h2⟩ := hlink m m' q hq hl
      exact ⟨p, hold hp, h1, h2⟩

/-! ## Entry to RETIRED (R8, R10) -/

theorem State.successor_spec {s : State} {r : Record} {m : Nat} (h : s.successor r = some m) :
    r.replacedBy = some m ∧ ∃ q, s.recAt m = some q ∧ q.state ≠ .retired := by
  unfold State.successor at h
  split at h
  · cases h
  · next k hk =>
    split at h
    · next q hq =>
      split at h
      · cases h
      · next hst => cases h; exact ⟨hk, q, hq, hst⟩
    · cases h

/-- An update of a record that takes links away leaves it where it stood. -/
theorem TableLaw.unlinkOld {s : State} (h : TableLaw s) (n st : Nat) (r : Record) : TableLaw (s.unlinkOld n st r) := by
  unfold State.unlinkOld
  split
  · exact h
  · split
    · exact h
    · split
      · exact h.update _ _ (fun q _ => ⟨rfl, rfl, rfl, fun _ hm => hm, nofun, fun _ => id⟩)
      · exact h

theorem State.unlinkOld_recs (s : State) (n st : Nat) (r : Record) : RecsRel (fun _ => InPlace) s (s.unlinkOld n st r) := by
  have hrefl : RecsRel (fun _ => InPlace) s s := RecsRel.of_slots (fun _ r => InPlace.refl r) rfl
  unfold State.unlinkOld
  split
  · exact hrefl
  · split
    · exact hrefl
    · split
      · exact RecsRel.update (fun _ r => InPlace.refl r) _ _ (fun q _ _ => ⟨rfl, rfl, rfl, fun _ hm => hm, nofun, fun _ => id⟩)
      · exact hrefl

theorem State.unlinkOld_wf {s : State} (h : s.tbc.slots.wf) (n st : Nat) (r : Record) : (s.unlinkOld n st r).tbc.slots.wf := by
  unfold State.unlinkOld
  repeat' split
  all_goals first | exact h | exact State.update_wf h _ _ _

@[simp] theorem State.unlinkOld_map (s : State) (n st : Nat) (r : Record) :
    (s.unlinkOld n st r).tbc.map = s.tbc.map := by
  unfold State.unlinkOld
  repeat' split
  all_goals simp

/-- The record, the channel and the old record's link at an entry to RETIRED, before the map follows (R8). -/
def State.retireFirst (s : State) (n st : Nat) (reason : RetireReason) (f : Record → Record) (r : Record) : State :=
  (((s.update n st (fun q => retireFields reason (f q))).freeChannel r.binding).untell
    (fun e => e.subject = .record n)).unlinkOld n st r

theorem State.retireRecord_eq {s : State} {n : Nat} {r : Record} (hr : s.recAt n = some r) (st : Nat)
    (reason : RetireReason) (f : Record → Record) : s.retireRecord n st reason f =
      if s.isLive n r then (s.retireFirst n st reason f r).setMap (posKey r.row r.bay)
        ((s.retireFirst n st reason f r).successor r)
      else s.retireFirst n st reason f r := by
  unfold State.retireRecord
  rw [hr]
  rfl

theorem State.retireFirst_wf {s : State} (h : s.tbc.slots.wf) (n st : Nat) (reason : RetireReason) (f : Record → Record)
    (r : Record) : (s.retireFirst n st reason f r).tbc.slots.wf := by
  refine State.unlinkOld_wf ?_ n st r
  rw [State.untell_tbc, State.freeChannel_tbc]
  exact State.update_wf h _ _ _

@[simp] theorem State.retireFirst_map (s : State) (n st : Nat) (reason : RetireReason) (f : Record → Record) (r : Record) :
    (s.retireFirst n st reason f r).tbc.map = s.tbc.map := by
  unfold State.retireFirst
  rw [State.unlinkOld_map, State.untell_tbc, State.freeChannel_tbc, State.update_map]

/-- Every record stands in its place, and all but the one of slot `n` keep off RETIRED. -/
theorem State.retireFirst_recs {s : State} {n : Nat} {r : Record} (hr : s.recAt n = some r) (st : Nat)
    (reason : RetireReason) {f : Record → Record} (hf : Carries r (f r)) :
    RecsRel (fun m => InPlaceIf (m ≠ n)) s (s.retireFirst n st reason f r) := by
  have h1 : RecsRel (fun m => InPlaceIf (m ≠ n)) s (((s.update n st (fun q => retireFields reason (f q))).freeChannel
      r.binding).untell (fun e => e.subject = .record n)) := by
    refine RecsRel.then (t := s.update n st (fun q => retireFields reason (f q))) ?_
      (RecsRel.places (by rw [State.untell_tbc, State.freeChannel_tbc]))
    refine RecsRel.update (fun _ q => InPlaceIf.refl _ q) n st (fun q stamp hq => ?_)
    rw [hr] at hq; cases hq
    exact ⟨hf.row, hf.bay, hf.gen, hf.replaces, hf.replacedBy, fun h => absurd rfl h⟩
  exact h1.then ((State.unlinkOld_recs _ n st r).mono fun _ _ _ => InPlaceIf.imp fun _ => trivial)

/-- Entry to RETIRED: the map entry of a live record goes to its replacement, a record of the position that is not RETIRED, or
away (R10). -/
theorem TableLaw.retireRecord {s : State} (h : TableLaw s) (n st : Nat) (reason : RetireReason) {f : Record → Record}
    (hf : ∀ r, s.recAt n = some r → Carries r (f r)) : TableLaw (s.retireRecord n st reason f) := by
  cases hr : s.recAt n with
  | none => unfold State.retireRecord; rw [hr]; exact h
  | some r =>
    have hrecs := State.retireFirst_recs hr st reason (hf r hr)
    have hplaces := hrecs.mono fun (m : Nat) _ _ => InPlaceIf.imp (P := m ≠ n) (Q := False) (fun hf => hf.elim)
    have hwf := State.retireFirst_wf h.1 n st reason f r
    have hkey : ∀ key, s.tbc.map.get? key = some n → posKey r.row r.bay = key := fun key hk => by
      obtain ⟨q, hq, hkey, -⟩ := h.2.2.2.2.1 key n hk
      rw [hr] at hq; cases hq; exact hkey
    rw [State.retireRecord_eq hr]
    split
    · next hlive =>
      refine h.of_places (by rw [State.setMap_slots]; exact hwf)
        (State.setMap_wf (by rw [State.retireFirst_map]; exact h.2.1) _ _)
        (hplaces.then (P := fun _ => False) (RecsRel.places (State.setMap_slots _ _ _)))
        (fun key m hk => ?_)
      rw [State.recAt_setMap]
      by_cases e : key = posKey r.row r.bay
      · subst e
        rw [State.setMap_get?] at hk
        obtain ⟨hl, q, hq, hst⟩ := State.successor_spec hk
        obtain ⟨p, hp, h1, h2⟩ := h.2.2.2.2.2 n m r hr (.inl hl)
        obtain ⟨q', hq', k⟩ := hrecs.fwd hp
        rw [hq] at hq'; cases hq'
        exact ⟨q, hq, by rw [k.row, k.bay, h1, h2], hst⟩
      · rw [State.setMap_get?_ne _ _ _ _ e, State.retireFirst_map] at hk
        exact h.entry hrecs hk (fun hm => e (hkey key (hm ▸ hk)).symm)
    · next hlive =>
      refine h.of_places hwf (by rw [State.retireFirst_map]; exact h.2.1) hplaces (fun key m hk => ?_)
      rw [State.retireFirst_map] at hk
      refine h.entry hrecs hk (fun hm => hlive ?_)
      subst hm
      simp [State.isLive, State.liveAt, hkey key hk, hk]

/-! ## REPLACE (R21, R22) -/

/-- A record that comes to be linked to another one of its position. -/
theorem TableLaw.setReplacedBy {s : State} (h : TableLaw s) {n m : Nat} {r p : Record} (hr : s.recAt n = some r)
    (hp : s.recAt m = some p) (hpos : p.row = r.row ∧ p.bay = r.bay) (st : Nat) :
    TableLaw (s.update n st (fun q => { q with replacedBy := some m })) := by
  have hkept : RecsRel (fun k r q => q.row = r.row ∧ q.bay = r.bay ∧ q.gen = r.gen ∧ q.state = r.state ∧
      q.replaces = r.replaces ∧ (q.replacedBy = r.replacedBy ∨ k = n ∧ q.replacedBy = some m)) s
      (s.update n st (fun q => { q with replacedBy := some m })) := fun k => by
    by_cases e : k = n
    · subst e
      obtain ⟨stamp, hq⟩ := State.recAt_update hr st (fun q => { q with replacedBy := some m })
      rw [hq, hr]
      exact Option.Rel.some ⟨rfl, rfl, rfl, rfl, rfl, .inr ⟨rfl, rfl⟩⟩
    · rw [State.recAt_update_ne _ _ _ _ _ e]
      cases s.recAt k with
      | none => exact Option.Rel.none
      | some q => exact Option.Rel.some ⟨rfl, rfl, rfl, rfl, rfl, .inl rfl⟩
  refine h.of_keys (State.update_wf h.1 _ _ _) (by rw [State.update_map]; exact h.2.1)
    (hkept.mono fun _ _ _ k => ⟨k.1, k.2.1, k.2.2.1⟩) (fun key k hk => ?_) (fun k k' q hq hl => ?_)
  · rw [State.update_map] at hk
    obtain ⟨a, ha, hkey, hst⟩ := h.2.2.2.2.1 key k hk
    obtain ⟨b, hb, h1, h2, -, h4, -⟩ := hkept.fwd ha
    exact ⟨b, hb, by rw [h1, h2]; exact hkey, by rw [h4]; exact hst⟩
  · obtain ⟨a, ha, h1, h2, -, -, h5, h6⟩ := hkept.bwd hq
    have htarget : ∃ o, s.recAt k' = some o ∧ o.row = a.row ∧ o.bay = a.bay := by
      rcases h6 with h6 | ⟨rfl, h6⟩
      · exact h.2.2.2.2.2 k k' a ha (by rw [← h5, ← h6]; exact hl)
      · rcases hl with hl | hl
        · rw [h6] at hl; cases hl
          rw [hr] at ha; cases ha
          exact ⟨p, hp, hpos⟩
        · exact h.2.2.2.2.2 k k' a ha (.inr (by rw [← h5]; exact hl))
    obtain ⟨o, ho, ho1, ho2⟩ := htarget
    obtain ⟨o', ho', k1, k2, -⟩ := hkept.fwd ho
    exact ⟨o', ho', by rw [k1, h1, ho1], by rw [k2, h2, ho2]⟩

/-- A new record that is to replace another one of its position: linked both ways. -/
theorem TableLaw.replace {s : State} (h : TableLaw s) {slot n : Nat} {r q : Record} (sender : Nat)
    (hslot : s.recAt slot = some r) (hn : n < 512) (hfree : s.recAt n = none) (hkey : q.row = r.row ∧ q.bay = r.bay)
    (hgen : q.gen ≤ 3) (hnew : s.nextGen r.row r.bay ≤ q.gen) (hlinks : q.replaces = some slot ∧ q.replacedBy = none) :
    TableLaw ((s.update slot sender (fun q => { q with replacedBy := some n })).place n q) := by
  obtain ⟨-, h1, h2, h3, h4, -⟩ := h.2.2.1 slot r hslot
  have hne : slot ≠ n := by rintro rfl; rw [hslot] at hfree; cases hfree
  have hplaced : TableLaw (s.place n q) := by
    refine h.place hn hfree (hkey.1 ▸ ⟨h1, h2⟩) (hkey.2 ▸ ⟨h3, h4⟩) hgen (hkey.1 ▸ hkey.2 ▸ hnew) fun m hm => ?_
    rw [hlinks.1, hlinks.2] at hm
    rcases hm with hm | hm <;> cases hm
    exact ⟨r, hslot, hkey.1.symm, hkey.2.symm⟩
  have hrec : (s.place n q).recAt slot = some r := by rw [State.recAt_place, if_neg hne, hslot]
  have hlinked := hplaced.setReplacedBy (n := slot) (m := n) hrec (by rw [State.recAt_place, if_pos rfl]) hkey sender
  refine hlinked.of_inPlace (by rw [State.place_slots]; exact State.putSlot_wf (State.update_wf h.1 _ _ _) _ _)
    (by simp) fun m => ?_
  have hstamp : ∀ st st' : Stamp, InPlace { r with replacedBy := some n, stamp := st }
      { r with replacedBy := some n, stamp := st' } := fun _ _ => ⟨rfl, rfl, rfl, fun _ => id, fun _ => id, fun _ => id⟩
  rw [State.recAt_place]
  by_cases e : m = n
  · subst e
    rw [if_pos rfl, State.recAt_update_ne _ _ _ _ _ hne.symm, State.recAt_place, if_pos rfl]
    exact Option.Rel.some (InPlace.refl q)
  · rw [if_neg e]
    by_cases e' : m = slot
    · subst e'
      obtain ⟨st, hq⟩ := State.recAt_update hslot sender (fun q => { q with replacedBy := some n })
      obtain ⟨st', hq'⟩ := State.recAt_update hrec sender (fun q => { q with replacedBy := some n })
      rw [hq, hq']
      exact Option.Rel.some (hstamp _ _)
    · rw [State.recAt_update_ne _ _ _ _ _ e', State.recAt_update_ne _ _ _ _ _ e', State.recAt_place, if_neg e]
      cases s.recAt m with
      | none => exact Option.Rel.none
      | some x => exact Option.Rel.some (InPlace.refl x)

/-! ## PURGE (R20) -/

/-- The state a purge updates the links of: the slot is FREE, its entries have left. -/
def State.purged (s : State) (n : Nat) : State :=
  ((s.putSlot n { rev := s.revAt n, rec? := none }).hand (.slot n)).untell (fun e => e.subject = .record n)

theorem State.purge_eq (s : State) (n st : Nat) :
    s.purge n st = (s.purged n).usedSlots.foldl (fun t m => t.update m st (unlink n)) (s.purged n) := rfl

theorem State.purged_slots (s : State) (n : Nat) :
    (s.purged n).tbc.slots = (s.putSlot n { rev := s.revAt n, rec? := none }).tbc.slots := by
  simp [State.purged]

theorem State.purged_wf {s : State} (h : s.tbc.slots.wf) (n : Nat) : (s.purged n).tbc.slots.wf := by
  rw [State.purged_slots]; exact State.putSlot_wf h _ _

theorem State.slotAt_purged (s : State) (n m : Nat) :
    (s.purged n).slotAt m = if m = n then { rev := s.revAt n, rec? := none } else s.slotAt m := by
  rw [State.slotAt_congr (State.purged_slots s n)]
  by_cases e : m = n
  · subst e; simp
  · rw [if_neg e, State.slotAt_putSlot_ne _ _ _ _ e]

/-- An update of a FREE slot leaves it. -/
theorem updatedSlot_free (s : State) (st : Nat) (f : Record → Record) {z : Slot} (h : z.rec? = none) :
    updatedSlot s st f z = z := by simp [updatedSlot, h]

/-- A purge frees its slot, and updates each other one to what has no link to it (R20). -/
theorem State.slotAt_purge {s : State} (h : s.tbc.slots.wf) (n st m : Nat) : (s.purge n st).slotAt m =
    if m = n then { rev := s.revAt n, rec? := none } else updatedSlot s st (unlink n) (s.slotAt m) := by
  have hw := State.purged_wf h n
  have hup : updatedSlot (s.purged n) st (unlink n) = updatedSlot s st (unlink n) := by
    funext z; simp [updatedSlot, State.purged]
  rw [State.purge_eq, State.slotAt_updates st _ ((State.usedSlots_sorted hw).imp Nat.ne_of_lt), hup, State.slotAt_purged]
  by_cases e : m = n
  · rw [if_pos e, if_pos e, updatedSlot_free _ _ _ rfl, ite_self]
  · rw [if_neg e]
    split
    · rfl
    · next hm =>
      refine (updatedSlot_free _ _ _ ?_).symm
      by_contra hr
      obtain ⟨r, hr⟩ := Option.ne_none_iff_exists'.1 hr
      refine hm ((State.mem_usedSlots hw).2 ⟨r, ?_⟩)
      rw [State.recAt, State.slotAt_purged, if_neg e, hr]

theorem State.purge_wf {s : State} (h : s.tbc.slots.wf) (n st : Nat) : (s.purge n st).tbc.slots.wf := by
  rw [State.purge_eq]
  exact foldl_keeps (P := fun (t : State) => t.tbc.slots.wf) (fun t m ht => State.update_wf ht m st _) _
    (State.purged_wf h n)

@[simp] theorem State.purge_map (s : State) (n st : Nat) : (s.purge n st).tbc.map = s.tbc.map := by
  rw [State.purge_eq, foldl_same (fun t : State => t.tbc.map) _ (fun t m => State.update_map t m st _)]
  simp [State.purged]

/-- `q` is `r` with every link to slot `n` removed and the links to other slots kept. -/
structure Unlinked (n : Nat) (r q : Record) : Prop extends InPlace r q where
  notReplaces : q.replaces ≠ some n
  notReplacedBy : q.replacedBy ≠ some n

/-- What a record is after a purge of another slot. -/
theorem State.recAt_purge {s : State} (h : s.tbc.slots.wf) (n st : Nat) {m : Nat} {q : Record}
    (hq : (s.purge n st).recAt m = some q) : m ≠ n ∧ ∃ r, s.recAt m = some r ∧ Unlinked n r q ∧ q.state = r.state ∧
      q.context = r.context := by
  rw [State.recAt, State.slotAt_purge h] at hq
  split at hq
  · cases hq
  · next e =>
    refine ⟨e, ?_⟩
    cases hr : s.recAt m with
    | none => rw [updatedSlot_free _ _ _ (by exact hr), show (s.slotAt m).rec? = none from hr] at hq; cases hq
    | some r =>
      refine ⟨r, rfl, ?_⟩
      have hz : (s.slotAt m).rec? = some r := hr
      have hlinks : ∀ stamp, Unlinked n r { unlink n r with stamp := stamp } := fun stamp => by
        refine ⟨⟨rfl, rfl, rfl, fun k hk => ?_, fun k hk => ?_, fun _ => id⟩, fun hk => ?_, fun hk => ?_⟩ <;>
          simp only [unlink] at hk <;> split at hk <;> simp_all
      simp only [updatedSlot, hz] at hq
      split at hq
      · next hf =>
        rw [hz] at hq; cases hq
        have := hlinks q.stamp
        rw [hf] at this
        exact ⟨this, rfl, rfl⟩
      · cases hq; exact ⟨hlinks _, rfl, rfl⟩

/-- A record of another slot stands after a purge. -/
theorem State.recAt_purge_some {s : State} (h : s.tbc.slots.wf) (n st : Nat) {m : Nat} {r : Record} (hm : m ≠ n)
    (hr : s.recAt m = some r) : ∃ q, (s.purge n st).recAt m = some q ∧ Unlinked n r q ∧ q.state = r.state ∧
      q.context = r.context := by
  have hsome : ∃ q, (s.purge n st).recAt m = some q := by
    rw [State.recAt, State.slotAt_purge h, if_neg hm]
    simp only [updatedSlot, show (s.slotAt m).rec? = some r from hr]
    split
    · exact ⟨r, hr⟩
    · exact ⟨_, rfl⟩
  obtain ⟨q, hq⟩ := hsome
  obtain ⟨-, r', hr', k⟩ := State.recAt_purge h n st hq
  rw [hr] at hr'; cases hr'
  exact ⟨q, hq, k⟩

theorem TableLaw.purge {s : State} (h : TableLaw s) {n : Nat} {r : Record} (hr : s.recAt n = some r)
    (hst : r.state = .retired) (st : Nat) : TableLaw (s.purge n st) := by
  have hw := h.1
  obtain ⟨-, hmw, hrange, huniq, hent, hlink⟩ := h
  refine ⟨State.purge_wf hw n st, by rw [State.purge_map]; exact hmw, ?_, ?_, ?_, ?_⟩
  · intro m q hq
    obtain ⟨-, p, hp, k, -⟩ := State.recAt_purge hw n st hq
    rw [k.row, k.bay, k.gen]
    exact hrange m p hp
  · intro m m' q q' hq hq' h1 h2 h3
    obtain ⟨-, p, hp, k, -⟩ := State.recAt_purge hw n st hq
    obtain ⟨-, p', hp', k', -⟩ := State.recAt_purge hw n st hq'
    rw [k.row, k'.row] at h1
    rw [k.bay, k'.bay] at h2
    rw [k.gen, k'.gen] at h3
    exact huniq m m' p p' hp hp' h1 h2 h3
  · intro key m hk
    rw [State.purge_map] at hk
    obtain ⟨p, hp, hkey, hne⟩ := hent key m hk
    have hm : m ≠ n := by rintro rfl; rw [hr] at hp; cases hp; exact hne hst
    obtain ⟨q, hq, k, hs, -⟩ := State.recAt_purge_some hw n st hm hp
    exact ⟨q, hq, by rw [k.row, k.bay]; exact hkey, hs ▸ hne⟩
  · intro m m' q hq hl
    obtain ⟨-, p, hp, k, -⟩ := State.recAt_purge hw n st hq
    have hm : m' ≠ n := by rintro rfl; exact hl.elim k.notReplacedBy k.notReplaces
    obtain ⟨o, ho, h1, h2⟩ := hlink m m' p hp (hl.imp (k.replacedBy m') (k.replaces m'))
    obtain ⟨o', ho', k', -⟩ := State.recAt_purge_some hw n st hm ho
    exact ⟨o', ho', by rw [k'.row, k.row, h1], by rw [k'.bay, k.bay, h2]⟩

end Sys2Proof.Machine
end

section
/-! The contexts, the work states and the stations (R46, R47): kept by every move, together with the table. -/

namespace Sys2Proof.Machine

/-! ## Work states between two states of the part -/

/-- A record of slot `n` in a work state stays in it with its context, and none comes into one. -/
structure WorkKept (s t : State) (n : Nat) : Prop where
  stays : ∀ r, s.recAt n = some r → r.state.isWork = true →
    ∃ q, t.recAt n = some q ∧ q.state = r.state ∧ q.context = r.context
  new : ∀ q, t.recAt n = some q → q.state.isWork = true → ∃ r, s.recAt n = some r ∧ r.state.isWork = true

theorem WorkKept.of_recAt {s t : State} {n : Nat} (h : t.recAt n = s.recAt n) : WorkKept s t n :=
  ⟨fun r hr _ => ⟨r, h.trans hr, rfl, rfl⟩, fun q hq hw => ⟨q, h ▸ hq, hw⟩⟩

theorem WorkKept.of_slots {s t : State} (h : t.tbc.slots = s.tbc.slots) (n : Nat) : WorkKept s t n :=
  WorkKept.of_recAt (State.recAt_congr h n)

theorem WorkKept.trans {s t u : State} {n : Nat} (h : WorkKept s t n) (k : WorkKept t u n) : WorkKept s u n where
  stays r hr hw := by
    obtain ⟨q, hq, h1, h2⟩ := h.stays r hr hw
    obtain ⟨p, hp, k1, k2⟩ := k.stays q hq (h1 ▸ hw)
    exact ⟨p, hp, k1.trans h1, k2.trans h2⟩
  new p hp hw := by
    obtain ⟨q, hq, hw'⟩ := k.new p hp hw
    exact h.new q hq hw'

/-- A change of a record that is in neither case a change of work: state and context stay, or no work state is touched. -/
def WorkChange (r q : Record) : Prop :=
  q.state = r.state ∧ q.context = r.context ∨ r.state.isWork = false ∧ q.state.isWork = false

theorem WorkKept.update {s : State} (n st : Nat) {f : Record → Record} (hf : ∀ r, s.recAt n = some r → WorkChange r (f r))
    (m : Nat) : WorkKept s (s.update n st f) m := by
  by_cases e : m = n
  · subst e
    cases hr : s.recAt m with
    | none => exact WorkKept.of_recAt ((State.recAt_update_none hr st f).trans hr.symm)
    | some r =>
      obtain ⟨stamp, hq⟩ := State.recAt_update hr st f
      refine ⟨fun r' hr' hw => ?_, fun q hq' hw => ?_⟩
      · rw [hr] at hr'; cases hr'
        rcases hf r hr with h | h
        · exact ⟨_, hq, h⟩
        · rw [h.1] at hw; cases hw
      · rw [hq] at hq'; cases hq'
        rcases hf r hr with h | h
        · exact ⟨r, hr, h.1 ▸ hw⟩
        · exact absurd (h.2.symm.trans hw) (by decide)
  · exact WorkKept.of_recAt (State.recAt_update_ne _ _ _ _ _ e)

theorem WorkKept.updateRaising {s : State} (n st : Nat) (cs : List Cond) {f : Record → Record}
    (hf : ∀ r, s.recAt n = some r → WorkChange r (f r)) (m : Nat) : WorkKept s (s.updateRaising n st cs f) m :=
  (WorkKept.update (f := fun r => { f r with conds := addConds cs (f r).conds }) n st hf m).trans
    (WorkKept.of_slots (by simp) m)

theorem StateKept.workChange {r q : Record} (h : StateKept r q) : WorkChange r q :=
  h.imp_right fun ⟨h1, h2⟩ => ⟨h1.1, h2.1⟩

theorem Dropped.workChange {c : Cond} {r q : Record} (h : Dropped c r q) : WorkChange r q := by
  rcases h.state with h | ⟨h1, h2⟩
  · exact .inl h
  · refine .inr ⟨by rw [h1]; rfl, ?_⟩
    rcases h2 with h2 | h2
    · exact h2.1
    · rw [h2]; rfl

/-! ## Contexts between two states of the part -/

/-- What a context holds for as long as it is bound: its slot, its station and its kind. -/
def Context.bond (x : Context) : Nat × Nat × CtxKind := (x.slot, x.station, x.prog.kind)

/-- The contexts keep their bonds, and the stations their bindings and the kinds of the bound. -/
structure BondsKept (s t : State) : Prop where
  wf : s.cxp.contexts.wf → t.cxp.contexts.wf
  bonds : ∀ c, (t.ctxAt c).map Context.bond = (s.ctxAt c).map Context.bond
  empty : s.cxp.contexts = [] → t.cxp.contexts = []
  bound : ∀ n, (t.stationAt n).ctx = (s.stationAt n).ctx
  kinds : ∀ n, (t.stationAt n).kind = (s.stationAt n).kind ∨ (s.stationAt n).ctx = none
  sys : t.sys = s.sys

theorem BondsKept.of_same {s t : State} (hcxp : t.cxp.contexts = s.cxp.contexts) (hbmu : t.bmu = s.bmu)
    (hsys : t.sys = s.sys) : BondsKept s t :=
  ⟨fun h => hcxp ▸ h, fun c => by rw [State.ctxAt, State.ctxAt, hcxp], fun h => hcxp ▸ h,
    fun n => by rw [State.stationAt_congr hbmu], fun n => .inl (by rw [State.stationAt_congr hbmu]), hsys⟩

theorem BondsKept.fwd {s t : State} (h : BondsKept s t) {c : Nat} {x : Context} (hx : s.ctxAt c = some x) :
    ∃ y, t.ctxAt c = some y ∧ y.bond = x.bond := by
  have := h.bonds c
  rw [hx, Option.map_some, Option.map_eq_some_iff] at this
  exact this

theorem BondsKept.bwd {s t : State} (h : BondsKept s t) {c : Nat} {y : Context} (hy : t.ctxAt c = some y) :
    ∃ x, s.ctxAt c = some x ∧ y.bond = x.bond := by
  have := h.bonds c
  rw [hy, Option.map_some, eq_comm, Option.map_eq_some_iff] at this
  obtain ⟨x, hx, e⟩ := this
  exact ⟨x, hx, e.symm⟩

theorem Context.bond_eq {x y : Context} (h : y.bond = x.bond) :
    y.slot = x.slot ∧ y.station = x.station ∧ y.prog.kind = x.prog.kind := by
  simpa [Context.bond] using h

theorem WorkKind.isWork (k : CtxKind) : k.workState.isWork = true := by cases k <;> rfl

/-- Work goes on where bonds, bindings and work states do. -/
theorem WorkLaw.keep {s t : State} (h : WorkLaw s) (hb : BondsKept s t) (hr : ∀ n, WorkKept s t n) : WorkLaw t := by
  obtain ⟨hwf, hctx, hwork, hbound, hup⟩ := h
  refine ⟨hb.wf hwf, ?_, ?_, ?_, ?_⟩
  · intro c y hy
    obtain ⟨x, hx, e⟩ := hb.bwd hy
    obtain ⟨h1, h2, h3⟩ := Context.bond_eq e
    obtain ⟨hc, ⟨r, hr', hst, hcx⟩, hlt, hkind, hsta⟩ := hctx c x hx
    obtain ⟨q, hq, k1, k2⟩ := (hr x.slot).stays r hr' (hst ▸ WorkKind.isWork _)
    refine ⟨hc, ⟨q, h1 ▸ hq, ?_, k2.trans hcx⟩, h2 ▸ hlt, ?_, ?_⟩
    · rw [k1, hst, h3]
    · rw [h2, h3, ← hkind]
      exact (hb.kinds x.station).resolve_right (by rw [hsta]; nofun)
    · rw [h2, hb.bound, hsta]
  · intro n q hq hw
    obtain ⟨r, hr', hw'⟩ := (hr n).new q hq hw
    obtain ⟨c, x, hx, hs⟩ := hwork n r hr' hw'
    obtain ⟨y, hy, e⟩ := hb.fwd hx
    exact ⟨c, y, hy, (Context.bond_eq e).1.trans hs⟩
  · intro n c hc
    rw [hb.bound] at hc
    obtain ⟨x, hx, hs⟩ := hbound n c hc
    obtain ⟨y, hy, e⟩ := hb.fwd hx
    exact ⟨y, hy, (Context.bond_eq e).2.1.trans hs⟩
  · intro hp
    exact hb.empty (hup (hb.sys ▸ hp))

/-- What reaches neither the slots, the contexts, the stations nor the start-up leaves work as it is. -/
theorem WorkLaw.same {s t : State} (h : WorkLaw s) (hslots : t.tbc.slots = s.tbc.slots)
    (hcxp : t.cxp.contexts = s.cxp.contexts) (hbmu : t.bmu = s.bmu) (hsys : t.sys = s.sys) : WorkLaw t :=
  h.keep (BondsKept.of_same hcxp hbmu hsys) (WorkKept.of_slots hslots)

/-! ## Binding and release (R51, R53) -/

/-- Two contexts of one slot are one: its record names the context it is in work for. -/
theorem WorkLaw.slot_inj {s : State} (h : WorkLaw s) {c d : Nat} {x y : Context} (hx : s.ctxAt c = some x)
    (hy : s.ctxAt d = some y) (hs : x.slot = y.slot) : c = d := by
  obtain ⟨-, ⟨r, hr, -, hc⟩, -⟩ := h.2.1 c x hx
  obtain ⟨-, ⟨q, hq, -, hd⟩, -⟩ := h.2.1 d y hy
  rw [hs, hq] at hr; cases hr
  rw [hc] at hd; cases hd; rfl

/-- Two contexts of one station are one. -/
theorem WorkLaw.station_inj {s : State} (h : WorkLaw s) {c d : Nat} {x y : Context} (hx : s.ctxAt c = some x)
    (hy : s.ctxAt d = some y) (hs : x.station = y.station) : c = d := by
  obtain ⟨-, -, -, -, hc⟩ := h.2.1 c x hx
  obtain ⟨-, -, -, -, hd⟩ := h.2.1 d y hy
  rw [hs, hd] at hc; cases hc; rfl

/-- A freed context whose record has left its work state, the others as they were. -/
theorem WorkLaw.release {s t : State} (h : WorkLaw s) {c : Nat} {x : Context} (hx : s.ctxAt c = some x) (p : Parting)
    (hb : BondsKept (s.freeCtx c x p) t) (hother : ∀ m, m ≠ x.slot → WorkKept s t m)
    (hself : ∀ q, t.recAt x.slot = some q → q.state.isWork = false) : WorkLaw t := by
  have hctx := h.2.1
  obtain ⟨hwf, -, hwork, hbound, hup⟩ := id h
  have hlt := (hctx c x hx).2.2.1
  have hst : ∀ n, n ≠ x.station → (s.freeCtx c x p).stationAt n = s.stationAt n := fun n hn => by
    rw [State.freeCtx_stationAt, if_neg (fun e => hn e.1)]
  have hown : ((s.freeCtx c x p).stationAt x.station).ctx = none := by
    rw [State.freeCtx_stationAt, if_pos ⟨rfl, hlt⟩]
  refine ⟨hb.wf (Table.wf_erase hwf c), ?_, ?_, ?_, ?_⟩
  · intro d y hy
    obtain ⟨z, hz, e⟩ := hb.bwd hy
    have hdc : d ≠ c := by rintro rfl; rw [State.ctxAt_freeCtx_same] at hz; cases hz
    rw [State.ctxAt_freeCtx_ne _ _ _ _ _ hdc] at hz
    obtain ⟨h1, h2, h3⟩ := Context.bond_eq e
    obtain ⟨hd, ⟨r, hr, hs, hc⟩, hlt', hkind, hsta⟩ := hctx d z hz
    obtain ⟨q, hq, k1, k2⟩ := (hother z.slot (fun e => hdc (h.slot_inj hz hx e))).stays r hr (hs ▸ WorkKind.isWork _)
    have hzs := hst z.station (fun e => hdc (h.station_inj hz hx e))
    refine ⟨hd, ⟨q, h1 ▸ hq, by rw [k1, hs, h3], k2.trans hc⟩, h2 ▸ hlt', ?_, ?_⟩
    · rw [h2, h3, ← hkind, ← hzs]
      exact (hb.kinds z.station).resolve_right (by rw [hzs, hsta]; nofun)
    · rw [h2, hb.bound, hzs, hsta]
  · intro n q hq hw
    have hn : n ≠ x.slot := by rintro rfl; rw [hself q hq] at hw; cases hw
    obtain ⟨r, hr, hw'⟩ := (hother n hn).new q hq hw
    obtain ⟨d, y, hy, hs⟩ := hwork n r hr hw'
    have hdc : d ≠ c := by rintro rfl; rw [hx] at hy; cases hy; exact hn hs.symm
    obtain ⟨z, hz, e⟩ := hb.fwd ((State.ctxAt_freeCtx_ne s c d x p hdc).trans hy)
    exact ⟨d, z, hz, (Context.bond_eq e).1.trans hs⟩
  · intro n d hd
    rw [hb.bound] at hd
    have hn : n ≠ x.station := by rintro rfl; rw [hown] at hd; cases hd
    rw [hst n hn] at hd
    obtain ⟨y, hy, hs⟩ := hbound n d hd
    have hdc : d ≠ c := by rintro rfl; rw [hx] at hy; cases hy; exact hn hs.symm
    obtain ⟨z, hz, e⟩ := hb.fwd ((State.ctxAt_freeCtx_ne s c d x p hdc).trans hy)
    exact ⟨z, hz, (Context.bond_eq e).2.1.trans hs⟩
  · intro hp
    refine hb.empty ?_
    have : s.cxp.contexts = [] := hup (by rw [hb.sys] at hp; exact hp)
    simp [State.freeCtx, this, Table.erase]

theorem State.startProg_kind (s : State) (k : CtxKind) (station : Nat) (r : Record) (resumed : Bool) :
    (s.startProg k station r resumed).kind = k := by
  cases k <;> rfl

/-- What the checks of a binding have found (Table 3-3). -/
theorem State.ready_of_none {s : State} {k : CtxKind} {station : Nat} {r : Record} {resumed : Bool}
    (h : s.readyRefusal k station r resumed = none) : (s.stationAt station).kind = k.stationKind ∧
      (s.stationAt station).ctx = none ∧ inNeededState k resumed r = true := by
  unfold State.readyRefusal at h
  split at h
  · cases h
  split at h
  · cases h
  split at h
  · cases h
  split at h
  · cases h
  next hk _ hc hn => exact ⟨not_not.1 hk, by simpa using hc, by simpa using hn⟩

/-- The state a binding needs is no work state (Table 3-2). -/
theorem inNeededState_loose {k : CtxKind} {resumed : Bool} {r : Record} (h : inNeededState k resumed r = true) :
    r.state.isWork = false := by
  unfold inNeededState at h
  split at h
  · rw [(of_decide_eq_true h).1]; rfl
  · rw [of_decide_eq_true h]; cases k <;> rfl

theorem State.lowestFreeCtx_spec {s : State} {c : Nat} (h : s.lowestFreeCtx = some c) : c < 12 ∧ s.ctxAt c = none := by
  unfold State.lowestFreeCtx at h
  exact ⟨by simpa [Config.contextCount] using List.mem_of_find?_eq_some h, by simpa using List.find?_some h⟩

theorem State.bindCtx_contexts (s : State) (c : Nat) (k : CtxKind) (n station sender : Nat) (r : Record) (b : Bool) :
    (s.bindCtx c k n station sender r b).cxp.contexts = s.cxp.contexts.put c {
      slot := n, station := station, run := .running, suspend := 0, limitDue := false,
      prog := s.startProg k station r b } := by
  unfold State.bindCtx
  dsimp only
  split <;> simp

/-- A binding makes of the records what its record update makes of them. -/
theorem State.recAt_bindCtx (s : State) (c : Nat) (k : CtxKind) (n station sender : Nat) (r : Record) (b : Bool) (m : Nat) :
    (s.bindCtx c k n station sender r b).recAt m = (s.update n sender (bindFields k c)).recAt m :=
  State.recAt_congr (by rw [State.bindCtx_tbc]) m

/-- A free context that is bound to a record out of work and a free station. -/
theorem WorkLaw.bindCtx {s : State} (h : WorkLaw s) {c : Nat} {k : CtxKind} {n station : Nat} (sender : Nat) {r : Record}
    {resumed : Bool} (hr : s.recAt n = some r) (hup : s.sys.phase = .up)
    (hready : s.readyRefusal k station r resumed = none) (hc : s.lowestFreeCtx = some c) :
    WorkLaw (s.bindCtx c k n station sender r resumed) := by
  obtain ⟨hwf, hctx, hwork, hbound, -⟩ := h
  obtain ⟨hkind, hfree, hneed⟩ := State.ready_of_none hready
  obtain ⟨hc12, hcfree⟩ := State.lowestFreeCtx_spec hc
  have hst16 : station < 16 := by
    by_contra hge
    rw [State.stationAt_ge (by omega)] at hkind
    cases k <;> cases hkind
  have hctxAt : ∀ d, d ≠ c → (s.bindCtx c k n station sender r resumed).ctxAt d = s.ctxAt d := fun d hd => by
    rw [State.ctxAt, State.bindCtx_contexts, Table.get?_put_ne _ _ _ _ hd]; rfl
  have hctxc : ∃ x, (s.bindCtx c k n station sender r resumed).ctxAt c = some x ∧ x.slot = n ∧ x.station = station ∧
      x.prog.kind = k := by
    refine ⟨_, by rw [State.ctxAt, State.bindCtx_contexts, Table.get?_put_same], rfl, rfl, ?_⟩
    exact State.startProg_kind s k station r resumed
  have hrecAt : ∀ m, m ≠ n → (s.bindCtx c k n station sender r resumed).recAt m = s.recAt m := fun m hm => by
    rw [State.recAt_bindCtx, State.recAt_update_ne _ _ _ _ _ hm]
  have hrecn : ∃ q, (s.bindCtx c k n station sender r resumed).recAt n = some q ∧ q.state = k.workState ∧
      q.context = some c := by
    obtain ⟨stamp, hq⟩ := State.recAt_update hr sender (bindFields k c)
    exact ⟨_, (State.recAt_bindCtx ..).trans hq, rfl, rfl⟩
  have hsta := fun m => State.bindCtx_stationAt s c k n station sender r resumed m
  refine ⟨by rw [State.bindCtx_contexts]; exact Table.wf_put hwf _ _, ?_, ?_, ?_, fun hp => absurd ?_ hp⟩
  · intro d y hy
    by_cases e : d = c
    · subst e
      obtain ⟨x, hx, h1, h2, h3⟩ := hctxc
      rw [hx] at hy; cases hy
      obtain ⟨q, hq, h4, h5⟩ := hrecn
      refine ⟨hc12, ⟨q, h1 ▸ hq, by rw [h4, h3], h5⟩, h2 ▸ hst16, ?_, ?_⟩
      · rw [h2, h3, hsta, if_pos ⟨rfl, hst16⟩]; exact hkind
      · rw [h2, hsta, if_pos ⟨rfl, hst16⟩]
    · rw [hctxAt d e] at hy
      obtain ⟨hd, ⟨q, hq, hs, hqc⟩, hlt, hk, hb⟩ := hctx d y hy
      have hslot : y.slot ≠ n := by
        rintro he; rw [he, hr] at hq; cases hq
        have := inNeededState_loose hneed
        rw [hs, WorkKind.isWork] at this; cases this
      have hne : y.station ≠ station := by rintro he; rw [he, hfree] at hb; cases hb
      refine ⟨hd, ⟨q, by rw [hrecAt _ hslot]; exact hq, hs, hqc⟩, hlt, ?_, ?_⟩ <;>
        rw [hsta, if_neg (fun e => hne e.1)]
      · exact hk
      · exact hb
  · intro m q hq hw
    by_cases e : m = n
    · subst e
      obtain ⟨x, hx, h1, -⟩ := hctxc
      exact ⟨c, x, hx, h1⟩
    · rw [hrecAt m e] at hq
      obtain ⟨d, y, hy, hs⟩ := hwork m q hq hw
      exact ⟨d, y, by rw [hctxAt d (by rintro rfl; rw [hcfree] at hy; cases hy)]; exact hy, hs⟩
  · intro m d hd
    rw [hsta] at hd
    split at hd
    · next e =>
      cases hd
      obtain ⟨x, hx, -, h2, -⟩ := hctxc
      exact ⟨x, hx, h2.trans e.1.symm⟩
    · obtain ⟨y, hy, hs⟩ := hbound m d hd
      exact ⟨y, by rw [hctxAt d (by rintro rfl; rw [hcfree] at hy; cases hy)]; exact hy, hs⟩
  · rw [State.bindCtx_sys]; exact hup

/-! ## Every move keeps the table and the work -/

theorem BondsKept.setMark {s : State} (subj : Subject) (c : Cond) (on : Bool) : BondsKept s (s.setMark subj c on) := by
  have hl : ∀ l x, BondsKept s (s.putLine l x) := fun l x =>
    ⟨by simp, fun c => by simp [State.ctxAt], by simp, fun n => by rw [State.stationAt_putLine],
      fun n => .inl (by rw [State.stationAt_putLine]), by simp⟩
  unfold State.setMark
  split
  · next n =>
    have hst : ∀ m, ((s.putStation n { s.stationAt n with faultMark := on }).stationAt m).ctx = (s.stationAt m).ctx ∧
        ((s.putStation n { s.stationAt n with faultMark := on }).stationAt m).kind = (s.stationAt m).kind := fun m => by
      rw [State.stationAt_putStation]
      split
      · next h => rw [h.1]; exact ⟨rfl, rfl⟩
      · exact ⟨rfl, rfl⟩
    exact ⟨id, fun _ => rfl, id, fun m => (hst m).1, fun m => .inl (hst m).2, rfl⟩
  · exact hl _ _
  · exact hl _ _
  · exact BondsKept.of_same rfl rfl rfl
  · exact BondsKept.of_same rfl rfl rfl
  · exact BondsKept.of_same rfl rfl rfl

theorem State.unlinkOld_work (s : State) (n st : Nat) (r : Record) (m : Nat) : WorkKept s (s.unlinkOld n st r) m := by
  unfold State.unlinkOld
  split
  · exact WorkKept.of_recAt rfl
  · split
    · exact WorkKept.of_recAt rfl
    · split
      · exact WorkKept.update (f := fun q => { q with replacedBy := none }) _ st (fun _ _ => .inl ⟨rfl, rfl⟩) m
      · exact WorkKept.of_recAt rfl

/-- An entry to RETIRED after the record's own update moves no record in or out of work. -/
theorem State.retireRecord_updated {s : State} (n st : Nat) (reason : RetireReason) (f : Record → Record) (m : Nat) :
    WorkKept (s.update n st (fun q => retireFields reason (f q))) (s.retireRecord n st reason f) m := by
  cases hr : s.recAt n with
  | none => unfold State.retireRecord; rw [hr, State.update_none hr]; exact WorkKept.of_recAt rfl
  | some r =>
    have h1 : WorkKept (s.update n st (fun q => retireFields reason (f q))) (((s.update n st (fun q =>
        retireFields reason (f q))).freeChannel r.binding).untell (fun e => e.subject = .record n)) m :=
      WorkKept.of_slots (by rw [State.untell_tbc, State.freeChannel_tbc]) m
    have h2 : WorkKept (s.update n st (fun q => retireFields reason (f q))) (s.retireFirst n st reason f r) m :=
      h1.trans (State.unlinkOld_work _ n st r m)
    rw [State.retireRecord_eq hr]
    split
    · exact h2.trans (WorkKept.of_slots (State.setMap_slots _ _ _) m)
    · exact h2

theorem State.retireRecord_work (s : State) (n st : Nat) (reason : RetireReason) (f : Record → Record) (m : Nat)
    (hm : m ≠ n) : WorkKept s (s.retireRecord n st reason f) m :=
  (WorkKept.of_recAt (State.recAt_update_ne _ _ _ _ _ hm)).trans (State.retireRecord_updated n st reason f m)

/-- What stands in a slot whose record has retired is in no work state. -/
theorem State.retireRecord_loose {s : State} {n st : Nat} {reason : RetireReason} {f : Record → Record} {q : Record}
    (hq : (s.retireRecord n st reason f).recAt n = some q) : q.state.isWork = false := by
  by_contra hw
  obtain ⟨p, hp, hpw⟩ := (State.retireRecord_updated n st reason f n).new q hq (by simpa using hw)
  obtain ⟨r, -, ⟨h, -⟩ | ⟨-, stamp, rfl⟩⟩ := State.recAt_update_cases hp
  · exact h rfl
  · cases hpw

theorem Released.inPlace {r q : Record} (h : Released r q) : InPlace r q :=
  h.toCarries.inPlaceIf fun _ _ => h.state.elim (fun k => k.2.2.1) (fun k => by rw [k]; nofun)

theorem Dropped.inPlace {c : Cond} {r q : Record} (h : Dropped c r q) : InPlace r q :=
  h.toCarries.inPlaceIf fun _ hr => by
    rcases h.state with k | ⟨-, k | k⟩
    · rw [k.1]; exact hr
    · exact k.2.2.1
    · rw [k]; nofun

theorem State.place_work {s : State} {n : Nat} {r : Record} (hfree : s.recAt n = none) (hst : r.state = .planned) (m : Nat) :
    WorkKept s (s.place n r) m := by
  by_cases e : m = n
  · subst e
    refine ⟨fun p hp => (by rw [hfree] at hp; cases hp), fun q hq hw => ?_⟩
    rw [State.recAt_place, if_pos rfl] at hq; cases hq
    rw [hst] at hw; cases hw
  · exact WorkKept.of_recAt (by rw [State.recAt_place, if_neg e])

theorem State.purge_work {s : State} (h : s.tbc.slots.wf) {n : Nat} {r : Record} (hr : s.recAt n = some r)
    (hst : r.state = .retired) (st m : Nat) : WorkKept s (s.purge n st) m := by
  refine ⟨fun p hp hw => ?_, fun q hq hw => ?_⟩
  · have hm : m ≠ n := by rintro rfl; rw [hr] at hp; cases hp; rw [hst] at hw; cases hw
    obtain ⟨q, hq, -, h1, h2⟩ := State.recAt_purge_some h n st hm hp
    exact ⟨q, hq, h1, h2⟩
  · obtain ⟨-, p, hp, -, h1, -⟩ := State.recAt_purge h n st hq
    exact ⟨p, hp, h1 ▸ hw⟩

theorem State.setDig_tbc (s : State) (row : Nat) :
    (s.setDig row).tbc = { s.tbc with site := (s.setDig row).tbc.site } := by
  unfold State.setDig; split <;> simp

theorem State.setRelieved_tbc (s : State) (row : Nat) (on : Bool) :
    (s.setRelieved row on).tbc = { s.tbc with site := (s.setRelieved row on).tbc.site } := by
  unfold State.setRelieved; split <;> simp

theorem State.siteApply_tbc (s : State) (x : SiteItems) :
    (s.siteApply x).tbc = { s.tbc with site := SiteItems.apply x s.tbc.site } := by
  rw [State.siteApply_eq]
  dsimp only
  split
  · rw [State.changeInputs_tbc, State.siteLevels_tbc]
  · rw [State.hand_tbc, State.changeInputs_tbc, State.siteLevels_tbc]

/-- Every move keeps the table. -/
theorem Move.table {G : Prop} {s t : State} (h : Move G s t) (hs : TableLaw s) : TableLaw t := by
  cases h with
  | quiet h => exact hs.congr h.slots h.map
  | hand i => exact hs.congr (by simp) (by simp)
  | isi | clock | putCtx | eachCtx | overflow | key | pins => exact hs.congr rfl rfl
  | endStop => exact hs.congr rfl rfl
  | setDig row h => exact hs.congr (by rw [State.setDig_tbc]) (by rw [State.setDig_tbc])
  | relieve row => exact hs.congr (by rw [State.setRelieved_tbc]) (by rw [State.setRelieved_tbc])
  | rely row hd hx => exact hs.congr (by rw [State.setRelieved_tbc]) (by rw [State.setRelieved_tbc])
  | raising n st cs f hcs hf => exact hs.updateRaising n st cs fun r hr => (hf r hr).inPlace
  | dropping n st c f hf hlive =>
    exact (hs.update n st fun r hr => (hf r hr).inPlace).congr rfl rfl
  | raiseMark subj c h => exact hs.congr (by simp) (by simp)
  | clearMark subj c => exact hs.congr (by simp) (by simp)
  | setMap key n r hr hk hl hd => exact hs.setMap key (some n) fun m e => by cases e; exact ⟨r, hr, hk, hl⟩
  | place n r hn hfree hrow hbay hgen hnew hst hr =>
    obtain ⟨-, -, -, h4, h5⟩ := hr
    exact hs.place hn hfree hrow hbay hgen hnew fun m hm => by rw [h4, h5] at hm; rcases hm with hm | hm <;> cases hm
  | replace slot sender n r q hslot hn hfree hkey hgen hnew hst hq =>
    exact hs.replace sender hslot hn hfree hkey hgen hnew hq.2.2.2
  | purge n sender r hr hst => exact hs.purge hr hst sender
  | retire n st reason f r hr hw hlive hf =>
    exact hs.retireRecord n st reason fun q hq => by rw [hr] at hq; cases hq; exact hf
  | bind c k n station sender r resumed =>
    exact (hs.update (f := bindFields k c) n sender fun q _ => ⟨rfl, rfl, rfl, fun _ => id, fun _ => id,
      fun _ _ => by cases k <;> nofun⟩).congr (by rw [State.bindCtx_tbc]) (by rw [State.bindCtx_tbc])
  | release c x p st cs f hx hcs hf =>
    exact (hs.congr (t := s.freeCtx c x p) (by simp) (by simp)).updateRaising x.slot st cs fun r hr => (hf r hr).inPlace
  | releaseRetire c x p st hx =>
    exact (hs.congr (t := s.freeCtx c x p) (by simp) (by simp)).retireRecord x.slot st _ fun r _ => Carries.refl r
  | setBinding n st b r hr hl hb hfree =>
    exact (hs.update (f := fun q => { q with binding := some b }) n st fun q _ => ⟨rfl, rfl, rfl, fun _ => id, fun _ => id,
      fun _ => id⟩).congr (by simp [State.setBinding]) (by simp [State.setBinding])
  | dropBinding n st r hr =>
    exact (hs.update (f := fun q => { q with binding := none }) n st fun q _ => ⟨rfl, rfl, rfl, fun _ => id, fun _ => id,
      fun _ => id⟩).congr (by simp [State.dropBinding]) (by simp [State.dropBinding])
  | changeInputs v => exact hs.congr (by simp) (by simp)
  | restartInputs => exact hs.congr (by simp) (by simp)
  | siteApply x h => exact hs.congr (by rw [State.siteApply_tbc]) (by rw [State.siteApply_tbc])

theorem State.relevel_cxp (s : State) (c : Cond) (level : Nat) : (s.relevel c level).cxp = s.cxp := by
  unfold State.relevel
  dsimp only
  split
  · rfl
  · exact foldl_same State.cxp _ (fun t subj => by split <;> simp) _ _

theorem State.relevel_bmu (s : State) (c : Cond) (level : Nat) : (s.relevel c level).bmu = s.bmu := by
  unfold State.relevel
  dsimp only
  split
  · rfl
  · exact foldl_same State.bmu _ (fun t subj => by split <;> simp) _ _

theorem State.siteLevels_cxp (s : State) (x : SiteItems) : (s.siteLevels x).cxp = s.cxp :=
  foldl_same State.cxp (fun (t : State) (p : Cond × Nat) => t.relevel p.1 p.2) (fun t p => State.relevel_cxp t p.1 p.2)
    (changedLevels s.tbc.site (SiteItems.apply x s.tbc.site)) (s.siteValues x)

theorem State.siteLevels_bmu (s : State) (x : SiteItems) : (s.siteLevels x).bmu = s.bmu :=
  foldl_same State.bmu (fun (t : State) (p : Cond × Nat) => t.relevel p.1 p.2) (fun t p => State.relevel_bmu t p.1 p.2)
    (changedLevels s.tbc.site (SiteItems.apply x s.tbc.site)) (s.siteValues x)

theorem BondsKept.trans {s t u : State} (h : BondsKept s t) (k : BondsKept t u) : BondsKept s u where
  wf := k.wf ∘ h.wf
  bonds c := (k.bonds c).trans (h.bonds c)
  empty := k.empty ∘ h.empty
  bound n := (k.bound n).trans (h.bound n)
  kinds n := by
    rcases h.kinds n with e | e
    · rcases k.kinds n with e' | e'
      · exact .inl (e'.trans e)
      · exact .inr (h.bound n ▸ e')
    · exact .inr e
  sys := k.sys.trans h.sys

theorem BondsKept.eachCtx (s : State) {f : Context → Context} (hf : ∀ x, (f x).bond = x.bond) :
    BondsKept s (s.eachCtx f) where
  wf h := Table.wf_mapValues h f
  bonds c := by
    rw [State.ctxAt_eachCtx, Option.map_map]
    exact congrArg (fun g => Option.map g (s.ctxAt c)) (funext hf)
  empty h := by simp [State.eachCtx, h, Table.mapValues]
  bound _ := rfl
  kinds _ := .inl rfl
  sys := rfl

theorem BondsKept.putCtx {s : State} {c : Nat} {x y : Context} (hy : s.ctxAt c = some y) (h : x.bond = y.bond) :
    BondsKept s (s.putCtx c x) where
  wf hw := Table.wf_put hw c x
  bonds d := by
    by_cases e : d = c
    · subst e; rw [State.ctxAt_putCtx_same, hy, Option.map_some, Option.map_some, h]
    · rw [State.ctxAt_putCtx_ne _ _ _ _ e]
  empty h := by rw [State.ctxAt, h] at hy; cases hy
  bound _ := rfl
  kinds _ := .inl rfl
  sys := rfl

theorem BondsKept.eachLine (s : State) (f : Line → Line) : BondsKept s (s.eachLine f) :=
  ⟨id, fun _ => rfl, id, fun _ => rfl, fun _ => .inl rfl, rfl⟩

theorem Context.stop_bond (x : Context) : x.stop.bond = x.bond := by
  unfold Context.stop
  split
  · obtain ⟨-, -, -, -, -, prog⟩ := x
    cases prog <;> rfl
  · rfl

theorem State.spreadStop_bonds (s : State) : BondsKept s s.spreadStop :=
  (BondsKept.eachCtx s Context.stop_bond).trans (BondsKept.eachLine _ Line.oweAllstop)

/-- A begun site stop has contexts and lines follow it, and touches no bond. -/
theorem State.followStop_bonds (s : State) : BondsKept s s.followStop := by
  have hbegin : ∀ i, BondsKept s (s.beginStop i) := fun i => by
    have h0 : BondsKept s { s with ifu := { s.ifu with stop := some { input := i.val, time := s.wck.time } } } :=
      BondsKept.of_same rfl rfl rfl
    have h1 := h0.trans (State.spreadStop_bonds _)
    unfold State.beginStop
    dsimp only
    split
    · exact h1.trans (BondsKept.of_same (by simp) (by simp) (by simp))
    · exact h1
  unfold State.followStop
  split
  · exact hbegin _
  · exact BondsKept.of_same rfl rfl rfl

theorem State.endStop_bonds (s : State) : BondsKept s s.endStop := by
  have h1 : BondsKept s (({ s with ifu := { s.ifu with stop := none } }).untellOne .site .siteStop) :=
    BondsKept.of_same rfl rfl rfl
  have h2 := BondsKept.eachCtx (({ s with ifu := { s.ifu with stop := none } }).untellOne .site .siteStop)
    (f := Context.goOn) fun x => by unfold Context.goOn; split <;> rfl
  exact (h1.trans h2).trans (BondsKept.eachLine _ Line.freeAllstop)

theorem State.changeInputs_bonds (s : State) (v : Vector Input 4) : BondsKept s (s.changeInputs v) := by
  have h1 : BondsKept s { s with ifu := { s.ifu with inputs := v } } := BondsKept.of_same rfl rfl rfl
  have h2 := h1.trans (State.followStop_bonds _)
  exact h2.trans (BondsKept.of_same rfl rfl rfl)

theorem State.restartInputs_bonds (s : State) : BondsKept s s.restartInputs := by
  have h1 : BondsKept s { s with ifu := { s.ifu with inputs := s.ifu.inputs.map Input.restart } } := BondsKept.of_same rfl rfl rfl
  have h2 := h1.trans (State.followStop_bonds _)
  exact h2.trans (BondsKept.of_same rfl rfl rfl)

theorem State.siteLevels_sys (s : State) (x : SiteItems) : (s.siteLevels x).sys = s.sys :=
  foldl_same State.sys (fun (t : State) (p : Cond × Nat) => t.relevel p.1 p.2) (fun t p => (Books.relevel t p.1 p.2).sys)
    (changedLevels s.tbc.site (SiteItems.apply x s.tbc.site)) (s.siteValues x)

theorem State.siteApply_bonds (s : State) (x : SiteItems) : BondsKept s (s.siteApply x) := by
  have h1 := (BondsKept.of_same (congrArg Cxp.contexts (State.siteLevels_cxp s x)) (State.siteLevels_bmu s x)
    (State.siteLevels_sys s x)).trans (State.changeInputs_bonds (s.siteLevels x)
      (restartChanged s.tbc.site (SiteItems.apply x s.tbc.site) (s.siteLevels x).ifu))
  rw [State.siteApply_eq]
  dsimp only
  split
  · exact h1
  · exact h1.trans (BondsKept.of_same (by simp) (by simp) (by simp))

/-- What stands in the slot of a released record is in no work state. -/
theorem Released.loose {r q : Record} (h : Released r q) : q.state.isWork = false := by
  rcases h.state with k | k
  · exact k.1
  · rw [k]; rfl

/-- Every move keeps contexts, work states and stations in agreement, where the table is in order. -/
theorem Move.work {G : Prop} {s t : State} (h : Move G s t) (g : G) (ht : TableLaw s) (hs : WorkLaw s) : WorkLaw t := by
  have hsys : t.sys = s.sys := h.books.sys
  cases h with
  | quiet h =>
    exact hs.keep ⟨fun w => h.contexts ▸ w, fun c => by rw [State.ctxAt, State.ctxAt, h.contexts], fun e => h.contexts ▸ e,
      h.bound, h.kinds, hsys⟩ (WorkKept.of_slots h.slots)
  | hand i => exact hs.same (by simp) (by simp) (by simp) hsys
  | isi | clock | overflow | key | pins => exact hs.same rfl rfl rfl hsys
  | setDig row h =>
    exact hs.same (by rw [State.setDig_tbc]) (by unfold State.setDig; split <;> simp) (by unfold State.setDig; split <;> simp) hsys
  | relieve row =>
    exact hs.same (by rw [State.setRelieved_tbc]) (by unfold State.setRelieved; split <;> simp)
      (by unfold State.setRelieved; split <;> simp) hsys
  | rely row hd hx =>
    exact hs.same (by rw [State.setRelieved_tbc]) (by unfold State.setRelieved; split <;> simp)
      (by unfold State.setRelieved; split <;> simp) hsys
  | putCtx c x y hy hslot hstation hkind =>
    exact hs.keep (BondsKept.putCtx hy (by simp [Context.bond, hslot, hstation, hkind])) (WorkKept.of_slots rfl)
  | eachCtx f hf =>
    exact hs.keep (BondsKept.eachCtx s fun x => by simp [Context.bond, hf x]) (WorkKept.of_slots rfl)
  | raising n st cs f hcs hf =>
    exact hs.keep (BondsKept.of_same (by simp) (by simp) hsys)
      (WorkKept.updateRaising n st cs fun r hr => (hf r hr).state.workChange)
  | dropping n st c f hf hlive =>
    exact hs.keep (BondsKept.of_same (by simp) (by simp) hsys) fun m =>
      (WorkKept.update n st (fun r hr => (hf r hr).workChange) m).trans (WorkKept.of_slots (by simp) m)
  | raiseMark subj c h =>
    refine hs.keep ?_ (WorkKept.of_slots (by simp))
    unfold State.raiseMark
    split
    · exact BondsKept.of_same rfl rfl rfl
    · exact (BondsKept.setMark subj c true).trans (BondsKept.of_same (by simp) (by simp) (by simp))
  | clearMark subj c =>
    refine hs.keep ?_ (WorkKept.of_slots (by simp))
    unfold State.clearMark
    split
    · exact (BondsKept.setMark subj c false).trans (BondsKept.of_same rfl rfl rfl)
    · exact BondsKept.of_same rfl rfl rfl
  | setMap key n r hr hk hl hd => exact hs.same (by simp) (by simp) (by simp) hsys
  | place n r hn hfree hrow hbay hgen hnew hst hr =>
    exact hs.keep (BondsKept.of_same (by simp [State.place]) (by simp [State.place]) hsys) (State.place_work hfree hst)
  | replace slot sender n r q hslot hn hfree hkey hgen hnew hst hq =>
    exact hs.keep (BondsKept.of_same (by simp [State.place]) (by simp [State.place]) hsys) fun m =>
      (WorkKept.update (f := fun q => { q with replacedBy := some n }) slot sender (fun _ _ => .inl ⟨rfl, rfl⟩) m).trans
        (State.place_work (State.recAt_update_none hfree _ _) hst m)
  | purge n sender r hr hst =>
    refine hs.keep (BondsKept.of_same ?_ ?_ hsys) (State.purge_work ht.1 hr hst sender)
    · rw [State.purge_eq, foldl_same State.cxp _ (fun t m => by simp)]; simp [State.purged]
    · rw [State.purge_eq, foldl_same State.bmu _ (fun t m => by simp)]; simp [State.purged]
  | retire n st reason f r hr hw hlive hf =>
    refine hs.keep (BondsKept.of_same (by simp) (by simp) hsys) fun m => ?_
    by_cases e : m = n
    · subst e
      refine ⟨fun p hp hpw => ?_, fun q hq hqw => ?_⟩
      · rw [hr] at hp; cases hp; rw [hw] at hpw; cases hpw
      · rw [State.retireRecord_loose hq] at hqw; cases hqw
    · exact State.retireRecord_work s n st reason f m e
  | bind c k n station sender r resumed hr hup hready hnear hc => exact hs.bindCtx sender hr hup hready hc
  | release c x p st cs f hx hcs hf =>
    refine hs.release (hx g) p (BondsKept.of_same (by simp) (by simp) (by simp))
      (fun m hm => ?_) (fun q hq => ?_)
    · exact WorkKept.of_recAt ((State.recAt_updateRaising ..).trans ((State.recAt_update_ne _ _ _ _ _ hm).trans rfl))
    · rw [State.recAt_updateRaising] at hq
      obtain ⟨r, hr, ⟨h, -⟩ | ⟨-, stamp, rfl⟩⟩ := State.recAt_update_cases hq
      · exact absurd rfl h
      · exact (hf r hr).loose
  | releaseRetire c x p st hx =>
    exact hs.release hx p (BondsKept.of_same (by simp) (by simp) (by simp))
      (fun m hm => (WorkKept.of_slots (by simp) m).trans (State.retireRecord_work (s.freeCtx c x p) _ _ _ _ m hm))
      (fun q hq => State.retireRecord_loose hq)
  | setBinding n st b r hr hl hb hfree =>
    exact hs.keep (BondsKept.of_same (by simp [State.setBinding]) (by simp [State.setBinding]) hsys) fun m =>
      (WorkKept.update (f := fun q => { q with binding := some b }) n st (fun _ _ => .inl ⟨rfl, rfl⟩) m).trans
        (WorkKept.of_slots (by simp [State.setBinding]) m)
  | dropBinding n st r hr =>
    exact hs.keep (BondsKept.of_same (by simp [State.dropBinding]) (by simp [State.dropBinding]) hsys) fun m =>
      (WorkKept.update (f := fun q => { q with binding := none }) n st (fun _ _ => .inl ⟨rfl, rfl⟩) m).trans
        (WorkKept.of_slots (by simp [State.dropBinding]) m)
  | endStop h =>
    exact hs.keep (State.endStop_bonds s) (WorkKept.of_slots rfl)
  | changeInputs v => exact hs.keep (State.changeInputs_bonds s v) (WorkKept.of_slots (by simp))
  | restartInputs => exact hs.keep (State.restartInputs_bonds s) (WorkKept.of_slots (by simp))
  | siteApply x h => exact hs.keep (State.siteApply_bonds s x) (WorkKept.of_slots (by rw [State.siteApply_tbc]))

end Sys2Proof.Machine
end

section
/-! Every operation of the units and of the works bus is made of moves. -/

namespace Sys2Proof.Machine

variable {G : Prop}

/-! ## What leaves every law alone -/

/-- A works bus whose stations and marks are as they were. -/
theorem Quiet.bmu (s : State) {b : Bmu} (hst : b.stations = s.bmu.stations)
    (ha : b.lineA.faultMark = s.bmu.lineA.faultMark ∧ b.lineA.noiseMark = s.bmu.lineA.noiseMark)
    (hb : b.lineB.faultMark = s.bmu.lineB.faultMark ∧ b.lineB.noiseMark = s.bmu.lineB.noiseMark) :
    Quiet s { s with bmu := b } := by
  have hstation : ∀ n, ({ s with bmu := b } : State).stationAt n = s.stationAt n := fun n => by
    simp only [State.stationAt, hst]
  exact ⟨rfl, rfl, rfl, rfl, rfl, rfl, rfl, rfl, rfl, rfl, fun n => by rw [hstation], fun n => .inl (by rw [hstation]),
    fun n => by rw [hstation], fun l => by cases l <;> simp [State.lineAt, ha, hb],
    fun l => by cases l <;> simp [State.lineAt, ha, hb]⟩

theorem Quiet.setExchange (s : State) (x : Exchange) : Quiet s (s.setExchange x) := Quiet.bmu s rfl ⟨rfl, rfl⟩ ⟨rfl, rfl⟩

theorem Quiet.transmit (s : State) (l : List Sent) : Quiet s (s.transmit l) := Quiet.bmu s rfl ⟨rfl, rfl⟩ ⟨rfl, rfl⟩

theorem Quiet.setTurn (s : State) (t : Turn) : Quiet s (s.setTurn t) := Quiet.bmu s rfl ⟨rfl, rfl⟩ ⟨rfl, rfl⟩

theorem Quiet.eachLine (s : State) {f : Line → Line}
    (hf : ∀ x, (f x).faultMark = x.faultMark ∧ (f x).noiseMark = x.noiseMark) : Quiet s (s.eachLine f) :=
  Quiet.bmu s rfl (hf _) (hf _)

theorem Quiet.putLine (s : State) (l : LineId) {x : Line}
    (hx : x.faultMark = (s.lineAt l).faultMark ∧ x.noiseMark = (s.lineAt l).noiseMark) : Quiet s (s.putLine l x) := by
  cases l
  · exact Quiet.bmu s rfl hx ⟨rfl, rfl⟩
  · exact Quiet.bmu s rfl ⟨rfl, rfl⟩ hx

/-- A station entry with the binding and the mark it had; a bound one keeps its kind. -/
theorem Quiet.putStation (s : State) (n : Nat) {x : Station} (hctx : x.ctx = (s.stationAt n).ctx)
    (hkind : x.kind = (s.stationAt n).kind ∨ (s.stationAt n).ctx = none)
    (hmark : x.faultMark = (s.stationAt n).faultMark) : Quiet s (s.putStation n x) := by
  have h : ∀ m, (s.putStation n x).stationAt m = s.stationAt m ∨ m = n ∧ (s.putStation n x).stationAt m = x := fun m => by
    rw [State.stationAt_putStation]
    split
    · next h => exact .inr ⟨h.1, rfl⟩
    · exact .inl rfl
  refine ⟨rfl, rfl, rfl, rfl, rfl, rfl, rfl, rfl, rfl, rfl, fun m => ?_, fun m => ?_, fun m => ?_, fun l => ?_, fun l => ?_⟩
  · rcases h m with h | ⟨rfl, h⟩ <;> rw [h]
    exact hctx
  · rcases h m with h | ⟨rfl, h⟩ <;> rw [h]
    · exact .inl rfl
    · exact hkind
  · rcases h m with h | ⟨rfl, h⟩ <;> rw [h]
    exact hmark
  · rw [State.lineAt_putStation]
  · rw [State.lineAt_putStation]

theorem Quiet.parting (s : State) (p : Table Parting) : Quiet s { s with cxp := { s.cxp with parting := p } } :=
  ⟨rfl, rfl, rfl, rfl, rfl, rfl, rfl, rfl, rfl, rfl, fun _ => rfl, fun _ => .inl rfl, fun _ => rfl, fun _ => rfl,
    fun _ => rfl⟩

theorem Quiet.moves {s t : State} (h : Quiet s t) : Moves G s t := .single (.quiet h)

theorem State.putStation_moves (s : State) (n : Nat) {x : Station} (hctx : x.ctx = (s.stationAt n).ctx)
    (hkind : x.kind = (s.stationAt n).kind ∨ (s.stationAt n).ctx = none)
    (hmark : x.faultMark = (s.stationAt n).faultMark) : Moves G s (s.putStation n x) :=
  (Quiet.putStation s n hctx hkind hmark).moves

theorem Moves.refl (s : State) : Moves G s s := Relation.ReflTransGen.refl

theorem State.answer_moves (s : State) (h : Ask) (a : Answer) (after : AfterAnswer) : Moves G s (s.answer h a after) :=
  (Quiet.setExchange s _).moves.trans (Quiet.transmit _ _).moves

/-- A fold of operations that are made of moves. -/
theorem Moves.foldl {β : Type} {f : State → β → State} (h : ∀ t x, Moves G t (f t x)) (l : List β) (s : State) :
    Moves G s (l.foldl f s) := by
  induction l generalizing s with
  | nil => exact Moves.refl s
  | cons x l ih => exact (h s x).trans (ih _)

/-! ## Marks and conditions (R6, R134) -/

theorem State.raise_moves (s : State) (n st : Nat) (c : Cond) : Moves G s (s.raise n st c) :=
  .single (.raising n st [c] id (List.nodup_singleton c) fun r _ => Mild.refl r)

theorem State.raiseLine_moves (s : State) (l : LineId) {c : Cond} (hc : c = .lineFault ∨ c = .lineNoise) :
    Moves G s (s.raiseMark (.line l) c) := by
  refine .single (.raiseMark _ _ ?_)
  rcases hc with rfl | rfl <;> cases l <;> simp [State.setMark, State.marked, State.putLine, State.lineAt]

theorem State.raiseSite_moves (s : State) {c : Cond} (hc : c = .imageSuspect ∨ c = .imageWrite) :
    Moves G s (s.raiseMark .site c) := by
  refine .single (.raiseMark _ _ ?_)
  rcases hc with rfl | rfl <;> simp [State.setMark, State.marked]

theorem State.raiseStation_moves (s : State) {n : Nat} (hn : n < 16) :
    Moves G s (s.raiseMark (.station n) .stationFault) := by
  refine .single (.raiseMark _ _ ?_)
  simp [State.setMark, State.marked, State.stationAt_putStation, hn]

theorem State.raiseIf_moves (s : State) (l : LineId) {c : Cond} (hc : c = .lineFault ∨ c = .lineNoise) (shows : Bool) :
    Moves G s (s.raiseIf l c shows) := by
  unfold State.raiseIf
  split
  · exact State.raiseLine_moves s l hc
  · exact Moves.refl s

/-! ## Turns (R159, R164, R167) -/

theorem State.endScan_moves (s : State) : Moves G s s.endScan := by
  have h0 : Moves G s { s with bmu := { s.bmu with turn := none } } := by
    refine Quiet.moves (Quiet.bmu s ?_ ?_ ?_)
    · rfl
    · exact ⟨rfl, rfl⟩
    · exact ⟨rfl, rfl⟩
  have h1 := h0.trans (Quiet.eachLine _ (f := Line.completeScan) fun _ => ⟨rfl, rfl⟩).moves
  exact (((h1.trans (State.raiseIf_moves _ _ (.inr rfl) _)).trans (State.raiseIf_moves _ _ (.inr rfl) _)).trans
    (State.raiseIf_moves _ _ (.inl rfl) _)).trans (State.raiseIf_moves _ _ (.inl rfl) _)

theorem State.turnFrom_moves (s : State) (n : Nat) : Moves G s (s.turnFrom n) := by
  unfold State.turnFrom
  split
  · exact (Quiet.setTurn s _).moves
  · exact State.endScan_moves s

theorem State.moveTurn_moves (s : State) : Moves G s s.moveTurn := by
  unfold State.moveTurn
  split
  · exact State.turnFrom_moves s _
  · exact Moves.refl s

/-- A context goes on in another run state or with another progress of its kind. -/
theorem State.putCtx_moves {s : State} {c : Nat} {x y : Context} (hy : s.ctxAt c = some y) (h : x.bond = y.bond) :
    Moves G s (s.putCtx c x) := by
  obtain ⟨h1, h2, h3⟩ := Context.bond_eq h
  exact .single (.putCtx c x y hy h1 h2 h3)

theorem Progress.waits_kind (p : Progress) : p.waits.kind = p.kind := by cases p <;> rfl

theorem Context.suspended_bond (x : Context) : x.suspended.bond = x.bond := by
  unfold Context.suspended
  split
  · rfl
  · simp [Context.bond, Progress.waits_kind]

theorem State.suspendBound_moves (s : State) (n : Nat) : Moves G s (s.suspendBound n) := by
  unfold State.suspendBound
  split
  · exact Moves.refl s
  · split
    · next hx => exact State.putCtx_moves hx (Context.suspended_bond _)
    · exact Moves.refl s

theorem State.callFailed_moves (s : State) (n : Nat) (e : FrameError) : Moves G s (s.callFailed n e) := by
  unfold State.callFailed
  dsimp only
  split
  · refine Relation.ReflTransGen.trans ?_ (State.suspendBound_moves _ n)
    refine State.putStation_moves s n ?_ (.inl ?_) ?_ <;> rfl
  · refine State.putStation_moves s n ?_ (.inl ?_) ?_ <;> rfl

theorem State.attemptFailed_moves (s : State) (t : Turn) (e : FrameError) : Moves G s (s.attemptFailed t e) := by
  unfold State.attemptFailed
  split
  · exact Moves.refl s
  · exact (State.callFailed_moves s _ e).trans (State.moveTurn_moves _)

theorem State.windowFailed_moves (s : State) (e : FrameError) : Moves G s (s.windowFailed e) := by
  have h0 : Moves G s (s.setExchange .idle) := (Quiet.setExchange s _).moves
  unfold State.windowFailed
  split
  · exact h0.trans (State.attemptFailed_moves _ _ e)
  · exact h0.trans (State.moveTurn_moves _)
  · exact h0
  · exact h0
  · exact Moves.refl s

theorem State.missAsk_moves (s : State) (h : Ask) : Moves G s (s.missAsk h) := by
  unfold State.missAsk
  split
  · split
    · exact State.windowFailed_moves s _
    · exact Moves.refl s
  · split
    · exact State.windowFailed_moves s _
    · exact Moves.refl s
  · exact Moves.refl s
  · exact Moves.refl s

/-! ## Release (R53, R54) -/

theorem heldFields_released (prog : Progress) (reason : HeldReason) (ending : Option (EndReason × Nat)) (r : Record) :
    Released r (heldFields prog reason ending r) := by
  have h : looseState RecState.held := ⟨rfl, nofun, nofun, nofun⟩
  cases prog <;>
    exact Released.of_fixed rfl (.inl h)

theorem State.releaseHeld_moves {s : State} {c : Nat} {x : Context} (hx : G → s.ctxAt c = some x) (reason : HeldReason)
    (stamp : Nat) {cs : List Cond} (hcs : cs.Nodup) (ending : Option (EndReason × Nat)) :
    Moves G s (s.releaseHeld c x reason stamp cs ending) :=
  .single (.release c x _ stamp cs _ hx hcs fun r _ => heldFields_released x.prog reason ending r)

/-- A release that updates the record and raises nothing. -/
theorem State.releaseInto_moves {s : State} {c : Nat} {x : Context} (hx : s.ctxAt c = some x) (p : Parting) (st : Nat)
    {f : Record → Record} (hf : ∀ q, Released q (f q)) : Moves G s ((s.freeCtx c x p).update x.slot st f) :=
  State.updateRaising_nil (s.freeCtx c x p) x.slot st f ▸
    .single (.release c x p st [] f (fun _ => hx) List.nodup_nil fun q _ => hf q)

/-! ## Insertion and grouting (chapter 4) -/

@[simp] theorem State.ctxAt_raise (s : State) (n st : Nat) (c : Cond) (d : Nat) : (s.raise n st c).ctxAt d = s.ctxAt d := by
  simp [State.ctxAt, State.raise]

/-- A condition that a reply raises on the record or not. -/
theorem State.raiseWhen_moves (s : State) (b : Bool) (n st : Nat) (c : Cond) :
    Moves G s (if b then s.raise n st c else s) := by
  split
  · exact State.raise_moves s n st c
  · exact Moves.refl s

theorem State.ctxAt_raiseWhen (s : State) (b : Bool) (n st : Nat) (c : Cond) (d : Nat) :
    (if b then s.raise n st c else s).ctxAt d = s.ctxAt d := by split <;> simp

theorem State.winchReply_moves {s : State} {c : Nat} {x : Context} (hx : s.ctxAt c = some x) {p : InsertProg}
    (hp : x.prog = .insert p) (count tension : Nat) : Moves G s (s.winchReply c x p count tension) := by
  unfold State.winchReply
  split
  · exact Moves.refl s
  · next cls _ =>
    have h1 : Moves G s (s.putCtx c { x with prog := .insert (p.read cls count tension) }) :=
      State.putCtx_moves hx (by simp [Context.bond, hp]; rfl)
    have h2 := h1.trans (State.raiseWhen_moves _ (isSetback (counterDelta count p.baseline)) x.slot x.station .countSetback)
    dsimp only
    split
    · exact h2.trans (State.raise_moves _ _ _ _)
    · exact h2

theorem State.toCuring_moves {s : State} {c : Nat} {x : Context} (hx : s.ctxAt c = some x) (p : GroutProg)
    (cls : ClassEntry) (reason : EndReason) : Moves G s (s.toCuring c x p cls reason) :=
  State.releaseInto_moves hx _ _ fun _ => Released.of_fixed rfl (.inl ⟨rfl, nofun, nofun, nofun⟩)

theorem State.pumpReply_moves {s : State} {c : Nat} {x : Context} (hx : s.ctxAt c = some x) {p : GroutProg}
    (hp : x.prog = .grout p) (count reported : Nat) : Moves G s (s.pumpReply c x p count reported) := by
  unfold State.pumpReply
  split
  · exact Moves.refl s
  · next cls _ =>
    have h1 : Moves G s (s.putCtx c { x with prog := .grout (p.read cls count (takePressure reported)) }) :=
      State.putCtx_moves hx (by simp [Context.bond, hp]; rfl)
    have h2 := h1.trans (State.raiseWhen_moves _ (isSetback (counterDelta count p.baseline)) x.slot x.station .countSetback)
    have hc := (State.ctxAt_raiseWhen (s.putCtx c { x with prog := .grout (p.read cls count (takePressure reported)) })
      (isSetback (counterDelta count p.baseline)) x.slot x.station .countSetback c).trans (State.ctxAt_putCtx_same ..)
    dsimp only
    split
    · exact h2.trans (State.releaseHeld_moves (fun _ => hc) _ _ (List.nodup_singleton _) _)
    split
    · exact h2.trans (State.releaseHeld_moves (fun _ => hc) _ _ (List.nodup_singleton _) _)
    split
    · exact h2.trans (State.toCuring_moves hc _ _ _)
    · exact h2

theorem State.winchEnd_moves {s : State} {c : Nat} {x : Context} (hx : s.ctxAt c = some x) (p : InsertProg) :
    Moves G s (s.winchEnd c x p) := by
  unfold State.winchEnd
  split
  · exact Moves.refl s
  split
  · exact Moves.refl s
  split
  · exact State.releaseInto_moves hx _ _ fun _ => Released.of_fixed rfl (.inl ⟨rfl, nofun, nofun, nofun⟩)
  · exact State.releaseHeld_moves (fun _ => hx) _ _ (List.nodup_singleton _) _

theorem State.groutEnd_moves {s : State} {c : Nat} {x : Context} (hx : s.ctxAt c = some x) (p : GroutProg) :
    Moves G s (s.groutEnd c x p) := by
  unfold State.groutEnd
  split
  · exact Moves.refl s
  split
  · exact State.toCuring_moves hx _ _ _
  · exact State.releaseHeld_moves (fun _ => hx) _ _ (List.nodup_singleton _) _

theorem State.expireCure_moves (s : State) (n : Nat) : Moves G s (s.expireCure n) := by
  unfold State.expireCure
  split
  · exact Moves.refl s
  · next r hr =>
    split
    · next h =>
      refine .single (.update n _ fun q hq => ?_)
      rw [hr] at hq; cases hq
      have hold : looseState r.state := by rw [h.1]; exact ⟨rfl, nofun, nofun, nofun⟩
      exact Mild.of_fixed rfl (.inr ⟨hold, rfl, nofun, nofun, nofun⟩)
    · exact Moves.refl s

theorem State.expireCures_moves (s : State) : Moves G s s.expireCures :=
  Moves.foldl (fun t n => State.expireCure_moves t n) s.usedSlots s

/-! ## Stressing (chapter 6) -/

/-- A context that is released into LOCKED, the map switching to a replacement of the live record (R10, R119). -/
theorem State.releaseLocked_moves {s : State} {c : Nat} {x : Context} (hx : s.ctxAt c = some x) (p : Parting) (st : Nat)
    {f : Record → Record} (hf : ∀ q, Released q { f q with state := .locked }) :
    Moves G s ((s.freeCtx c x p).lockRecord x.slot st f) := by
  have hupdate : Moves G s ((s.freeCtx c x p).update x.slot st (fun q => { f q with state := .locked })) :=
    State.releaseInto_moves hx p st hf
  unfold State.lockRecord
  split
  · next hn => rw [State.update_none hn] at hupdate; exact hupdate
  · next r hr =>
    obtain ⟨stamp, hq⟩ := State.recAt_update hr st (fun q => { f q with state := .locked })
    dsimp only
    split
    · exact hupdate
    · split
      · refine hupdate.tail (.setMap _ x.slot _ hq ?_ nofun (.inl rfl))
        rw [(hf r).row, (hf r).bay]
      · exact hupdate

/-- What ends a jack context, or the progress it goes on with (R119, R120, R126). -/
theorem State.finishJack_moves {s : State} {c : Nat} {x : Context} (hx : s.ctxAt c = some x) (env : JackEnv)
    {mk : JackProg → Progress} (hmk : ∀ p, (mk p).kind = x.prog.kind) (out : JackProg × JackEnd) : Moves G s (s.finishJack c x env mk out) := by
  unfold State.finishJack
  split
  · exact State.putCtx_moves hx (by simp [Context.bond, hmk])
  · next v _ =>
    refine .single (.release c x _ x.station (verdictCond v) _ (fun _ => hx) (by cases v <;> simp [verdictCond]) fun r _ => ?_)
    exact Released.of_fixed rfl (.inl ⟨rfl, nofun, nofun, nofun⟩)
  · exact State.releaseLocked_moves hx _ _ fun _ => Released.of_fixed rfl (.inr rfl)
  · exact .single (.releaseRetire c x _ _ hx)

theorem loadEnding_nodup {env : JackEnv} {t : JackReading} {reason : HeldReason} {cs : List Cond}
    (h : loadEnding env t = some (reason, cs)) : cs.Nodup := by
  unfold loadEnding at h
  split at h
  · cases h; split <;> decide
  · split at h
    · cases h; decide
    · cases h

end Sys2Proof.Machine
end

section
/-! The replies, the events of the works bus, of time and of the pins, and the image writer, each made of moves. -/

namespace Sys2Proof.Machine

variable {G : Prop}

/-! ## Replies of bound jacks (R109, R124) -/

@[simp] theorem State.ctxAt_update (s : State) (n st : Nat) (f : Record → Record) (c : Nat) :
    (s.update n st f).ctxAt c = s.ctxAt c := by simp [State.ctxAt]

theorem State.stressReply_moves {s : State} {c : Nat} {x : Context} (hx : s.ctxAt c = some x)
    (hk : x.prog.kind = .stress) (p : JackProg) (fault : Bool) (env : JackEnv) (t : JackReading) :
    Moves G s (s.stressReply c x p fault env t) := by
  unfold State.stressReply
  split
  · next h => exact State.releaseHeld_moves (fun _ => hx) _ _ (loadEnding_nodup h) _
  · exact State.finishJack_moves hx env (mk := .stress) (fun _ => hk.symm) _

theorem State.writeLiftoff_moves (s : State) (x : Context) (p : JackProg) (t : JackReading) :
    Moves G s (s.writeLiftoff x p t) := by
  unfold State.writeLiftoff
  split
  · exact .single (.update _ _ fun r _ => Mild.of_fixed rfl (.inl ⟨rfl, rfl⟩))
  · exact Moves.refl s

theorem State.ctxAt_writeLiftoff (s : State) (x : Context) (p : JackProg) (t : JackReading) (c : Nat) :
    (s.writeLiftoff x p t).ctxAt c = s.ctxAt c := by
  unfold State.writeLiftoff
  split
  · exact State.ctxAt_update ..
  · rfl

theorem State.destressReply_moves {s : State} {c : Nat} {x : Context} (hx : s.ctxAt c = some x)
    (hk : x.prog.kind = .destress) (p : JackProg) (fault : Bool) (env : JackEnv) (t : JackReading) :
    Moves G s (s.destressReply c x p fault env t) := by
  unfold State.destressReply
  split
  · next h => exact State.releaseHeld_moves (fun _ => hx) _ _ (loadEnding_nodup h) _
  split
  · exact State.releaseHeld_moves (fun _ => hx) _ _ (List.nodup_singleton _) _
  · exact (State.writeLiftoff_moves s x p t).trans
      (State.finishJack_moves ((State.ctxAt_writeLiftoff s x p t c).trans hx) env (mk := .destress) (fun _ => hk.symm) _)

theorem State.expireTimer_moves {s : State} {c : Nat} {x : Context} (hx : s.ctxAt c = some x) :
    Moves G s (s.expireTimer c x) := by
  unfold State.expireTimer
  split
  · exact Moves.refl s
  split
  · next hp => exact State.finishJack_moves hx _ (fun _ => by rw [hp]; rfl) _
  · next hp => exact State.finishJack_moves hx _ (fun _ => by rw [hp]; rfl) _
  · exact Moves.refl s

/-! ## Successful replies (R57, R60, R131, R166) -/

theorem State.useReply_moves {s : State} {c : Nat} {x : Context} (hx : s.ctxAt c = some x) (r : Reply) :
    Moves G s (s.useReply c x r) := by
  unfold State.useReply
  split
  · next hp _ => exact State.winchReply_moves hx hp _ _
  · next hp _ => exact State.pumpReply_moves hx hp _ _
  · next hp _ =>
    split
    · exact State.stressReply_moves hx (by rw [hp]; rfl) _ _ _ _
    · exact Moves.refl s
  · next hp _ =>
    split
    · exact State.destressReply_moves hx (by rw [hp]; rfl) _ _ _ _
    · exact Moves.refl s
  · exact Moves.refl s

theorem Context.afterReply_bond (x : Context) (busy siteStopped : Bool) : (x.afterReply busy siteStopped).bond = x.bond := by
  unfold Context.afterReply
  split
  · exact Context.suspended_bond x
  · unfold Context.answered
    split <;> rfl

theorem State.handToContext_moves {s : State} {c : Nat} {x : Context} (hx : s.ctxAt c = some x) (r : Reply) :
    Moves G s (s.handToContext c x r) := by
  have h1 : Moves G s (s.putCtx c (x.afterReply r.busy s.ifu.stop.isSome)) :=
    State.putCtx_moves hx (Context.afterReply_bond _ _ _)
  unfold State.handToContext
  dsimp only
  split
  · exact h1
  · exact h1.trans (State.useReply_moves (State.ctxAt_putCtx_same ..) r)

theorem State.testParting_moves (s : State) (n : Nat) (d : Telemetry) : Moves G s (s.testParting n d) := by
  unfold State.testParting
  split
  · split
    · split
      · exact (Quiet.parting s _).moves
      · exact Moves.refl s
    · exact Moves.refl s
  · exact Moves.refl s

/-- A reading leaves the record as it stood but for the monitored load, and raises at most the drift (R131, R132). -/
theorem State.reading_moves (s : State) (n station reported : Nat) : Moves G s (s.reading n station reported) := by
  unfold State.reading
  split
  · exact Moves.refl s
  · refine .single (.raising n station _ _ ?_ fun r _ => Mild.of_fixed rfl (.inl ⟨rfl, rfl⟩))
    split <;> simp

theorem State.takeChannels_moves (s : State) (station c : Nat) (chs : List (Nat × Bool)) :
    Moves G s (s.takeChannels station c chs) := by
  induction chs generalizing s c with
  | nil => exact Moves.refl s
  | cons ch rest ih =>
    obtain ⟨load, valid⟩ := ch
    unfold State.takeChannels
    refine Relation.ReflTransGen.trans ?_ (ih _ _)
    split
    · exact State.reading_moves s _ _ _
    · exact Moves.refl s

theorem State.handOn_moves (s : State) (n : Nat) (r : Reply) : Moves G s (s.handOn n r) := by
  unfold State.handOn
  split
  · split
    · next hx => exact State.handToContext_moves hx r
    · exact Moves.refl s
  · split
    · exact State.takeChannels_moves s _ _ _
    · exact State.testParting_moves s _ _

theorem State.raiseFault_moves (s : State) {n : Nat} {subj : Subject}
    (hsubj : (∃ m, subj = .record m) ∨ subj = .station n ∧ n < 16) : Moves G s (s.raiseFault n subj) := by
  rcases hsubj with ⟨m, rfl⟩ | ⟨rfl, hn⟩
  · exact State.raise_moves s m n _
  · exact State.raiseStation_moves s hn

theorem State.takeReply_moves (s : State) {n : Nat} (hn : n < 16) (l : LineId) (r : Reply) :
    Moves G s (s.takeReply n l r) := by
  have h1 : Moves G s (s.putStation n ((s.stationAt n).heard l r.data)) := by
    refine State.putStation_moves s n ?_ (.inl ?_) ?_ <;> rfl
  unfold State.takeReply
  dsimp only
  split
  · refine (h1.trans (State.handOn_moves _ n r)).trans (State.raiseFault_moves _ ?_)
    unfold State.faultSubject
    split
    · exact .inl ⟨_, rfl⟩
    · exact .inr ⟨rfl, hn⟩
  · exact h1.trans (State.handOn_moves _ n r)

/-- A reply with nothing wrong with it comes from an enrolled station (R160). -/
theorem station_lt_of_replyError {s : State} {n : Nat} {d : Telemetry} (h : replyError (s.stationAt n) d = none) : n < 16 := by
  by_contra hge
  unfold replyError at h
  rw [State.stationAt_ge (by omega)] at h
  cases d <;> simp [declaredKind, Station.unenrolled, Station.powered] at h

theorem State.afterReply_moves (s : State) (l : LineId) (srq : Bool) : Moves G s (s.afterReply l srq) := by
  unfold State.afterReply
  split
  · split
    · exact (Quiet.setTurn s _).moves
    · exact State.moveTurn_moves s
  · exact Moves.refl s

theorem State.replyInWindow_moves (s : State) (station : Nat) (l : LineId) (r : Reply) :
    Moves G s (s.replyInWindow station l r) := by
  unfold State.replyInWindow
  split
  · exact State.windowFailed_moves s _
  · next h =>
    have h1 : Moves G s ((s.setExchange .idle).putLine l (s.lineAt l).succeed) := by
      refine (Quiet.setExchange s _).moves.trans (Quiet.putLine _ l ?_).moves
      cases l <;> exact ⟨rfl, rfl⟩
    exact (h1.trans (State.takeReply_moves _ (station_lt_of_replyError h) l r)).trans (State.afterReply_moves _ l r.srq)

theorem State.replyAlone_moves (s : State) (station : Nat) (l : LineId) (r : Reply) :
    Moves G s (s.replyAlone station l r) := by
  unfold State.replyAlone
  split
  · exact Moves.refl s
  · next h =>
    split
    · exact State.takeReply_moves s (station_lt_of_replyError h) l r
    · exact Moves.refl s

/-! ## The events of the works bus (chapter 9) -/

theorem State.beginScan_moves (s : State) : Moves G s s.beginScan := by
  refine Relation.ReflTransGen.trans ?_ (State.turnFrom_moves _ 0)
  refine (Quiet.eachLine s (f := Line.beginScan) fun _ => ⟨rfl, rfl⟩).moves.trans (Quiet.moves ?_)
  refine Quiet.bmu _ ?_ ?_ ?_
  · rfl
  · exact ⟨rfl, rfl⟩
  · exact ⟨rfl, rfl⟩

theorem State.sendCall_moves (s : State) (t : Turn) (l : LineId) : Moves G s (s.sendCall t l) := by
  refine Relation.ReflTransGen.trans (Relation.ReflTransGen.trans (Relation.ReflTransGen.trans ?_ (Quiet.setTurn _ _).moves)
    (Quiet.setExchange _ _).moves) (Quiet.transmit _ _).moves
  refine (Quiet.putLine s l ?_).moves
  exact ⟨rfl, rfl⟩

theorem State.sendFetch_moves (s : State) (t : Turn) (l : LineId) : Moves G s (s.sendFetch t l) :=
  ((Quiet.setTurn _ _).moves.trans (Quiet.setExchange _ _).moves).trans (Quiet.transmit _ _).moves

theorem State.turnAfterAnswer_moves (s : State) (h : Ask) : Moves G s (s.turnAfterAnswer h) := by
  unfold State.turnAfterAnswer
  repeat' split
  · exact (Quiet.setTurn s _).moves
  · exact State.moveTurn_moves s
  · exact Moves.refl s
  · exact Moves.refl s

theorem State.startTest_moves (s : State) (l : LineId) : Moves G s (s.startTest l) := by
  unfold State.startTest
  split
  · refine Relation.ReflTransGen.trans ?_ (Quiet.transmit _ _).moves
    refine (Quiet.putLine s l ?_).moves
    exact ⟨rfl, rfl⟩
  · exact Moves.refl s

theorem State.copyEnded_moves (s : State) (l : LineId) (t : LineTest) : Moves G s (s.copyEnded l t) := by
  unfold State.copyEnded
  split
  all_goals
    refine Relation.ReflTransGen.trans ?_ (Quiet.transmit _ _).moves
    refine (Quiet.putLine s l ?_).moves
    exact ⟨rfl, rfl⟩

/-! ## The cabinet restart (R66, R151, R170) -/

/-- Contexts that stand under their numbers are released one after the other (R66). -/
theorem State.releaseEach_moves (l : List (Nat × Context)) (hkeys : G → l.Pairwise (fun a b => a.1 < b.1)) (s : State)
    (hl : G → ∀ p ∈ l, s.ctxAt p.1 = some p.2) :
    Moves G s (l.foldl (fun t p => t.releaseHeld p.1 p.2 .restart Config.partStation [] none) s) := by
  induction l generalizing s with
  | nil => exact Moves.refl s
  | cons p l ih =>
    refine Relation.ReflTransGen.trans
      (State.releaseHeld_moves (fun g => hl g p List.mem_cons_self) .restart Config.partStation List.nodup_nil none)
      (ih (fun g => (List.pairwise_cons.1 (hkeys g)).2) _ fun g q hq => ?_)
    have hne : q.1 ≠ p.1 := Nat.ne_of_gt ((List.pairwise_cons.1 (hkeys g)).1 q hq)
    rw [State.releaseHeld, State.ctxAt, State.updateRaising_cxp]
    exact (State.ctxAt_freeCtx_ne s p.1 q.1 p.2 _ hne).trans (hl g q (List.mem_cons_of_mem _ hq))

theorem State.releaseAll_moves (s : State) (hwf : G → s.cxp.contexts.wf) : Moves G s s.releaseAll :=
  State.releaseEach_moves s.cxp.contexts hwf s fun g _ hp => Table.get?_of_mem (hwf g) hp

/-- A restart leaves of each station the kind, the binding and the mark. -/
theorem Bmu.restart_stationAt (s : State) (n : Nat) :
    ({ s with bmu := s.bmu.restart } : State).stationAt n = (s.stationAt n).restart := by
  by_cases hn : n < 16
  · simp [State.stationAt, Bmu.restart, hn]
  · have hnone : ∀ v : Vector Station 16, v[n]? = none := fun v => by simp; omega
    simp [State.stationAt, hnone, Station.restart, Station.unenrolled, Station.powered]

theorem Station.restart_kept (x : Station) :
    x.restart.ctx = x.ctx ∧ x.restart.kind = x.kind ∧ x.restart.faultMark = x.faultMark := by
  unfold Station.restart; split <;> exact ⟨rfl, rfl, rfl⟩

theorem Line.restart_marks (x : Line) : x.restart.faultMark = x.faultMark ∧ x.restart.noiseMark = x.noiseMark := by
  unfold Line.restart; split <;> exact ⟨rfl, rfl⟩

/-- What a restart makes of the works bus, with the staged class part discarded, touches no law (R170, R183). -/
theorem Quiet.restart (s : State) : Quiet s { s with bmu := s.bmu.restart, tbc := { s.tbc with staged := none } } := by
  have hst : ∀ n, ({ s with bmu := s.bmu.restart, tbc := { s.tbc with staged := none } } : State).stationAt n =
      (s.stationAt n).restart := Bmu.restart_stationAt s
  refine ⟨rfl, rfl, rfl, rfl, rfl, rfl, rfl, rfl, rfl, rfl, fun n => ?_, fun n => .inl ?_, fun n => ?_, fun l => ?_,
    fun l => ?_⟩
  · rw [hst, (Station.restart_kept _).1]
  · rw [hst, (Station.restart_kept _).2.1]
  · rw [hst, (Station.restart_kept _).2.2]
  · cases l <;> exact (Line.restart_marks _).1
  · cases l <;> exact (Line.restart_marks _).2

theorem State.restartCore_moves (s : State) (hwf : G → s.cxp.contexts.wf) : Moves G s s.restartCore :=
  (State.releaseAll_moves s hwf).trans (Quiet.restart _).moves

theorem State.cabinetRestart_moves (s : State) (hwf : G → s.cxp.contexts.wf) : Moves G s s.cabinetRestart :=
  (State.restartCore_moves s hwf).tail .restartInputs

theorem State.answerEnded_moves (s : State) (hwf : G → s.cxp.contexts.wf) (h : Ask) (after : AfterAnswer) :
    Moves G s (s.answerEnded h after) := by
  cases after with
  | nothing | allstop => exact State.turnAfterAnswer_moves s h
  | restart => exact State.cabinetRestart_moves s hwf
  | test l => exact (State.turnAfterAnswer_moves s h).trans (State.startTest_moves _ l)

/-! ## The image writer (R173 to R175) -/

theorem State.takeItem_moves (s : State) : Moves G s s.takeItem := by
  unfold State.takeItem
  split
  · next hq =>
    refine .single (.isi _ (fun h => ?_) id rfl rfl)
    rw [hq] at h
    exact (List.nodup_cons.1 h).2
  · exact Moves.refl s

/-- A condition that stands leaves its record (R139, R174). -/
theorem State.unraise_moves (s : State) (n st : Nat) (c : Cond) : Moves G s (s.unraise n st c) := by
  unfold State.unraise
  split
  · exact Moves.refl s
  · split
    · refine .single (.dropping n st c _ (fun r _ => ?_) fun r _ _ _ => .inl rfl)
      exact { row := rfl, bay := rfl, gen := rfl, replaces := fun _ h => h, replacedBy := fun _ h => h, retests := id,
              conds := rfl, binding := rfl, state := .inl ⟨rfl, rfl⟩ }
    · exact Moves.refl s

theorem State.unmarkWrite_moves (s : State) (subj : Subject) : Moves G s (s.unmarkWrite subj) := by
  unfold State.unmarkWrite
  split
  · exact State.unraise_moves s _ _ _
  · exact .single (.clearMark _ _)

theorem State.itemWritten_moves (s : State) (item : Item) : Moves G s (s.itemWritten item) := by
  refine Relation.ReflTransGen.trans ?_ (Moves.foldl (fun t subj => State.unmarkWrite_moves t subj) _ _)
  exact .single (.isi _ id id rfl rfl)

/-- A block in the image memory leaves the queue and the marks, and the canonical form (R172). -/
theorem State.store_moves (s : State) (block : Nat) (bytes : List Byte) :
    Moves G s { s with isi := s.isi.store block bytes } :=
  .single (.isi _ id (fun h => Isi.wf_store h block bytes) rfl rfl)

theorem State.ackBlock_moves (s : State) (item : Item) (block : Nat) (bytes : List Byte) (rest : List (List Byte)) :
    Moves G s (s.ackBlock item block bytes rest) := by
  have h1 := State.store_moves (G := G) s block bytes
  unfold State.ackBlock
  dsimp only
  split
  · exact h1.trans (State.itemWritten_moves _ item)
  · exact h1.tail (.isi _ id id rfl rfl)

theorem Isi.leave_kept (i : Isi) (block : Nat) (bytes : List Byte) (left : Remnant) :
    (i.leave block bytes left).queue = i.queue ∧ (i.leave block bytes left).suspectMark = i.suspectMark ∧
      (i.leave block bytes left).writeMark = i.writeMark := by
  cases left <;> exact ⟨rfl, rfl, rfl⟩

theorem Isi.note_kept (i : Isi) (item : Item) (subj : Subject) : (i.note item subj).queue = i.queue ∧
    (i.note item subj).image = i.image ∧ (i.note item subj).suspectMark = i.suspectMark ∧
      (i.note item subj).writeMark = i.writeMark := by
  unfold Isi.note; split <;> exact ⟨rfl, rfl, rfl, rfl⟩

theorem State.markWrite_moves (s : State) {subj : Subject} (hsubj : (∃ m, subj = .record m) ∨ subj = .site) :
    Moves G s (s.markWrite subj) := by
  rcases hsubj with ⟨m, rfl⟩ | rfl
  · exact State.raise_moves s m _ _
  · exact State.raiseSite_moves s (.inr rfl)

theorem State.writeSubject_cases (s : State) (item : Item) :
    (∃ m, s.writeSubject item = .record m) ∨ s.writeSubject item = .site := by
  unfold State.writeSubject
  split
  · exact .inr rfl
  · split
    · exact .inl ⟨_, rfl⟩
    · exact .inr rfl

theorem State.failBlock_moves (s : State) (item : Item) (block : Nat) (bytes : List Byte) (left : Remnant) :
    Moves G s (s.failBlock item block bytes left) := by
  refine Relation.ReflTransGen.trans ?_ (State.markWrite_moves _ (State.writeSubject_cases s item))
  obtain ⟨l1, l3, l4⟩ := Isi.leave_kept s.isi block bytes left
  obtain ⟨n1, n2, n3, n4⟩ := Isi.note_kept (s.isi.leave block bytes left) item (s.writeSubject item)
  refine .single (.isi _ (fun h => ?_) (fun h => ?_) (n3.trans l3) (n4.trans l4))
  · show (item :: (((s.isi.leave block bytes left).note item (s.writeSubject item)).queue.erase item)).Nodup
    rw [n1, l1]
    exact List.nodup_cons.2 ⟨h.not_mem_erase, h.erase _⟩
  · show (((s.isi.leave block bytes left).note item (s.writeSubject item)).image).wf
    rw [n2]
    exact Isi.wf_leave h block bytes left

/-! ## The events of time and of the inputs (chapters 3, 4, 6 and 8) -/

/-- Works time never falls and keeps its width (R63). -/
theorem Wck.next_bounds (w : Wck) (h : w.time ≤ Config.max32) : w.time ≤ w.next ∧ w.next ≤ Config.max32 := by
  unfold Wck.next
  cases w.clock
  · exact ⟨Nat.le_min.2 ⟨h, Nat.le_add_right _ _⟩, Nat.min_le_left _ _⟩
  · exact ⟨Nat.le_refl _, h⟩

theorem Context.advance_bond (x : Context) (d : Nat) (lim : Option Nat) : (x.advance d lim).bond = x.bond := by
  obtain ⟨slot, station, run, suspend, limitDue, prog⟩ := x
  cases prog with
  | grout p => simp only [Context.advance]; split <;> rfl
  | insert p | stress p | destress p => rfl

theorem Context.second_bond (x : Context) (d : Nat) (lim : Option Nat) (siteStopped : Bool) (limit : Nat) :
    (x.second d lim siteStopped limit).bond = x.bond := by
  unfold Context.second Context.addSuspend
  split
  · exact Context.advance_bond x d lim
  · exact Context.advance_bond x d lim

theorem State.completeRefusal_moves {s : State} {c : Nat} {x : Context} (hx : s.ctxAt c = some x) :
    Moves G s (s.completeRefusal c x) := by
  unfold State.completeRefusal
  repeat' split
  · exact State.toCuring_moves hx _ _ _
  all_goals exact Moves.refl s

theorem State.tick_moves (s : State) : Moves G s s.tick := by
  unfold State.tick
  cases hk : s.ifu.key with
  | idle =>
    have e : s.setKey (KeyState.tick .idle) = s := by
      show { s with ifu := { s.ifu with key := .idle } } = s
      rw [← hk]
    rw [e]
  | timing ms => exact .single (.key _ nofun (by rw [hk]; nofun))
  | spent => exact .single (.key _ nofun (by rw [hk]; nofun))

/-- A pin that changes where the change is not accepted at once (R144). -/
theorem State.setPin_moves (s : State) (input : Fin 4) (level : Contact) :
    Moves G s { s with ifu := { s.ifu with inputs := s.ifu.inputs.set input ((s.ifu.inputs[input]).atLevel level) } } := by
  refine .single (.pins _ fun i => ?_)
  simp only [Fin.getElem_fin, Vector.getElem_set]
  split
  · next e => simp [Input.atLevel, e]
  · rfl

end Sys2Proof.Machine
end

section
/-! What every command but those of power and of the restore does: moves. -/

namespace Sys2Proof.Machine

variable {G : Prop}

/-! ## Requests in general (R7, R168, R169) -/

/-- A taken request makes the moves of its ruling; a missed one fails the open window at most. -/
theorem State.take_moves {s t : State} {h : Ask} {code : Nat} {v : Ruling} (ht : s.take h code v = .next t)
    (hv : s.sys.phase = .up → Moves G s v.st) : Moves G s t := by
  cases hk : s.takesAsk h with
  | true =>
    rw [State.take_taken hk] at ht
    cases ht
    have hup : s.busUp = true := (of_decide_eq_true hk).1
    exact (hv (of_decide_eq_true hup).1).trans (State.answer_moves _ _ _ _)
  | false =>
    rw [State.take_missed hk] at ht
    cases ht
    exact State.missAsk_moves s h

/-- A ruling that refuses: it leaves the state and answers something other than DONE (R7). -/
def Refuses (s : State) (v : Ruling) : Prop := ∃ res body, v = refuseWith s res body ∧ res ≠ .done

theorem Refuses.moves {s : State} {v : Ruling} (h : Refuses s v) : Moves G s v.st := by
  obtain ⟨res, body, rfl, -⟩ := h
  exact Moves.refl s

theorem refuse_moves (s : State) (r : Result) : Moves G s (refuse s r).st := Moves.refl s

theorem refuseWith_moves (s : State) (r : Result) (body : List Field) : Moves G s (refuseWith s r body).st := Moves.refl s

/-- Nothing that is screened out makes a move (R7). -/
theorem State.screen_moves {s : State} {h : Ask} {q : Req} {inRange : Bool} {v : Ruling}
    (hv : inRange = true → Moves G s v.st) : Moves G s (s.screen h q inRange v).st := by
  unfold State.screen
  split
  · exact Moves.refl s
  · split
    · exact Moves.refl s
    · next hr => exact hv (by simpa using hr)

theorem State.named_moves {s : State} {n : Nat} {rev? : Option Nat} {own : Record → Ruling}
    (hown : ∀ r, s.recAt n = some r → Moves G s (own r).st) : Moves G s (s.named n rev? own).st := by
  unfold State.named
  split
  · exact Moves.refl s
  · next hr =>
    split
    · exact hown _ hr
    · exact Moves.refl s

theorem State.request_moves {s t : State} {h : Ask} {q : Req} {inRange : Bool} {own : Ruling}
    (ht : s.request h q inRange own = .next t)
    (hown : inRange = true → s.sys.phase = .up → Moves G s own.st) : Moves G s t :=
  State.take_moves ht fun hup => State.screen_moves fun hr => hown hr hup

theorem State.requestOn_moves {s t : State} {h : Ask} {q : Req} {inRange : Bool} {n : Nat} {rev? : Option Nat}
    {own : Record → Ruling} (ht : s.requestOn h q inRange n rev? own = .next t)
    (hown : ∀ r, s.recAt n = some r → inRange = true → s.sys.phase = .up → Moves G s (own r).st) : Moves G s t :=
  State.take_moves ht fun hup => State.screen_moves fun hr => State.named_moves fun r hrec => hown r hrec hr hup

/-! ## Requests on records (chapter 1) -/

theorem State.lowestFree_spec {s : State} {n : Nat} (h : s.lowestFree = some n) : n < 512 ∧ s.recAt n = none := by
  unfold State.lowestFree at h
  exact ⟨by simpa [Config.slotCount] using List.mem_of_find?_eq_some h, by simpa using List.find?_some h⟩

theorem State.isRelied_congr {s t : State} (h : t.tbc.site = s.tbc.site) (row : Nat) : t.isRelied row = s.isRelied row := by
  unfold State.isRelied State.isRelieved
  rw [h]

theorem State.createOwn_moves (s : State) {row bay : Nat} (cls : Nat) (freeOv bondOv : Option Nat)
    (hrow : 1 ≤ row ∧ row ≤ 12) (hbay : 1 ≤ bay ∧ bay ≤ 400) :
    Moves G s (s.createOwn row bay cls freeOv bondOv).st := by
  unfold State.createOwn
  split
  · exact Moves.refl s
  split
  · exact Moves.refl s
  split
  · exact Moves.refl s
  split
  · exact Moves.refl s
  next hrel hgen _ n hn =>
  obtain ⟨hlt, hfree⟩ := State.lowestFree_spec hn
  have hplaced := State.recAt_place s n n
    (newRecord row bay (s.nextGen row bay) cls freeOv bondOv none { time := s.wck.time, station := 0 })
  rw [if_pos rfl] at hplaced
  refine .tail (.single (.place n _ hlt hfree hrow hbay ?_ (Nat.le_refl _) rfl ⟨rfl, rfl, rfl, rfl, rfl⟩))
    (.setMap _ n _ hplaced rfl nofun (.inr ?_))
  · exact Nat.le_of_not_lt hgen
  · exact (State.isRelied_congr (s := s) (by simp [State.place]) row).trans (by simpa using hrel)

theorem State.replaceOwn_moves {s : State} {slot : Nat} (sender : Nat) (cls : Option Nat) {r : Record}
    (hr : s.recAt slot = some r) : Moves G s (s.replaceOwn slot sender cls r).st := by
  unfold State.replaceOwn
  split
  · exact Moves.refl s
  split
  · exact Moves.refl s
  split
  · exact Moves.refl s
  split
  · exact Moves.refl s
  next hgen _ n hn =>
  obtain ⟨hlt, hfree⟩ := State.lowestFree_spec hn
  exact .single (.replace slot sender n r _ hr hlt hfree ⟨rfl, rfl⟩ (Nat.le_of_not_lt hgen) (Nat.le_refl _) rfl
    ⟨rfl, rfl, rfl, rfl, rfl⟩)

/-- A state a CERTIFY may give, other than RETIRED, is LOCKED or loose (R24). -/
theorem certifyTarget_cases {n : Nat} {t : RecState} (h : certifyTarget n = some t) :
    t = .retired ∨ looseState t ∨ t = .locked := by
  unfold certifyTarget at h
  split at h <;> cases h <;> simp [looseState, RecState.isWork, RecState.workKind]

theorem State.certify_moves {s : State} {slot target : Nat} {t : RecState} {r : Record} (hr : s.recAt slot = some r)
    (ht : certifyTarget target = some t) (hst : r.state = .suspect)
    (hrelied : ¬ (s.isLive slot r = true ∧ s.isRelied r.row = true ∧ t ≠ .locked)) (sender cls : Nat)
    (freeOv bondOv cureEnd lockoff reason : Option Nat) :
    Moves G s (s.certify slot sender t cls freeOv bondOv cureEnd lockoff reason) := by
  have hcarries : Carries r (certifyFields t cls freeOv bondOv cureEnd lockoff r) :=
    ⟨rfl, rfl, rfl, fun _ h => h, fun _ h => h, id⟩
  unfold State.certify
  dsimp only
  split
  · next e =>
    refine .single (.retire slot sender _ _ r hr (by rw [hst]; rfl) (fun hl => ?_) hcarries)
    by_contra hn
    exact hrelied ⟨hl, by simpa using hn, by rw [e]; nofun⟩
  · next e =>
    have hloose := (certifyTarget_cases ht).resolve_left e
    refine .single (.dropping slot sender .imageSuspect _ (fun q hq => ?_) fun q hq hl hrel => .inr ?_)
    · rw [hr] at hq; cases hq
      exact { hcarries with conds := rfl, binding := rfl, state := .inr ⟨hst, hloose⟩ }
    · rw [hr] at hq; cases hq
      by_contra hne
      exact hrelied ⟨hl, hrel, hne⟩

theorem retire_moves {s : State} {slot : Nat} {r : Record} (hr : s.recAt slot = some r) (hw : r.state.isWork = false)
    (hrelied : ¬ (s.isLive slot r = true ∧ s.isRelied r.row = true)) (st : Nat) (reason : RetireReason) :
    Moves G s (s.retireRecord slot st reason id) := by
  refine .single (.retire slot st reason id r hr hw (fun hl => ?_) (Carries.refl r))
  by_contra hn
  exact hrelied ⟨hl, by simpa using hn⟩

/-! ## Requests on work contexts (chapter 3) -/

theorem State.readyRefusal_refuses {s : State} {k : CtxKind} {station : Nat} {r : Record} {resumed : Bool} {v : Ruling}
    (h : s.readyRefusal k station r resumed = some v) : Refuses s v := by
  unfold State.readyRefusal at h
  repeat' split at h
  all_goals cases h
  all_goals exact ⟨_, _, rfl, nofun⟩

theorem State.capacityRefusal_refuses {s : State} {k : CtxKind} {station : Nat} {r : Record} {v : Ruling}
    (h : s.capacityRefusal k station r = some v) : Refuses s v := by
  unfold State.capacityRefusal at h
  repeat' split at h
  all_goals cases h
  all_goals exact ⟨_, _, rfl, nofun⟩

theorem State.nearRefusal_refuses {s : State} {k : CtxKind} {r : Record} {v : Ruling} (h : s.nearRefusal k r = some v) :
    Refuses s v := by
  unfold State.nearRefusal at h
  repeat' split at h
  all_goals cases h
  all_goals exact ⟨_, _, rfl, nofun⟩

/-- A binding request is refused, or every check has passed and it binds the lowest free context (R50). -/
theorem State.bindOwn_cases (s : State) (k : CtxKind) (n station sender : Nat) (r : Record) (resumed : Bool) :
    Refuses s (s.bindOwn k n station sender r resumed) ∨
      ∃ c, s.readyRefusal k station r resumed = none ∧ s.nearRefusal k r = none ∧ s.lowestFreeCtx = some c ∧
        s.bindOwn k n station sender r resumed = done (s.bindCtx c k n station sender r resumed)
          [.u8 c, .u16 ((s.bindCtx c k n station sender r resumed).revAt n)] := by
  unfold State.bindOwn
  cases h1 : s.readyRefusal k station r resumed with
  | some v => exact .inl (State.readyRefusal_refuses h1)
  | none =>
    cases h2 : s.capacityRefusal k station r with
    | some v => exact .inl (State.capacityRefusal_refuses h2)
    | none =>
      cases h3 : s.nearRefusal k r with
      | some v => exact .inl (State.nearRefusal_refuses h3)
      | none =>
        cases h4 : s.lowestFreeCtx with
        | none => exact .inl ⟨_, _, rfl, nofun⟩
        | some c => exact .inr ⟨c, rfl, rfl, rfl, rfl⟩

theorem State.bindOwn_moves {s : State} {n : Nat} {r : Record} (hr : s.recAt n = some r) (hup : s.sys.phase = .up)
    (k : CtxKind) (station sender : Nat) (resumed : Bool) : Moves G s (s.bindOwn k n station sender r resumed).st := by
  rcases s.bindOwn_cases k n station sender r resumed with h | ⟨c, hready, hnear, hc, h⟩
  · exact h.moves
  · rw [h]
    exact .single (.bind c k n station sender r resumed hr hup hready hnear hc)

theorem State.beginOwn_moves (s : State) (hup : s.sys.phase = .up) (sender row bay : Nat) :
    Moves G s (s.beginOwn sender row bay).st := by
  unfold State.beginOwn
  split
  · exact Moves.refl s
  split
  · exact Moves.refl s
  next hr =>
  split
  · exact Moves.refl s
  · split
    · exact Moves.refl s
    · exact State.bindOwn_moves hr hup _ _ _ _

theorem State.endCtx_moves {s : State} {c : Nat} {x : Context} (hx : s.ctxAt c = some x) : Moves G s (s.endCtx c x) := by
  unfold State.endCtx
  split
  · exact State.winchEnd_moves hx _
  · exact State.groutEnd_moves hx _
  · exact State.releaseHeld_moves (fun _ => hx) _ _ List.nodup_nil _
  · exact State.releaseHeld_moves (fun _ => hx) _ _ List.nodup_nil _

/-- What is spent of the values the spec leaves open is in no law. -/
theorem Quiet.spendFree (s : State) (p : JackProg) : Quiet s (s.spendFree p) := by
  unfold State.spendFree
  split
  · exact Quiet.refl s
  · exact ⟨rfl, rfl, rfl, rfl, rfl, rfl, rfl, rfl, rfl, rfl, fun _ => rfl, fun _ => .inl rfl, fun _ => rfl, fun _ => rfl,
      fun _ => rfl⟩

theorem State.restrokeOwn_moves {s : State} {c : Nat} {x : Context} (hx : s.ctxAt c = some x) {p : JackProg}
    (hp : x.prog = .stress p) : Moves G s (s.restrokeOwn c x p).st := by
  unfold State.restrokeOwn
  split
  · exact Moves.refl s
  split
  · exact Moves.refl s
  · refine (Quiet.spendFree s p).moves.trans (State.putCtx_moves (y := x) ?_ ?_)
    · rw [State.ctxAt, (Quiet.spendFree s p).contexts]; exact hx
    · simp only [Context.bond, hp]; rfl

/-- The context that names a slot stands under its number (R47). -/
theorem State.ctxNaming_moves {s : State} (hwf : G → s.cxp.contexts.wf) {slot : Nat} {c : Nat} {x : Context}
    (h : s.ctxNaming slot = some (c, x)) (st : Nat) :
    Moves G s (s.releaseHeld c x .aborted st [] none) :=
  State.releaseHeld_moves (fun g => Table.get?_of_mem (hwf g) (List.mem_of_find?_eq_some h)) _ _ List.nodup_nil _

/-- A held record that a CLOSE takes out of HELD (R56). -/
theorem closeHeld_moves {s : State} {slot : Nat} {r : Record} (hr : s.recAt slot = some r) {k : CtxKind}
    (hk : heldWith k r = true) (st : Nat) {f : Record → Record} (hf : (f r).fixed = r.fixed) (hst : looseState (f r).state) :
    Moves G s (s.update slot st f) := by
  refine .single (.update slot st fun q hq => ?_)
  rw [hr] at hq; cases hq
  refine Mild.of_fixed hf (.inr ⟨?_, hst⟩)
  rw [(of_decide_eq_true hk).1]
  exact ⟨rfl, nofun, nofun, nofun⟩

/-! ## Requests on classes, site settings, dig release and calibration (chapters 2 and 5) -/

/-- What the TBC holds of classes alone is in no law. -/
theorem Quiet.tbc (s : State) {x : Tbc} (hslots : x.slots = s.tbc.slots) (hmap : x.map = s.tbc.map)
    (hsite : x.site = s.tbc.site) : Quiet s { s with tbc := x } :=
  ⟨hslots, hmap, hsite, rfl, rfl, rfl, rfl, rfl, rfl, rfl, fun _ => rfl, fun _ => .inl rfl, fun _ => rfl, fun _ => rfl,
    fun _ => rfl⟩

theorem Quiet.cals (s : State) (x : Table (List CalPoint)) : Quiet s { s with cals := x } :=
  ⟨rfl, rfl, rfl, rfl, rfl, rfl, rfl, rfl, rfl, rfl, fun _ => rfl, fun _ => .inl rfl, fun _ => rfl, fun _ => rfl,
    fun _ => rfl⟩

theorem State.hand_moves (s : State) (i : Item) : Moves G s (s.hand i) := .single (.hand i)

theorem State.setClass_moves (s : State) (c : Nat) (e : Option ClassEntry) : Moves G s (s.setClass c e) := by
  have h1 : Moves G s (s.stage none) := by
    refine (Quiet.tbc s ?_ ?_ ?_).moves <;> rfl
  unfold State.setClass
  dsimp only
  split
  · exact h1
  · refine (h1.trans ?_).trans (State.hand_moves _ _)
    refine (Quiet.tbc _ ?_ ?_ ?_).moves <;> rfl

theorem State.classOwn_moves (s : State) (c : Nat) (e : Option ClassEntry) : Moves G s (s.classOwn c e).st := by
  unfold State.classOwn
  split
  · exact Moves.refl s
  · exact State.setClass_moves s c e

theorem State.classFormOwn_moves (s : State) (c : Nat) (form : ClassForm) : Moves G s (s.classFormOwn c form).st := by
  cases form with
  | unset => exact State.classOwn_moves s c none
  | part2 f =>
    simp only [State.classFormOwn, State.classPart2]
    repeat' split
    all_goals first | exact Moves.refl s | exact State.classOwn_moves s c _

theorem State.siteOwn_moves (s : State) (x : SiteItems) : Moves G s (s.siteOwn x).st := by
  unfold State.siteOwn
  split
  · exact Moves.refl s
  · next h =>
    split
    · exact Moves.refl s
    · exact .single (.siteApply x (by simpa using h))

theorem State.setCal_moves (s : State) (n : Nat) (t : Option (List CalPoint)) : Moves G s (s.setCal n t) := by
  unfold State.setCal
  split
  · exact Moves.refl s
  · exact (Quiet.cals s _).moves.trans (State.hand_moves _ _)

/-! ## Requests on stations and lines (chapter 9) -/

theorem State.dropBindings_moves (s : State) (station first stamp : Nat) :
    Moves G s (s.dropBindings station first stamp) := by
  refine Moves.foldl (fun t n => ?_) s.usedSlots s
  split
  · next hr =>
    split
    · exact .single (.dropBinding n stamp _ hr)
    · exact Moves.refl t
  · exact Moves.refl t

theorem State.kindChanged_moves (s : State) (n : Nat) (k : StationKind) : Moves G s (s.kindChanged n k) := by
  have h1 : Moves G s (({ s with cals := s.cals.erase n }).resetParting n k) :=
    (Quiet.cals s _).moves.trans (Quiet.parting _ _).moves
  unfold State.kindChanged
  dsimp only
  split
  · exact h1.tail (.clearMark _ _)
  · exact h1

theorem Station.written_kept (x : Station) (kind retry : Option Nat) (inhibits : Option Inhibits) (param : Option Nat) :
    (x.written kind retry inhibits param).ctx = x.ctx ∧
      (x.written kind retry inhibits param).faultMark = x.faultMark := by
  unfold Station.written
  dsimp only
  split <;> exact ⟨rfl, rfl⟩

theorem State.writeStation_moves (s : State) (n sender : Nat) {y : Station} (hctx : y.ctx = (s.stationAt n).ctx)
    (hmark : y.faultMark = (s.stationAt n).faultMark)
    (hkind : y.kind = (s.stationAt n).kind ∨ (s.stationAt n).ctx = none) : Moves G s (s.writeStation n sender y) := by
  have h1 : Moves G s (s.putStation n y) := State.putStation_moves s n hctx hkind hmark
  have h2 : Moves G s (if (s.stationAt n).kind = y.kind then s.putStation n y else (s.putStation n y).kindChanged n y.kind) := by
    split
    · exact h1
    · exact h1.trans (State.kindChanged_moves _ n y.kind)
  have h3 := fun (t : State) (ht : Moves G s t) => show Moves G s (match firstLost (s.stationAt n) y with
      | some c => t.dropBindings n c sender
      | none => t) by
    split
    · exact ht.trans (State.dropBindings_moves t n _ sender)
    · exact ht
  unfold State.writeStation
  dsimp only
  split
  · exact (h3 _ h2).tail (.hand _)
  · exact h3 _ h2

theorem State.stationOwn_moves (s : State) (n sender : Nat) {y : Station} (hctx : y.ctx = (s.stationAt n).ctx)
    (hmark : y.faultMark = (s.stationAt n).faultMark) : Moves G s (s.stationOwn n sender y).st := by
  unfold State.stationOwn
  split
  · exact Moves.refl s
  · next h =>
    split
    · exact Moves.refl s
    · refine State.writeStation_moves s n sender hctx hmark ?_
      by_contra hn
      rw [not_or] at hn
      exact h ⟨fun e => hn.1 e.symm, Option.isSome_iff_ne_none.2 hn.2⟩

theorem State.lineOwn_moves (s : State) (l : LineId) (state timeout gap : Option Nat) :
    Moves G s (s.lineOwn l state timeout gap).st := by
  unfold State.lineOwn
  dsimp only
  split
  · exact Moves.refl s
  split
  · exact Moves.refl s
  · refine (Quiet.putLine s l ?_).moves
    exact ⟨rfl, rfl⟩

theorem State.testOwn_moves (s : State) (l : LineId) (pattern : Vector Byte 16) (count : Nat) :
    Moves G s (s.testOwn l pattern count).st := by
  unfold State.testOwn
  split
  · exact Moves.refl s
  split
  · exact Moves.refl s
  · refine (Quiet.putLine s l ?_).moves
    exact ⟨rfl, rfl⟩

/-! ## Requests on bindings, conditions, the clock and the inputs (chapters 3, 7 and 8) -/

theorem State.clearOwn_moves (s : State) (sender : Nat) (subj : Subject) (c : Cond) :
    Moves G s (s.clearOwn sender subj c).st := by
  unfold State.clearOwn
  split
  · refine State.named_moves fun r _ => ?_
    unfold State.clearRecord
    split
    · exact Moves.refl s
    · exact State.unraise_moves s _ _ _
  · split
    · exact Moves.refl s
    · exact Moves.refl s
  · exact .single (.clearMark _ _)

theorem State.setTime_moves (s : State) {time : Nat} (h : s.wck.time ≤ time ∧ time ≤ Config.max32) :
    Moves G s (s.setTime time) := by
  refine Relation.ReflTransGen.trans ?_ (State.expireCures_moves _)
  exact .tail (.single (.clock _ fun _ => h)) (.hand _)

theorem State.releaseOwn_moves (s : State) : Moves G s s.releaseOwn.st := by
  unfold State.releaseOwn
  split
  · exact Moves.refl s
  split
  · exact Moves.refl s
  next h =>
  split
  · exact Moves.refl s
  · exact .single (.endStop (by simpa using h))

/-! ## Every command -/

/-- The commands of power and of the restore, which make the part's state anew (R151, R176 to R180). -/
def isStartUp : Instr → Bool
  | .rstAssert | .rstNegate _ _ | .powerOn _ _ _ | .headerRestored _ | .restoreComplete _ => true
  | _ => false

theorem rowOk_bounds {n : Nat} (h : rowOk n = true) : 1 ≤ n ∧ n ≤ 12 := of_decide_eq_true h

theorem bayOk_bounds {n : Nat} (h : bayOk n = true) : 1 ≤ n ∧ n ≤ 400 := of_decide_eq_true h

theorem execFind_moves {s t : State} {h : Ask} {target : Target} {view : Nat} (ht : execFind h target view s = .next t) :
    Moves G s t := by
  refine State.request_moves ht fun _ _ => ?_
  repeat' split
  all_goals exact Moves.refl s

theorem execCreate_moves {s t : State} {h : Ask} {row bay cls : Nat} {freeOv bondOv : Option Nat}
    (ht : execCreate h row bay cls freeOv bondOv s = .next t) : Moves G s t := by
  refine State.request_moves ht fun hr _ => ?_
  obtain ⟨hrow, hbay, -⟩ := of_decide_eq_true hr
  exact State.createOwn_moves s cls freeOv bondOv (rowOk_bounds hrow) (bayOk_bounds hbay)

theorem execAmend_moves {s t : State} {h : Ask} {slot rev : Nat} {cls : Option Nat} {freeOv bondOv : OverrideAction}
    (ht : execAmend h slot rev cls freeOv bondOv s = .next t) : Moves G s t := by
  refine State.requestOn_moves ht fun r _ _ _ => ?_
  split
  · exact .single (.update _ _ fun _ _ => Mild.of_fixed rfl (.inl ⟨rfl, rfl⟩))
  · exact Moves.refl s

theorem execBored_moves {s t : State} {h : Ask} {slot rev : Nat} (ht : execBored h slot rev s = .next t) : Moves G s t := by
  refine State.requestOn_moves ht fun r hr _ _ => ?_
  split
  · next hst =>
    refine .single (.update _ _ fun q hq => ?_)
    rw [hr] at hq; cases hq
    refine Mild.of_fixed rfl (.inr ⟨?_, rfl, nofun, nofun, nofun⟩)
    rw [hst]
    exact ⟨rfl, nofun, nofun, nofun⟩
  · exact Moves.refl s

theorem execRetire_moves {s t : State} {h : Ask} {slot rev reason : Nat} (ht : execRetire h slot rev reason s = .next t) :
    Moves G s t := by
  refine State.requestOn_moves ht fun r hr _ _ => ?_
  split
  · exact Moves.refl s
  split
  · exact Moves.refl s
  · next hw hrel => exact retire_moves hr (by simpa using fun e => hw (.inl e)) hrel _ _

theorem execPurge_moves {s t : State} {h : Ask} {slot : Nat} (ht : execPurge h slot s = .next t) : Moves G s t := by
  refine State.requestOn_moves ht fun r hr _ _ => ?_
  split
  · next hst => exact .single (.purge slot _ r hr hst)
  · exact Moves.refl s

theorem execCertify_moves {s t : State} {h : Ask} {slot rev target cls : Nat}
    {freeOv bondOv cureEnd lockoff reason : Option Nat}
    (ht : execCertify h slot rev target cls freeOv bondOv cureEnd lockoff reason s = .next t) : Moves G s t := by
  refine State.requestOn_moves ht fun r hr _ _ => ?_
  split
  · exact Moves.refl s
  · next u hu =>
    split
    · exact Moves.refl s
    split
    · exact Moves.refl s
    · next hst hrel => exact State.certify_moves hr hu (not_not.1 hst) hrel _ _ _ _ _ _ _

theorem execStart_moves {s t : State} {h : Ask} {kind slot station rev : Nat}
    (ht : execStart h kind slot station rev s = .next t) : Moves G s t := by
  refine State.requestOn_moves ht fun r hr _ hup => ?_
  split
  · exact Moves.refl s
  · exact State.bindOwn_moves hr hup _ _ _ _

theorem execResume_moves {s t : State} {h : Ask} {slot rev : Nat} {station : Option Nat}
    (ht : execResume h slot rev station s = .next t) : Moves G s t := by
  refine State.requestOn_moves ht fun r hr _ hup => ?_
  split
  · split
    · exact State.bindOwn_moves hr hup _ _ _ _
    · exact Moves.refl s
  · exact Moves.refl s
  · exact Moves.refl s

theorem execAbort_moves {s t : State} (hwf : G → s.cxp.contexts.wf) {h : Ask} {slot : Nat}
    (ht : execAbort h slot s = .next t) : Moves G s t := by
  refine State.requestOn_moves ht fun r _ _ _ => ?_
  split
  · next hc =>
    split
    · exact State.ctxNaming_moves hwf hc _
    · exact Moves.refl s
  · exact Moves.refl s

theorem execCloseWithdraw_moves {s t : State} {h : Ask} {slot rev : Nat} (ht : execCloseWithdraw h slot rev s = .next t) :
    Moves G s t := by
  refine State.requestOn_moves ht fun r hr _ _ => ?_
  split
  · next hk => exact closeHeld_moves hr hk _ rfl ⟨rfl, nofun, nofun, nofun⟩
  · exact Moves.refl s

theorem execCloseAccept_moves {s t : State} {h : Ask} {slot rev : Nat} (ht : execCloseAccept h slot rev s = .next t) :
    Moves G s t := by
  refine State.requestOn_moves ht fun r hr _ _ => ?_
  split
  · next hk =>
    split
    · exact Moves.refl s
    · exact closeHeld_moves hr hk _ rfl ⟨rfl, nofun, nofun, nofun⟩
  · exact Moves.refl s

theorem execCloseRestart_moves {s t : State} {h : Ask} {slot rev : Nat} (ht : execCloseRestart h slot rev s = .next t) :
    Moves G s t := by
  refine State.requestOn_moves ht fun r hr _ _ => ?_
  split
  · next hk => exact closeHeld_moves hr hk _ rfl ⟨rfl, nofun, nofun, nofun⟩
  · exact Moves.refl s

theorem execCloseRetest_moves {s t : State} {h : Ask} {slot rev : Nat} (ht : execCloseRetest h slot rev s = .next t) :
    Moves G s t := by
  refine State.requestOn_moves ht fun r hr _ _ => ?_
  split
  · next hst =>
    split
    · exact Moves.refl s
    · next hlimit =>
      refine .single (.update _ _ fun q hq => ?_)
      rw [hr] at hq; cases hq
      exact { row := rfl, bay := rfl, gen := rfl, replaces := fun _ h => h, replacedBy := fun _ h => h,
              retests := fun _ => Nat.lt_of_not_le hlimit, conds := rfl, binding := rfl,
              state := .inr ⟨by rw [hst]; exact ⟨rfl, nofun, nofun, nofun⟩, rfl, nofun, nofun, nofun⟩ }
  · exact Moves.refl s

theorem execCloseAbandon_moves {s t : State} {h : Ask} {slot rev : Nat} (ht : execCloseAbandon h slot rev s = .next t) :
    Moves G s t := by
  refine State.requestOn_moves ht fun r hr _ _ => ?_
  split
  · next hst =>
    split
    · exact Moves.refl s
    · next hrel => exact retire_moves hr (by rw [hst]; rfl) hrel _ _
  · exact Moves.refl s

theorem execEndWork_moves {s t : State} {h : Ask} (ht : execEndWork h s = .next t) : Moves G s t := by
  refine State.request_moves ht fun _ _ => ?_
  split
  · exact Moves.refl s
  · split
    · exact Moves.refl s
    · next hx => exact State.endCtx_moves hx

theorem execRestroke_moves {s t : State} {h : Ask} (ht : execRestroke h s = .next t) : Moves G s t := by
  refine State.request_moves ht fun _ _ => ?_
  split
  · exact Moves.refl s
  · split
    · next hx =>
      split
      · next hp => exact State.restrokeOwn_moves hx hp
      · exact Moves.refl s
    · exact Moves.refl s

theorem execClassWritePart1_moves {s t : State} {h : Ask} {cls : Nat} {part : ClassPart1}
    (ht : execClassWritePart1 h cls part s = .next t) : Moves G s t := by
  refine State.take_moves ht fun _ => State.screen_moves fun _ => ?_
  refine (Quiet.tbc s ?_ ?_ ?_).moves <;> rfl

theorem execDigSet_moves {s t : State} {h : Ask} {row : Nat} (ht : execDigSet h row s = .next t) : Moves G s t := by
  refine State.request_moves ht fun _ _ => ?_
  split
  · exact Moves.refl s
  · next hn => exact .single (.setDig row (by omega))

theorem execRelieveClear_moves {s t : State} {h : Ask} {row : Nat} (ht : execRelieveClear h row s = .next t) :
    Moves G s t := by
  refine State.request_moves ht fun _ _ => ?_
  split
  · exact Moves.refl s
  split
  · exact Moves.refl s
  split
  · exact Moves.refl s
  · next hd hx => exact .single (.rely row (fun hle => by simpa using fun e => hd ⟨hle, e⟩) (by simpa using hx))

theorem execCalWrite_moves {s t : State} {h : Ask} {station : Nat} {points : Option (List CalPoint)}
    (ht : execCalWrite h station points s = .next t) : Moves G s t := by
  refine State.request_moves ht fun _ _ => ?_
  split
  · exact Moves.refl s
  split
  · exact Moves.refl s
  · exact State.setCal_moves s _ _

theorem execBind_moves {s t : State} {h : Ask} {slot rev station channel : Nat}
    (ht : execBind h slot rev station channel s = .next t) : Moves G s t := by
  refine State.requestOn_moves ht fun r hr hok _ => ?_
  obtain ⟨-, hrig, hch⟩ := of_decide_eq_true hok
  obtain ⟨h1, h2⟩ := of_decide_eq_true hrig
  dsimp only
  split
  · exact Moves.refl s
  split
  · exact Moves.refl s
  split
  · exact Moves.refl s
  split
  · exact Moves.refl s
  split
  · exact Moves.refl s
  next hst _ _ hocc _ =>
  refine .single (.setBinding slot _ _ r hr (not_not.1 hst) ⟨h1, Nat.le_of_lt_succ h2, hch⟩ fun m hm => ?_)
  by_contra hne
  exact hocc (by rw [hm]; simpa using hne)

theorem execUnbind_moves {s t : State} {h : Ask} {slot rev : Nat} (ht : execUnbind h slot rev s = .next t) :
    Moves G s t := by
  refine State.requestOn_moves ht fun r hr _ _ => ?_
  split
  · exact Moves.refl s
  · exact .single (.dropBinding slot _ r hr)

theorem execClear_moves {s t : State} {h : Ask} {kind ident cond : Nat} (ht : execClear h kind ident cond s = .next t) :
    Moves G s t := by
  refine State.request_moves ht fun _ _ => ?_
  split
  · exact State.clearOwn_moves s _ _ _
  · exact Moves.refl s

theorem execAttentionRead_moves {s t : State} {h : Ask} {start : Nat} {reset : Bool}
    (ht : execAttentionRead h start reset s = .next t) : Moves G s t := by
  refine State.request_moves ht fun _ _ => ?_
  cases reset
  · exact Moves.refl s
  · exact .single .overflow

theorem execTimeSet_moves {s t : State} {h : Ask} {time : Nat} (ht : execTimeSet h time s = .next t) : Moves G s t := by
  refine State.request_moves ht fun hr _ => ?_
  split
  · exact Moves.refl s
  split
  · exact Moves.refl s
  · next hlt _ => exact State.setTime_moves s ⟨Nat.le_of_not_lt hlt, of_decide_eq_true hr⟩

theorem execStationWrite_moves {s t : State} {h : Ask} {station : Nat} {kind retry : Option Nat}
    {inhibits : Option Inhibits} {param : Option Nat}
    (ht : execStationWrite h station kind retry inhibits param s = .next t) : Moves G s t :=
  State.request_moves ht fun _ _ => State.stationOwn_moves s _ _ (Station.written_kept _ _ _ _ _).1
    (Station.written_kept _ _ _ _ _).2

theorem execUnknownRequest_moves {s t : State} {h : Ask} {code : Nat} {d : AskDefect}
    (ht : execUnknownRequest h code d s = .next t) : Moves G s t := by
  refine State.take_moves ht fun _ => ?_
  dsimp only
  unfold State.defectOwn
  repeat' split
  all_goals exact Moves.refl s

/-! ## Events -/

theorem execScanStart_moves {s t : State} (ht : execScanStart s = .next t) : Moves G s t := by
  unfold execScanStart at ht
  split at ht <;> cases ht
  · exact State.beginScan_moves s
  · exact Moves.refl s

theorem execCall_moves {s t : State} (ht : execCall s = .next t) : Moves G s t := by
  unfold execCall at ht
  repeat' split at ht
  all_goals cases ht
  · exact State.sendCall_moves s _ _
  · exact State.moveTurn_moves s
  · exact Moves.refl s
  · exact Moves.refl s

theorem execFetch_moves {s t : State} (ht : execFetch s = .next t) : Moves G s t := by
  unfold execFetch at ht
  repeat' split at ht
  all_goals cases ht
  · exact State.sendFetch_moves s _ _
  · exact State.moveTurn_moves s
  all_goals exact Moves.refl s

theorem execReplyReceived_moves {s t : State} {station : Nat} {line : LineId} {r : Reply}
    (ht : execReplyReceived station line r s = .next t) : Moves G s t := by
  unfold execReplyReceived at ht
  repeat' split at ht
  all_goals cases ht
  · exact State.replyAlone_moves s _ _ _
  · exact Moves.refl s
  · exact State.replyInWindow_moves s _ _ _
  · exact State.windowFailed_moves s _
  · exact State.windowFailed_moves s _
  all_goals exact Moves.refl s

theorem execAnswerEnd_moves {s t : State} (hwf : G → s.cxp.contexts.wf) (ht : execAnswerEnd s = .next t) : Moves G s t := by
  unfold execAnswerEnd at ht
  split at ht <;> cases ht
  · exact (Quiet.setExchange s .idle).moves.trans (State.answerEnded_moves (s.setExchange .idle) hwf _ _)
  · exact Moves.refl s

theorem execNoiseReception_moves {s t : State} {line : LineId} (ht : execNoiseReception line s = .next t) :
    Moves G s t := by
  unfold execNoiseReception at ht
  split at ht <;> cases ht
  · exact Moves.refl s
  · refine (Quiet.putLine s line ?_).moves
    unfold Line.noisy
    split <;> exact ⟨rfl, rfl⟩

theorem execAllstop_moves {s t : State} {line : LineId} (ht : execAllstop line s = .next t) : Moves G s t := by
  unfold execAllstop at ht
  split at ht <;> cases ht
  · refine Relation.ReflTransGen.trans ?_ (Quiet.transmit _ _).moves
    refine (Quiet.putLine s line ?_).moves
    exact ⟨rfl, rfl⟩
  · exact Moves.refl s

theorem execTestPatternCopy_moves {s t : State} {line : LineId} {received : List Byte}
    (ht : execTestPatternCopy line received s = .next t) : Moves G s t := by
  unfold execTestPatternCopy at ht
  repeat' split at ht
  all_goals cases ht
  · exact State.copyEnded_moves s _ _
  all_goals exact Moves.refl s

theorem execRealSecond_moves {s t : State} (ht : execRealSecond s = .next t) : Moves G s t := by
  cases ht
  refine .tail (.single (.clock _ (Wck.next_bounds s.wck))) (.eachCtx _ fun x => ?_)
  exact Context.bond_eq (Context.second_bond x _ _ _ _)

theorem execSuspendLimitReached_moves {s t : State} {ctx : Nat} (ht : execSuspendLimitReached ctx s = .next t) :
    Moves G s t := by
  unfold execSuspendLimitReached at ht
  repeat' split at ht
  all_goals cases ht
  · next hx _ => exact State.releaseHeld_moves (fun _ => hx) _ _ (List.nodup_singleton _) _
  all_goals exact Moves.refl s

theorem execPhaseTimerExpiry_moves {s t : State} {ctx : Nat} (ht : execPhaseTimerExpiry ctx s = .next t) :
    Moves G s t := by
  unfold execPhaseTimerExpiry at ht
  split at ht <;> cases ht
  · next hx => exact State.expireTimer_moves hx
  · exact Moves.refl s

theorem execRefusalCompletion_moves {s t : State} {ctx : Nat} (ht : execRefusalCompletion ctx s = .next t) :
    Moves G s t := by
  unfold execRefusalCompletion at ht
  split at ht <;> cases ht
  · next hx => exact State.completeRefusal_moves hx
  · exact Moves.refl s

theorem execCureExpiry_moves {s t : State} {slot : Nat} (ht : execCureExpiry slot s = .next t) : Moves G s t := by
  unfold execCureExpiry at ht
  split at ht <;> cases ht
  · exact State.expireCure_moves s slot
  · exact Moves.refl s

theorem execKeyTimerExpiry_moves {s t : State} (hwf : G → s.cxp.contexts.wf) (ht : execKeyTimerExpiry s = .next t) :
    Moves G s t := by
  unfold execKeyTimerExpiry at ht
  split at ht
  · next hk =>
    split at ht <;> cases ht
    · exact .single (.key _ nofun (by rw [hk]; nofun))
    · exact State.cabinetRestart_moves s hwf
  · cases ht; exact Moves.refl s

theorem execFilterSample_moves {s t : State} {input : Fin 4} (ht : execFilterSample input s = .next t) : Moves G s t := by
  unfold execFilterSample at ht
  split at ht <;> cases ht
  · exact .single (.changeInputs _)
  · exact Moves.refl s

theorem execPinChange_moves {s t : State} {input : Fin 4} {level : Contact} (ht : execPinChange input level s = .next t) :
    Moves G s t := by
  unfold execPinChange at ht
  dsimp only at ht
  split at ht <;> cases ht
  · exact .single (.changeInputs _)
  · exact State.setPin_moves s input level

theorem execBlockWriteAck_moves {s t : State} (ht : execBlockWriteAck s = .next t) : Moves G s t := by
  unfold execBlockWriteAck at ht
  split at ht <;> cases ht
  · exact State.ackBlock_moves s _ _ _ _
  · exact Moves.refl s

theorem execBlockWriteTimeout_moves {s t : State} {left : Remnant} (ht : execBlockWriteTimeout left s = .next t) :
    Moves G s t := by
  unfold execBlockWriteTimeout at ht
  split at ht <;> cases ht
  · exact State.failBlock_moves s _ _ _ _
  · exact Moves.refl s

theorem execWriterWaitEnd_moves {s t : State} (ht : execWriterWaitEnd s = .next t) : Moves G s t := by
  unfold execWriterWaitEnd at ht
  split at ht <;> cases ht
  · refine .trans (.single (.isi _ ?_ ?_ ?_ ?_)) (State.takeItem_moves _)
    · exact id
    · exact id
    · rfl
    · rfl
  · exact Moves.refl s

/-- Every command but those of power and of the restore is made of moves. -/
theorem exec_moves {c : Instr} {s t : State} (hc : isStartUp c = false) (hwf : G → s.cxp.contexts.wf)
    (ht : exec c s = .next t) : Moves G s t := by
  cases c with
  | find => exact execFind_moves ht
  | create => exact execCreate_moves ht
  | amend => exact execAmend_moves ht
  | bored => exact execBored_moves ht
  | retire => exact execRetire_moves ht
  | replace => exact State.requestOn_moves ht fun r hr _ _ => State.replaceOwn_moves _ _ hr
  | purge => exact execPurge_moves ht
  | certify => exact execCertify_moves ht
  | start => exact execStart_moves ht
  | begin => exact State.request_moves ht fun _ hup => State.beginOwn_moves s hup _ _ _
  | abort => exact execAbort_moves hwf ht
  | resume => exact execResume_moves ht
  | closeWithdraw => exact execCloseWithdraw_moves ht
  | closeAccept => exact execCloseAccept_moves ht
  | closeRestart => exact execCloseRestart_moves ht
  | closeRetest => exact execCloseRetest_moves ht
  | closeAbandon => exact execCloseAbandon_moves ht
  | endWork => exact execEndWork_moves ht
  | restroke => exact execRestroke_moves ht
  | classWrite => exact State.take_moves ht fun _ => State.screen_moves fun _ => State.classFormOwn_moves s _ _
  | classWritePart1 => exact execClassWritePart1_moves ht
  | classRead | calRead => exact State.take_moves ht fun _ => State.screen_moves fun _ => Moves.refl s
  | siteWrite => exact State.request_moves ht fun _ _ => State.siteOwn_moves s _
  | list | siteRead | digQuery | inputRead | restart | stationRead | lineRead =>
    exact State.request_moves ht fun _ _ => Moves.refl s
  | digSet => exact execDigSet_moves ht
  | relieveSet => exact State.request_moves ht fun _ _ => .single (.relieve _)
  | relieveClear => exact execRelieveClear_moves ht
  | calWrite => exact execCalWrite_moves ht
  | bind => exact execBind_moves ht
  | unbind => exact execUnbind_moves ht
  | clear => exact execClear_moves ht
  | attentionRead => exact execAttentionRead_moves ht
  | timeSet => exact execTimeSet_moves ht
  | release => exact State.take_moves ht fun _ => State.screen_moves fun _ => State.releaseOwn_moves s
  | stationWrite => exact execStationWrite_moves ht
  | lineWrite => exact State.request_moves ht fun _ _ => State.lineOwn_moves s _ _ _ _
  | lineWriteTest => exact State.request_moves ht fun _ _ => State.testOwn_moves s _ _ _
  | unknownRequest => exact execUnknownRequest_moves ht
  | scanStart => exact execScanStart_moves ht
  | call => exact execCall_moves ht
  | replyReceived => exact execReplyReceived_moves ht
  | replyWindowTimeout | badFrame => cases ht; exact State.windowFailed_moves s _
  | fetch => exact execFetch_moves ht
  | answerEnd => exact execAnswerEnd_moves hwf ht
  | noiseReception => exact execNoiseReception_moves ht
  | allstop => exact execAllstop_moves ht
  | testPatternCopy => exact execTestPatternCopy_moves ht
  | realSecond => exact execRealSecond_moves ht
  | suspendLimitReached => exact execSuspendLimitReached_moves ht
  | phaseTimerExpiry => exact execPhaseTimerExpiry_moves ht
  | refusalCompletion => exact execRefusalCompletion_moves ht
  | cureExpiry => exact execCureExpiry_moves ht
  | keyTimerExpiry => exact execKeyTimerExpiry_moves hwf ht
  | filterSample => exact execFilterSample_moves ht
  | pinChange => exact execPinChange_moves ht
  | writerTakeItem => cases ht; exact State.takeItem_moves s
  | blockWriteAck => exact execBlockWriteAck_moves ht
  | blockWriteTimeout => exact execBlockWriteTimeout_moves ht
  | writerWaitEnd => exact execWriterWaitEnd_moves ht
  | rstAssert | rstNegate | powerOn | headerRestored | restoreComplete => cases hc

end Sys2Proof.Machine
end

section
/-! What a restore reads from the image memory (R177, R178): the widths and ranges of what its readers give. -/

namespace Sys2Proof.Machine

/-! ## Readers -/

theorem beNat_lt (bs : List Byte) : beNat bs < 256 ^ bs.length := by
  have key : ∀ (bs : List Byte) (acc : Nat), bs.foldl (fun a b => a * 256 + b.toNat) acc < (acc + 1) * 256 ^ bs.length := by
    intro bs
    induction bs with
    | nil => intro acc; simp
    | cons b bs ih =>
      intro acc
      have hb : b.toNat < 256 := b.isLt
      calc (b :: bs).foldl (fun a b => a * 256 + b.toNat) acc
          < (acc * 256 + b.toNat + 1) * 256 ^ bs.length := ih _
        _ ≤ ((acc + 1) * 256) * 256 ^ bs.length := Nat.mul_le_mul_right _ (by omega)
        _ = (acc + 1) * 256 ^ (b :: bs).length := by rw [List.length_cons, Nat.pow_succ']; ring
  simpa [beNat] using key bs 0

/-- Every value that a reader gives has the property. -/
def Gives {α : Type} (r : Rd α) (P : α → Prop) : Prop := ∀ bs x rest, r bs = some (x, rest) → P x

theorem Gives.front {α : Type} {r : Rd α} {P : α → Prop} (h : Gives r P) {bs : List Byte} {x : α}
    (hx : readFront r bs = some x) : P x := by
  unfold readFront at hx
  obtain ⟨⟨y, rest⟩, hy, rfl⟩ := Option.map_eq_some_iff.1 hx
  exact h bs y rest hy

theorem Gives.bind {α β : Type} {r : Rd α} {f : α → Rd β} {P : α → Prop} {Q : β → Prop} (h : Gives r P)
    (hf : ∀ a, P a → Gives (f a) Q) : Gives (r >>= f) Q := by
  intro bs x rest hx
  obtain ⟨⟨a, bs'⟩, ha, hx⟩ := Option.bind_eq_some_iff.1 hx
  exact hf a (h bs a bs' ha) bs' x rest hx

/-- What a reader reads before it does not matter for what the rest gives. -/
theorem Gives.then {α β : Type} {r : Rd α} {f : α → Rd β} {Q : β → Prop} (hf : ∀ a, Gives (f a) Q) : Gives (r >>= f) Q :=
  Gives.bind (P := fun _ => True) (fun _ _ _ _ => trivial) fun a _ => hf a

theorem Gives.pure {α : Type} {x : α} {P : α → Prop} (h : P x) : Gives (pure x : Rd α) P := by
  rintro bs y rest hy
  cases hy; exact h

theorem rdNat_gives (w : Nat) : Gives (rdNat w) (fun n => n < 256 ^ w) := by
  intro bs n rest h
  unfold rdNat at h
  split at h
  · cases h
  · next hlen =>
    cases h
    refine Nat.lt_of_lt_of_eq (beNat_lt _) ?_
    rw [List.length_take, Nat.min_eq_left (Nat.le_of_not_lt hlen)]

theorem readEvery_all {α : Type} {r : Rd α} {P : α → Prop} (hr : Gives r P) {w : Nat} :
    ∀ {count : Nat} {bs : List Byte} {l : List α}, readEvery r w count bs = some l → ∀ x ∈ l, P x := by
  intro count
  induction count with
  | zero => intro bs l h x hx; cases h; cases hx
  | succ count ih =>
    intro bs l h x hx
    unfold readEvery at h
    split at h
    · next a as ha has =>
      cases h
      rcases List.mem_cons.1 hx with rfl | hx
      · exact hr.front ha
      · exact ih has x hx
    · cases h

/-! ## The header (R177, Table 11-10) -/

/-- A station as a header gives it is not bound and bears no mark. -/
def Station.loose (x : Station) : Prop := x.ctx = none ∧ x.faultMark = false

theorem rdStation_gives : Gives rdStation Station.loose :=
  Gives.then fun _ => Gives.then fun _ => Gives.then fun _ => Gives.then fun _ => Gives.pure ⟨rfl, rfl⟩

/-- The time of a header keeps its width, and its stations are loose. -/
structure Header.Sound (h : Header) : Prop where
  time : h.time ≤ 4294967295
  stations : ∀ n : Fin 16, (h.stations[n]).loose

theorem vectorOf_all {α : Type} {n : Nat} {d : α} {l : List α} {P : α → Prop} (hd : P d) (hl : ∀ x ∈ l, P x) (i : Fin n) :
    P ((vectorOf n d l)[i]) := by
  simp only [vectorOf, Fin.getElem_fin, Vector.getElem_ofFn]
  cases h : l[i.val]? with
  | none => exact hd
  | some x => exact hl x (List.mem_of_getElem? h)

theorem readHeader_sound {bs : List Byte} {h : Header} (hh : readHeader bs = some h) : h.Sound := by
  unfold readHeader at hh
  split at hh
  · cases hh
  · split at hh
    · next hfront _ _ hst =>
      cases hh
      have ht : Gives (do let t ← rdNat 4; let x ← rdSite; pure (t, x) : Rd (Nat × SiteSettings))
          (fun p => p.1 < 256 ^ 4) :=
        Gives.bind (rdNat_gives 4) fun _ ht => Gives.then fun _ => Gives.pure ht
      exact ⟨Nat.le_of_lt_succ (ht.front hfront), vectorOf_all ⟨rfl, rfl⟩ (readEvery_all rdStation_gives hst)⟩
    · cases hh

/-! ## The record blocks (R178, Table 11-9) -/

/-- The revision and the stamp of a record block keep their widths. -/
theorem rdRecord_gives : Gives rdRecord (fun x => x.1 < 256 ^ 2 ∧ x.2.1.stamp.time < 256 ^ 4) := by
  refine Gives.bind (rdNat_gives 2) fun rev hrev => ?_
  iterate 7 refine Gives.then fun _ => ?_
  refine Gives.bind (rdNat_gives 4) fun time htime => ?_
  iterate 19 refine Gives.then fun _ => ?_
  exact Gives.pure ⟨hrev, htime⟩

/-- What every block gives: a revision in its width, a key in its ranges, a stamp and a retest count in theirs. -/
def Taken.Sound : Taken → Prop
  | .free rev => rev ≤ 65535
  | .sound rev r _ => rev ≤ 65535 ∧ r.stamp.time ≤ 4294967295 ∧ r.retests ≤ 2 ∧ keyOk r.row r.bay r.gen = true
  | .suspect row bay gen => keyOk row bay gen = true

theorem takeFailed_sound (bs : List Byte) : (takeFailed bs).Sound := by
  unfold takeFailed
  dsimp only
  split
  · next h => exact h
  · exact Nat.le_refl 65535

theorem takePassed_sound (bs : List Byte) : (takePassed bs).Sound := by
  unfold takePassed
  split
  · split
    · next rev r live hr =>
      obtain ⟨hrev, htime⟩ := rdRecord_gives.front hr
      split
      · next h =>
        obtain ⟨hkey, -, -, -, -, -, -, -, -, hretests, -⟩ := of_decide_eq_true h.1
        exact ⟨Nat.le_of_lt_succ hrev, Nat.le_of_lt_succ htime, hretests, hkey⟩
      · exact takeFailed_sound bs
    · exact takeFailed_sound bs
  · refine Nat.le_of_lt_succ (Nat.lt_of_lt_of_le (beNat_lt _) ?_)
    exact Nat.pow_le_pow_right (by decide) (List.length_take_le 2 _)
  · exact takeFailed_sound bs

theorem Isi.takeAt_sound (i : Isi) (undelivered : List Nat) (b : Nat) : (i.takeAt undelivered b).Sound := by
  unfold Isi.takeAt takeBlock
  split
  · exact takeFailed_sound _
  · split
    · exact takeFailed_sound _
    · exact takePassed_sound _

/-! ## The blocks of all slots (R178, R180) -/

/-- What the blocks of a restore are: one for each slot, in ascending order, each sound. -/
structure BlocksSound (bs : List (Nat × Taken)) : Prop where
  rising : bs.Pairwise (fun x y => x.1 < y.1)
  slots : ∀ x ∈ bs, x.1 < 512
  sound : ∀ x ∈ bs, x.2.Sound

theorem Isi.blocks_sound (i : Isi) (undelivered : List Nat) : BlocksSound (i.blocks undelivered) where
  rising := List.pairwise_map.2 (List.pairwise_lt_range.imp fun h => h)
  slots x hx := by
    obtain ⟨n, hn, rfl⟩ := List.mem_map.1 hx
    exact List.mem_range.1 hn
  sound x hx := by
    obtain ⟨n, -, rfl⟩ := List.mem_map.1 hx
    exact Isi.takeAt_sound i undelivered _

theorem Taken.time_le {b : Taken} (h : b.Sound) : b.time ≤ 4294967295 := by
  cases b with
  | sound rev r live => exact h.2.1
  | free | suspect => exact Nat.zero_le _

theorem restoredTime_le {headerTime : Option Nat} {bs : List (Nat × Taken)} (hh : ∀ t, headerTime = some t → t ≤ 4294967295)
    (hbs : ∀ x ∈ bs, x.2.Sound) : restoredTime headerTime bs ≤ 4294967295 := by
  have key : ∀ (l : List (Nat × Taken)), (∀ x ∈ l, x.2.Sound) → ∀ acc ≤ 4294967295,
      l.foldl (fun t p => max t p.2.time) acc ≤ 4294967295 := by
    intro l
    induction l with
    | nil => exact fun _ acc h => h
    | cons x l ih =>
      exact fun hl acc h => ih (fun y hy => hl y (List.mem_cons_of_mem _ hy)) _
        (Nat.max_le.2 ⟨h, Taken.time_le (hl x List.mem_cons_self)⟩)
  refine key bs hbs _ ?_
  cases headerTime with
  | none => exact Nat.zero_le _
  | some t => exact hh t rfl

end Sys2Proof.Machine
end

section
/-! The Anchor Table and the Position Map that a restore builds (R178, R179). -/

namespace Sys2Proof.Machine

/-- What is related to a value that is there is there. -/
theorem optionRel_some_right {α β : Type} {R : α → β → Prop} {a? : Option α} {b : β} (h : Option.Rel R a? (some b)) :
    ∃ a, a? = some a ∧ R a b := by
  cases a? with
  | none => cases h
  | some a => cases h with | some h => exact ⟨a, rfl, h⟩

theorem optionRel_bind {α β γ δ : Type} {R : α → β → Prop} {S : γ → δ → Prop} {a? : Option α} {b? : Option β}
    (h : Option.Rel R a? b?) {f : α → Option γ} {g : β → Option δ} (hfg : ∀ a b, R a b → Option.Rel S (f a) (g b)) :
    Option.Rel S (a?.bind f) (b?.bind g) := by
  cases h with
  | none => exact Option.Rel.none
  | some h => exact hfg _ _ h

/-- What a state holds in a slot is what its table holds there. -/
theorem State.recAt_eq_recIn (s : State) (n : Nat) : s.recAt n = recIn s.tbc.slots n := by
  unfold State.recAt State.slotAt recIn
  cases s.tbc.slots.get? n <;> rfl

/-- In canonical form a record of a table is that of a listed slot. -/
theorem recIn_eq_some {t : Table Slot} (hw : t.wf) {n : Nat} {r : Record} :
    recIn t n = some r ↔ ∃ z, (n, z) ∈ t ∧ z.rec? = some r := by
  unfold recIn
  rw [Option.bind_eq_some_iff]
  exact ⟨fun ⟨z, hz, hr⟩ => ⟨z, Table.mem_of_get? hz, hr⟩, fun ⟨z, hz, hr⟩ => ⟨z, Table.get?_of_mem hw hz, hr⟩⟩

/-! ## The kept blocks (R178) -/

/-- Of two blocks of one key one is kept before the other. -/
theorem keptBefore_total {x y : Nat × Taken} (hkey : x.2.key = y.2.key) (hsome : x.2.key.isSome = true) (hne : x.1 ≠ y.1) :
    keptBefore x y = true ∨ keptBefore y x = true := by
  obtain ⟨n, b⟩ := x
  obtain ⟨m, c⟩ := y
  have hne' : n ≠ m := hne
  cases b with
  | free => cases hsome
  | sound rev r live =>
    cases c with
    | free => rw [hkey] at hsome; cases hsome
    | sound rev' q live' => simp only [keptBefore, decide_eq_true_eq]; omega
    | suspect => exact .inl rfl
  | suspect row bay gen =>
    cases c with
    | free => rw [hkey] at hsome; cases hsome
    | sound => exact .inr rfl
    | suspect => simp only [keptBefore, decide_eq_true_eq]; omega

/-- Two kept blocks of one key are the block of one slot. -/
theorem kept_inj {bs : List (Nat × Taken)} {x y : Nat × Taken} (hx : x ∈ bs) (hy : y ∈ bs) (kx : kept bs x = true)
    (ky : kept bs y = true) (hkey : x.2.key = y.2.key) : x.1 = y.1 := by
  obtain ⟨hsome, hallx⟩ := of_decide_eq_true kx
  obtain ⟨-, hally⟩ := of_decide_eq_true ky
  by_contra hne
  have h1 : keptBefore y x = false := (of_decide_eq_true (List.all_eq_true.1 hallx y hy)).resolve_left (fun h => h hkey.symm)
  have h2 : keptBefore x y = false := (of_decide_eq_true (List.all_eq_true.1 hally x hx)).resolve_left (fun h => h hkey)
  rcases keptBefore_total hkey hsome hne with h | h
  · rw [h2] at h; cases h
  · rw [h1] at h; cases h

theorem slotOf_rev {bs : List (Nat × Taken)} {time : Nat} {x : Nat × Taken} (hx : x.2.Sound) :
    (slotOf bs time x).rev ≤ 65535 := by
  obtain ⟨n, b⟩ := x
  cases b with
  | free rev => exact hx
  | sound rev r live =>
    simp only [slotOf]
    split
    · exact hx.1
    · exact Nat.le_refl 65535
  | suspect row bay gen =>
    simp only [slotOf]
    split
    · exact Nat.zero_le _
    · exact Nat.le_refl 65535

/-- The record a block leaves in its slot is that of a kept block, with the block's key. -/
theorem slotOf_rec {bs : List (Nat × Taken)} {time : Nat} {x : Nat × Taken} (hx : x.2.Sound) {r : Record}
    (hr : (slotOf bs time x).rec? = some r) :
    kept bs x = true ∧ x.2.key = some (r.row, r.bay, r.gen) ∧ keyOk r.row r.bay r.gen = true ∧ r.retests ≤ 2 := by
  obtain ⟨n, b⟩ := x
  cases b with
  | free rev => cases hr
  | sound rev q live =>
    simp only [slotOf] at hr
    split at hr
    · next hk => cases hr; exact ⟨hk, rfl, hx.2.2.2, hx.2.2.1⟩
    · cases hr
  | suspect row bay gen =>
    simp only [slotOf] at hr
    split at hr
    · next hk => cases hr; exact ⟨hk, rfl, hx, Nat.zero_le _⟩
    · cases hr

theorem mem_restoredSlots {bs : List (Nat × Taken)} {time n : Nat} {z : Slot} (h : (n, z) ∈ restoredSlots bs time) :
    ∃ b, (n, b) ∈ bs ∧ z = slotOf bs time (n, b) := by
  obtain ⟨⟨m, b⟩, hb, h⟩ := List.mem_filterMap.1 h
  split at h
  · cases h
  · cases h; exact ⟨b, hb, rfl⟩

theorem restoredSlots_wf {bs : List (Nat × Taken)} (h : bs.Pairwise (fun x y => x.1 < y.1)) (time : Nat) :
    (restoredSlots bs time).wf := by
  refine List.Pairwise.filterMap _ ?_ h
  intro x y hxy a ha b hb
  split at ha <;> cases ha
  split at hb <;> cases hb
  exact hxy

/-- The record that the restored table holds in a slot is that of the slot's kept block. -/
theorem recIn_restoredSlots {bs : List (Nat × Taken)} (hbs : BlocksSound bs) {time n : Nat} {r : Record}
    (h : recIn (restoredSlots bs time) n = some r) : n < 512 ∧ (∃ b, (n, b) ∈ bs ∧ kept bs (n, b) = true ∧
      b.key = some (r.row, r.bay, r.gen)) ∧ keyOk r.row r.bay r.gen = true ∧ r.retests ≤ 2 := by
  obtain ⟨z, hz, hr⟩ := (recIn_eq_some (restoredSlots_wf hbs.rising time)).1 h
  obtain ⟨b, hb, rfl⟩ := mem_restoredSlots hz
  obtain ⟨h1, h2, h3, h4⟩ := slotOf_rec (hbs.sound _ hb) hr
  exact ⟨hbs.slots _ hb, ⟨b, hb, h1, h2⟩, h3, h4⟩

/-! ## The corrections (R179) -/

/-- `q` is the record `r` of the table `t` corrected: the key and the retest count are its own, its links name records of its
position, and it is in no work state. -/
structure Corrected (t : Table Slot) (r q : Record) : Prop where
  key : (q.row, q.bay, q.gen) = (r.row, r.bay, r.gen)
  retests : q.retests = r.retests
  loose : q.state.isWork = false
  links : ∀ m, (q.replacedBy = some m ∨ q.replaces = some m) → ∃ p, recIn t m = some p ∧ p.row = r.row ∧ p.bay = r.bay

theorem goodLink_spec {t : Table Slot} {r : Record} {link : Option Nat} {m : Nat} (h : goodLink t r link = some m) :
    ∃ p, recIn t m = some p ∧ p.row = r.row ∧ p.bay = r.bay := by
  obtain ⟨-, h⟩ := Option.filter_eq_some_iff.1 h
  obtain ⟨p, hp, hq⟩ := (Option.any_eq_true ..).1 h
  obtain ⟨h1, h2, -⟩ := of_decide_eq_true hq
  exact ⟨p, hp, h1, h2⟩

theorem outOfWork_kept (r : Record) : ((outOfWork r).row, (outOfWork r).bay, (outOfWork r).gen) = (r.row, r.bay, r.gen) ∧
    (outOfWork r).retests = r.retests ∧ (outOfWork r).state.isWork = false := by
  unfold outOfWork
  split
  · exact ⟨rfl, rfl, rfl⟩
  · next h => exact ⟨rfl, rfl, by simp [RecState.isWork, h]⟩

theorem corrected_spec (t : Table Slot) (stations : Vector Station 16) (channels : Table Nat) (r : Record) :
    Corrected t r (corrected t stations channels r) where
  key := (outOfWork_kept r).1
  retests := (outOfWork_kept r).2.1
  loose := (outOfWork_kept r).2.2
  links _ h := h.elim goodLink_spec goodLink_spec

theorem Corrected.stamped {t : Table Slot} {r q : Record} (h : Corrected t r q) (stamp : Stamp) :
    Corrected t r { q with stamp := stamp } := ⟨h.key, h.retests, h.loose, h.links⟩

/-- What a slot's correction makes of its record and its revision. -/
theorem correctedSlot_spec (t : Table Slot) (stations : Vector Station 16) (channels : Table Nat) (time : Nat) (x : Slot) :
    (x.rev ≤ 65535 → (correctedSlot t stations channels time x).rev ≤ 65535) ∧
      Option.Rel (Corrected t) x.rec? (correctedSlot t stations channels time x).rec? := by
  unfold correctedSlot
  split
  · next h => exact ⟨id, by rw [h]; exact Option.Rel.none⟩
  · next r h =>
    have hc := corrected_spec t stations channels r
    dsimp only
    split
    · next e => exact ⟨id, by rw [h]; rw [e] at hc; exact Option.Rel.some hc⟩
    · exact ⟨fun _ => Nat.le_of_lt_succ (Nat.mod_lt _ (by decide)), by rw [h]; exact Option.Rel.some (hc.stamped _)⟩

/-- Two tables with the same keys and related values hold related values under each key. -/
theorem Table.get?_rel {α β : Type} {R : α → β → Prop} {t : Table α} {u : Table β}
    (h : List.Forall₂ (fun x y => y.1 = x.1 ∧ R x.2 y.2) t u) (n : Nat) : Option.Rel R (t.get? n) (u.get? n) := by
  induction h with
  | nil => exact Option.Rel.none
  | @cons x y t u hxy _ ih =>
    obtain ⟨k, v⟩ := x
    obtain ⟨l, w⟩ := y
    obtain ⟨rfl, hR⟩ := hxy
    by_cases e : l = n
    · simpa [Table.get?, e] using Option.Rel.some hR
    · simpa [Table.get?, e] using ih

/-- The corrected table lists the same slots, each corrected. -/
theorem correctAll_forall₂ (t : Table Slot) (stations : Vector Station 16) (time : Nat) (rest : Table Slot)
    (channels : Table Nat) : List.Forall₂ (fun x y => y.1 = x.1 ∧ ∃ ch, y.2 = correctedSlot t stations ch time x.2) rest
      (correctAll t stations time rest channels).1 := by
  induction rest generalizing channels with
  | nil => exact List.Forall₂.nil
  | cons x rest ih => exact List.Forall₂.cons ⟨rfl, channels, rfl⟩ (ih _)

theorem correctAll_keys (t : Table Slot) (stations : Vector Station 16) (time : Nat) (rest : Table Slot)
    (channels : Table Nat) : (correctAll t stations time rest channels).1.map Prod.fst = rest.map Prod.fst := by
  induction rest generalizing channels with
  | nil => rfl
  | cons x rest ih => exact congrArg (x.1 :: ·) (ih _)

theorem correctAll_wf {t : Table Slot} (h : t.wf) (stations : Vector Station 16) (time : Nat) (channels : Table Nat) :
    (correctAll t stations time t channels).1.wf := by
  refine List.pairwise_map.1 ?_
  rw [correctAll_keys]
  exact List.pairwise_map.2 h

/-- The table a restore leaves. -/
def restoredTable (stations : Vector Station 16) (bs : List (Nat × Taken)) (time : Nat) : Table Slot :=
  (correctAll (restoredSlots bs time) stations time (restoredSlots bs time) []).1

theorem restoredTable_wf {bs : List (Nat × Taken)} (hbs : BlocksSound bs) (stations : Vector Station 16) (time : Nat) :
    (restoredTable stations bs time).wf :=
  correctAll_wf (restoredSlots_wf hbs.rising time) stations time []

theorem restoredTable_slots (stations : Vector Station 16) (bs : List (Nat × Taken)) (time n : Nat) :
    Option.Rel (fun x y => ∃ ch, y = correctedSlot (restoredSlots bs time) stations ch time x)
      ((restoredSlots bs time).get? n) ((restoredTable stations bs time).get? n) :=
  Table.get?_rel (correctAll_forall₂ (restoredSlots bs time) stations time (restoredSlots bs time) []) n

/-- The corrected table holds the records of the restored one, each corrected. -/
theorem restoredTable_recs (stations : Vector Station 16) (bs : List (Nat × Taken)) (time n : Nat) :
    Option.Rel (Corrected (restoredSlots bs time)) (recIn (restoredSlots bs time) n)
      (recIn (restoredTable stations bs time) n) := by
  refine optionRel_bind (restoredTable_slots stations bs time n) ?_
  rintro x y ⟨ch, rfl⟩
  exact (correctedSlot_spec _ stations ch time x).2

/-- Every revision of the corrected table keeps its width (R1). -/
theorem restoredTable_rev {bs : List (Nat × Taken)} (hbs : BlocksSound bs) (stations : Vector Station 16) (time n : Nat) :
    (((restoredTable stations bs time).get? n).getD Slot.fresh).rev ≤ 65535 := by
  have h := restoredTable_slots stations bs time n
  cases hy : (restoredTable stations bs time).get? n with
  | none => exact Nat.le_refl 65535
  | some y =>
    rw [hy] at h
    obtain ⟨x, hx, ch, rfl⟩ := optionRel_some_right h
    obtain ⟨b, hb, rfl⟩ := mem_restoredSlots (Table.mem_of_get? hx)
    exact (correctedSlot_spec _ stations ch time _).1 (slotOf_rev (hbs.sound _ hb))

/-! ## The Position Map (R179) -/

theorem candidacy_alive {live : Bool} {r : Record} {c : Nat} (h : candidacy live r = some c) : r.state ≠ .retired := by
  unfold candidacy at h
  split at h
  · cases h
  · next hn => exact hn

/-- What the election keeps: every position's best candidate is a record of it that is not RETIRED. -/
def Elected (slots : Table Slot) (best : Table (Nat × Nat)) : Prop :=
  best.wf ∧ ∀ key c n, best.get? key = some (c, n) →
    ∃ r, recIn slots n = some r ∧ posKey r.row r.bay = key ∧ r.state ≠ .retired

theorem electOne_elected {slots : Table Slot} {best : Table (Nat × Nat)} (h : Elected slots best) (x : Nat × Taken) :
    Elected slots (electOne slots best x) := by
  unfold electOne
  split
  · exact h
  · next r hr =>
    split
    · exact h
    · next c hc =>
      split
      · refine ⟨Table.wf_put h.1 _ _, fun key d n hk => ?_⟩
        by_cases e : key = posKey r.row r.bay
        · subst e
          rw [Table.get?_put_same] at hk; cases hk
          exact ⟨r, hr, rfl, candidacy_alive hc⟩
        · rw [Table.get?_put_ne _ _ _ _ e] at hk
          exact h.2 key d n hk
      · exact h

theorem rebuiltMap_spec (slots : Table Slot) (bs : List (Nat × Taken)) : (rebuiltMap slots bs).wf ∧
    ∀ key n, (rebuiltMap slots bs).get? key = some n →
      ∃ r, recIn slots n = some r ∧ posKey r.row r.bay = key ∧ r.state ≠ .retired := by
  have h : Elected slots (bs.foldl (electOne slots) []) :=
    foldl_keeps (P := Elected slots) (fun _ x ht => electOne_elected ht x) bs ⟨List.Pairwise.nil, nofun⟩
  have hget : ∀ (t : Table (Nat × Nat)) key, Table.get? (t.map (fun p => (p.1, p.2.2))) key = (t.get? key).map Prod.snd := by
    intro t key
    induction t with
    | nil => rfl
    | cons p t ih =>
      obtain ⟨k, v⟩ := p
      by_cases e : k = key <;> simp [Table.get?, e, ih]
  refine ⟨List.pairwise_map.2 h.1, fun key n hk => ?_⟩
  unfold rebuiltMap at hk
  rw [hget, Option.map_eq_some_iff] at hk
  obtain ⟨⟨c, m⟩, hb, rfl⟩ := hk
  exact h.2 key c m hb

/-! ## What is restored is in order (R1, R4, R9) -/

/-- The restored table and map are in agreement. -/
theorem tableLaw_of_restored {s : State} {stations : Vector Station 16} {bs : List (Nat × Taken)} {time : Nat}
    (hbs : BlocksSound bs) (hslots : s.tbc.slots = restoredTable stations bs time)
    (hmap : s.tbc.map = rebuiltMap (restoredTable stations bs time) bs) : TableLaw s := by
  have hrel := restoredTable_recs stations bs time
  have hrec : ∀ n, s.recAt n = recIn (restoredTable stations bs time) n := fun n => by rw [State.recAt_eq_recIn, hslots]
  have hbwd : ∀ {n q}, s.recAt n = some q →
      ∃ r, recIn (restoredSlots bs time) n = some r ∧ Corrected (restoredSlots bs time) r q := fun {n q} hq => by
    have k := hrel n
    rw [← hrec, hq] at k
    exact optionRel_some_right k
  have hkeys : ∀ {r q : Record}, Corrected (restoredSlots bs time) r q → q.row = r.row ∧ q.bay = r.bay ∧ q.gen = r.gen :=
    fun k => by simpa using k.key
  obtain ⟨hmw, hent⟩ := rebuiltMap_spec (restoredTable stations bs time) bs
  refine ⟨hslots ▸ restoredTable_wf hbs stations time, hmap ▸ hmw, ?_, ?_, ?_, ?_⟩
  · intro n q hq
    obtain ⟨r, hr, k⟩ := hbwd hq
    obtain ⟨k1, k2, k3⟩ := hkeys k
    obtain ⟨hn, -, hok, -⟩ := recIn_restoredSlots hbs hr
    obtain ⟨h1, h2, h3, h4, h5⟩ := of_decide_eq_true hok
    rw [k1, k2, k3]
    exact ⟨hn, h1, h2, h3, h4, h5⟩
  · intro n m q q' hq hq' h1 h2 h3
    obtain ⟨r, hr, k⟩ := hbwd hq
    obtain ⟨r', hr', k'⟩ := hbwd hq'
    obtain ⟨-, ⟨b, hb, kb, keyb⟩, -⟩ := recIn_restoredSlots hbs hr
    obtain ⟨-, ⟨b', hb', kb', keyb'⟩, -⟩ := recIn_restoredSlots hbs hr'
    refine kept_inj hb hb' kb kb' ?_
    have hk := hkeys k
    have hk' := hkeys k'
    simp only [keyb, keyb', Option.some.injEq, Prod.mk.injEq]
    exact ⟨hk.1.symm.trans (h1.trans hk'.1), hk.2.1.symm.trans (h2.trans hk'.2.1), hk.2.2.symm.trans (h3.trans hk'.2.2)⟩
  · intro key n hk
    rw [hmap] at hk
    rw [hrec]
    exact hent key n hk
  · intro n m q hq hl
    obtain ⟨r, -, k⟩ := hbwd hq
    obtain ⟨p, hp, h1, h2⟩ := k.links m hl
    have k' := hrel m
    rw [hp, ← hrec] at k'
    cases hp' : s.recAt m with
    | none => rw [hp'] at k'; cases k'
    | some p' =>
      rw [hp'] at k'
      cases k' with
      | some k' =>
        obtain ⟨j1, j2, -⟩ := hkeys k'
        obtain ⟨i1, i2, -⟩ := hkeys k
        exact ⟨p', rfl, by rw [j1, i1, h1], by rw [j2, i2, h2]⟩

/-- No restored record is in a work state (R179). -/
theorem loose_of_restored {s : State} {stations : Vector Station 16} {bs : List (Nat × Taken)} {time : Nat}
    (hslots : s.tbc.slots = restoredTable stations bs time) {n : Nat} {q : Record} (hq : s.recAt n = some q) :
    q.state.isWork = false := by
  have k := restoredTable_recs stations bs time n
  rw [State.recAt_eq_recIn, hslots] at hq
  rw [hq] at k
  obtain ⟨r, -, k⟩ := optionRel_some_right k
  exact k.loose

/-- Restored revisions and retest counts are in their ranges (R1, R56). -/
theorem recordRanges_of_restored {s : State} {stations : Vector Station 16} {bs : List (Nat × Taken)} {time : Nat}
    (hbs : BlocksSound bs) (hslots : s.tbc.slots = restoredTable stations bs time) : RecordRanges s := by
  refine ⟨fun n => ?_, fun n q hq => ?_⟩
  · rw [State.revAt_eq, State.slotAt, hslots]
    exact restoredTable_rev hbs stations time n
  · have k := restoredTable_recs stations bs time n
    rw [State.recAt_eq_recIn, hslots] at hq
    rw [hq] at k
    obtain ⟨r, hr, k⟩ := optionRel_some_right k
    rw [k.retests]
    exact (recIn_restoredSlots hbs hr).2.2.2

end Sys2Proof.Machine
end

section
/-! Power-on, RST and the ends of a restore (R151, R152, R175 to R180): each law of the part after them. -/

namespace Sys2Proof.Machine

/-! ## A part without records, work and entries (R176) -/

/-- Records, map, contexts, stations and attention list as they are at reset. -/
structure Cleared (t : State) : Prop where
  slots : t.tbc.slots = []
  map : t.tbc.map = []
  contexts : t.cxp.contexts = []
  stations : t.bmu.stations = State.reset.bmu.stations
  atu : t.atu = State.reset.atu

theorem Cleared.recAt {t : State} (h : Cleared t) (n : Nat) : t.recAt n = none := by
  rw [State.recAt_congr (s := State.reset) h.slots]; rfl

/-- No station is bound at reset. -/
theorem State.reset_unbound (n : Nat) : (State.reset.stationAt n).ctx = none := by
  by_cases hn : n < 16
  · simp only [State.stationAt, State.reset, hn, Vector.getElem?_eq_getElem, Vector.getElem_ofFn, Option.getD_some]
    split <;> rfl
  · rw [State.stationAt_ge (Nat.le_of_not_lt hn)]; rfl

theorem Cleared.unbound {t : State} (h : Cleared t) (n : Nat) : (t.stationAt n).ctx = none := by
  rw [State.stationAt, h.stations]; exact State.reset_unbound n

theorem Cleared.table {t : State} (h : Cleared t) : TableLaw t := by
  have hmap : ∀ key, t.tbc.map.get? key = none := fun key => by rw [h.map]; rfl
  refine ⟨by rw [h.slots]; exact List.Pairwise.nil, by rw [h.map]; exact List.Pairwise.nil, ?_, ?_, ?_, ?_⟩
  · intro n r hr; rw [h.recAt] at hr; cases hr
  · intro n m r q hr; rw [h.recAt] at hr; cases hr
  · intro key n hk; rw [hmap] at hk; cases hk
  · intro n m r hr; rw [h.recAt] at hr; cases hr

/-- Nothing is bound and no record is in work. -/
theorem WorkLaw.idle {t : State} (hctx : t.cxp.contexts = []) (hst : ∀ n, (t.stationAt n).ctx = none)
    (hrec : ∀ n r, t.recAt n = some r → r.state.isWork = false) : WorkLaw t := by
  have hnone : ∀ c, t.ctxAt c = none := fun c => by rw [State.ctxAt, hctx]; rfl
  refine ⟨by rw [hctx]; exact List.Pairwise.nil, ?_, ?_, ?_, fun _ => hctx⟩
  · intro c x hx; rw [hnone] at hx; cases hx
  · intro n r hr hw; rw [hrec n r hr] at hw; cases hw
  · intro n c hc; rw [hst] at hc; cases hc

theorem Cleared.work {t : State} (h : Cleared t) : WorkLaw t :=
  WorkLaw.idle h.contexts h.unbound fun n r hr => by rw [h.recAt] at hr; cases hr

theorem Cleared.ranges {t : State} (h : Cleared t) : RecordRanges t := by
  refine ⟨fun n => ?_, fun n r hr => by rw [h.recAt] at hr; cases hr⟩
  rw [State.revAt_congr (s := State.reset) h.slots]
  exact Nat.le_refl 65535

theorem Cleared.attention {t : State} (h : Cleared t) : AttentionLaw t := by
  unfold AttentionLaw
  rw [h.atu]
  exact ⟨Nat.zero_le _, Nat.zero_le _, List.Pairwise.nil, by simp [State.reset]⟩

theorem MarkLaw.of_empty {t : State} (h : t.atu.entries = []) : MarkLaw t := by
  unfold MarkLaw
  rw [h]
  exact ⟨List.Pairwise.nil, nofun⟩

theorem Cleared.marks {t : State} (h : Cleared t) : MarkLaw t := MarkLaw.of_empty (by rw [h.atu]; rfl)

theorem Cleared.unpowered (s : State) : Cleared s.unpowered := ⟨rfl, rfl, rfl, rfl, rfl⟩

/-! ## What a step keeps, said of two states at once -/

/-- Every law of this family but the growth of works time. -/
structure Kept (s t : State) : Prop where
  queue : QueueDistinct s → QueueDistinct t
  image : ImageCanonical s → ImageCanonical t
  ranges : RecordRanges s → RecordRanges t
  clock : ClockLaw s → ClockLaw t
  attention : AttentionLaw s → AttentionLaw t
  inputs : InputLaw s → InputLaw t
  start : StartUpLaw s → StartUpLaw t
  marks : StartUpLaw s → MarkLaw s → MarkLaw t
  laws : TableLaw s → WorkLaw s → TableLaw t ∧ WorkLaw t

theorem Kept.refl (s : State) : Kept s s := ⟨id, id, id, id, id, id, id, fun _ => id, fun h k => ⟨h, k⟩⟩

theorem Kept.trans {s t u : State} (h : Kept s t) (k : Kept t u) : Kept s u :=
  ⟨k.queue ∘ h.queue, k.image ∘ h.image, k.ranges ∘ h.ranges, k.clock ∘ h.clock, k.attention ∘ h.attention,
    k.inputs ∘ h.inputs, k.start ∘ h.start, fun hs hm => k.marks (h.start hs) (h.marks hs hm),
    fun ht hw => k.laws (h.laws ht hw).1 (h.laws ht hw).2⟩

theorem Moves.books {G : Prop} {s t : State} (h : Moves G s t) : Books s t := by
  induction h with
  | refl => exact Books.refl s
  | tail _ hm ih => exact ih.trans hm.books

/-- The works time of a header that a restore holds does not change through moves. -/
theorem Books.clock {s t : State} (h : Books s t) (hs : ClockLaw s) : ClockLaw t :=
  ⟨(h.time hs.1).2, h.sys ▸ hs.2⟩

/-- Moves keep the table and the work, where what is known of the state they begin in holds. -/
theorem Moves.laws {G : Prop} {s t : State} (h : Moves G s t) (g : G) (ht : TableLaw s) (hw : WorkLaw s) :
    TableLaw t ∧ WorkLaw t :=
  h.keep (fun s => TableLaw s ∧ WorkLaw s) (fun _ _ hm hs => ⟨hm.table hs.1, hm.work g hs.1 hs.2⟩) ⟨ht, hw⟩

/-- What is made of moves keeps every law, where it keeps that of a start-up. -/
theorem Moves.kept {s t : State} (h : Moves (TableLaw s ∧ WorkLaw s) s t) (hstart : StartUpLaw s → StartUpLaw t) :
    Kept s t where
  queue := h.books.queue
  image := h.books.image
  ranges := h.books.ranges
  clock := h.books.clock
  attention := h.keep AttentionLaw fun _ _ hm => hm.attention
  inputs := h.keep InputLaw fun _ _ hm => hm.inputs
  start := hstart
  marks _ := h.keep MarkLaw fun _ _ hm => hm.marks
  laws ht hw := h.laws ⟨ht, hw⟩ ht hw

/-! ## Start-ups under way (R151, R164, R176, R180) -/

/-- What a start-up under way holds of the part. -/
structure Waiting (s : State) : Prop where
  slots : s.tbc.slots = []
  contexts : s.cxp.contexts = []
  entries : s.atu.entries = []
  queue : s.isi.queue = []
  writer : s.isi.writer = .idle
  exchange : s.bmu.exchange = .idle

theorem startUpLaw_iff {s : State} : StartUpLaw s ↔ (s.sys.phase ≠ .up → Waiting s) :=
  ⟨fun h hp => by obtain ⟨h1, h2, h3, h4, h5, h6⟩ := h hp; exact ⟨h1, h2, h3, h4, h5, h6⟩,
    fun h hp => ⟨(h hp).slots, (h hp).contexts, (h hp).entries, (h hp).queue, (h hp).writer, (h hp).exchange⟩⟩

theorem startUpLaw_of_up {s : State} (h : s.sys.phase = .up) : StartUpLaw s := fun hp => absurd h hp

/-- During a start-up a stop that begins is marked and told of by nobody yet (R152). -/
theorem Waiting.followStop {s : State} (h : Waiting s) (hp : s.sys.phase ≠ .up) : Waiting s.followStop := by
  unfold State.followStop
  split
  · unfold State.beginStop
    rw [if_neg hp]
    exact ⟨h.slots, by simp [State.spreadStop, State.eachLine, State.eachCtx, h.contexts, Table.mapValues], h.entries, h.queue,
      h.writer, h.exchange⟩
  · exact h

theorem Waiting.changeInputs {s : State} (h : Waiting s) (hp : s.sys.phase ≠ .up) (v : Vector Input 4) :
    Waiting (s.changeInputs v) := by
  have h1 : Waiting { s with ifu := { s.ifu with inputs := v } } :=
    ⟨h.slots, h.contexts, h.entries, h.queue, h.writer, h.exchange⟩
  obtain ⟨k1, k2, k3, k4, k5, k6⟩ := h1.followStop hp
  exact ⟨k1, k2, k3, k4, k5, k6⟩

theorem Waiting.restartInputs {s : State} (h : Waiting s) (hp : s.sys.phase ≠ .up) : Waiting s.restartInputs := by
  have h1 : Waiting { s with ifu := { s.ifu with inputs := s.ifu.inputs.map Input.restart } } :=
    ⟨h.slots, h.contexts, h.entries, h.queue, h.writer, h.exchange⟩
  obtain ⟨k1, k2, k3, k4, k5, k6⟩ := h1.followStop hp
  exact ⟨k1, k2, k3, k4, k5, k6⟩

theorem Waiting.unpowered (s : State) : Waiting s.unpowered := ⟨rfl, rfl, rfl, rfl, rfl, rfl⟩

theorem Waiting.recAt {s : State} (h : Waiting s) (n : Nat) : s.recAt n = none := by
  rw [State.recAt_congr (s := State.reset) h.slots]; rfl

theorem Waiting.ctxAt {s : State} (h : Waiting s) (c : Nat) : s.ctxAt c = none := by
  rw [State.ctxAt, h.contexts]; rfl

/-- Without an exchange no window is open (R160). -/
theorem Waiting.windowFailed {s : State} (h : Waiting s) (e : FrameError) : s.windowFailed e = s := by
  unfold State.windowFailed; rw [h.exchange]

theorem Waiting.missAsk {s : State} (h : Waiting s) (a : Ask) : s.missAsk a = s := by
  unfold State.missAsk; rw [h.exchange]

theorem busUp_of_starting {s : State} (hp : s.sys.phase ≠ .up) : s.busUp = false := by simp [State.busUp, hp]

theorem takesAsk_of_starting {s : State} (hp : s.sys.phase ≠ .up) (h : Ask) : s.takesAsk h = false := by
  simp [State.takesAsk, busUp_of_starting hp]

/-- An ASK that is not taken runs no request (R160, R168). -/
theorem exec_missed {c : Instr} {h : Ask} {q : Req} {s : State} (hc : ask? c = some (h, q))
    (hk : s.takesAsk h = false) : exec c s = .next (s.missAsk h) := by
  cases c <;> cases hc <;> exact State.take_missed hk _ _

/-- Another works bus with no exchange in progress, other inputs and another clock leave a start-up waiting. -/
theorem Waiting.congr {s t : State} (h : Waiting s) (htbc : t.tbc.slots = s.tbc.slots) (hcxp : t.cxp.contexts = [])
    (hatu : t.atu = s.atu) (hisi : t.isi = s.isi) (hex : t.bmu.exchange = .idle) : Waiting t :=
  ⟨htbc.trans h.slots, hcxp, by rw [hatu]; exact h.entries, by rw [hisi]; exact h.queue, by rw [hisi]; exact h.writer, hex⟩

/-- A command that is neither a request nor one of power and of the restore. -/
theorem Waiting.event {c : Instr} {s t : State} (hs : Waiting s) (hp : s.sys.phase ≠ .up) (hask : ask? c = none)
    (hc : isStartUp c = false) (ht : exec c s = .next t) : Waiting t := by
  have hbus := busUp_of_starting hp
  cases c with
  | unknownRequest h code d =>
    rw [show exec (.unknownRequest h code d) s = .next (s.missAsk h) from State.take_missed (takesAsk_of_starting hp h) _ _,
      hs.missAsk] at ht
    cases ht; exact hs
  | scanStart => rw [show exec .scanStart s = .next s by simp [exec, execScanStart, hbus]] at ht; cases ht; exact hs
  | call =>
    have : exec .call s = .next s := by simp only [exec, execCall, hbus]; split <;> simp
    rw [this] at ht; cases ht; exact hs
  | fetch =>
    have : exec .fetch s = .next s := by simp only [exec, execFetch, hbus]; repeat' split <;> simp_all
    rw [this] at ht; cases ht; exact hs
  | replyReceived station line r =>
    rw [show exec (.replyReceived station line r) s = .next s by simp [exec, execReplyReceived, hbus]] at ht
    cases ht; exact hs
  | replyWindowTimeout => cases ht; rw [hs.windowFailed]; exact hs
  | badFrame e => cases ht; rw [hs.windowFailed]; exact hs
  | answerEnd =>
    rw [show exec .answerEnd s = .next s by simp [exec, execAnswerEnd, hs.exchange]] at ht; cases ht; exact hs
  | noiseReception line =>
    simp only [exec, execNoiseReception, hs.exchange, Exchange.holds] at ht
    cases ht
    exact hs.congr (by simp) (by simp [hs.contexts]) (by simp) (by simp) (by cases line <;> exact hs.exchange)
  | allstop line => rw [show exec (.allstop line) s = .next s by simp [exec, execAllstop, hbus]] at ht; cases ht; exact hs
  | testPatternCopy line received =>
    simp only [exec, execTestPatternCopy] at ht
    repeat' split at ht
    all_goals cases ht
    · unfold State.copyEnded
      split <;> cases line <;> exact hs.congr rfl hs.contexts rfl rfl hs.exchange
    · exact hs
    · exact hs
  | realSecond =>
    cases ht
    exact hs.congr rfl (by simp [State.eachCtx, hs.contexts, Table.mapValues]) rfl rfl hs.exchange
  | suspendLimitReached ctx =>
    simp only [exec, execSuspendLimitReached, hs.ctxAt] at ht; cases ht; exact hs
  | phaseTimerExpiry ctx => simp only [exec, execPhaseTimerExpiry, hs.ctxAt] at ht; cases ht; exact hs
  | refusalCompletion ctx => simp only [exec, execRefusalCompletion, hs.ctxAt] at ht; cases ht; exact hs
  | cureExpiry slot =>
    have hcure : s.expireCure slot = s := by unfold State.expireCure; rw [hs.recAt]
    simp only [exec, execCureExpiry, hcure, ite_self] at ht
    cases ht; exact hs
  | keyTimerExpiry =>
    simp only [exec, execKeyTimerExpiry] at ht
    split at ht
    · rw [if_pos (.inr hp)] at ht
      cases ht
      exact hs.congr rfl hs.contexts rfl rfl hs.exchange
    · cases ht; exact hs
  | filterSample input =>
    simp only [exec, execFilterSample] at ht
    split at ht <;> cases ht
    · exact hs.changeInputs hp _
    · exact hs
  | pinChange input level =>
    simp only [exec, execPinChange] at ht
    split at ht <;> cases ht
    · exact hs.changeInputs hp _
    · exact hs.congr rfl hs.contexts rfl rfl hs.exchange
  | writerTakeItem =>
    cases ht
    rw [show s.takeItem = s by unfold State.takeItem; rw [hs.queue]; cases s.isi.writer <;> rfl]
    exact hs
  | blockWriteAck => simp only [exec, execBlockWriteAck, hs.writer] at ht; cases ht; exact hs
  | blockWriteTimeout left => simp only [exec, execBlockWriteTimeout, hs.writer] at ht; cases ht; exact hs
  | writerWaitEnd => simp only [exec, execWriterWaitEnd, hs.writer] at ht; cases ht; exact hs
  | rstAssert | rstNegate | powerOn | headerRestored | restoreComplete => cases hc
  | _ => cases hask

/-- No command but those of power and of the restore ends a start-up's wait (R151). -/
theorem StartUpLaw.exec {c : Instr} {s t : State} (h : StartUpLaw s) (hc : isStartUp c = false) (hsys : t.sys = s.sys)
    (ht : Machine.exec c s = .next t) : StartUpLaw t := by
  rw [startUpLaw_iff] at h ⊢
  intro hp
  rw [hsys] at hp
  have hs := h hp
  cases hask : ask? c with
  | none => exact hs.event hp hask hc ht
  | some p =>
    rw [exec_missed hask (takesAsk_of_starting hp _), hs.missAsk] at ht
    cases ht; exact hs

/-- What every command but those of power and of the restore keeps. -/
theorem exec_kept {c : Instr} {s t : State} (hc : isStartUp c = false) (ht : exec c s = .next t) : Kept s t :=
  have hm : Moves (TableLaw s ∧ WorkLaw s) s t := exec_moves hc (fun g => g.2.1) ht
  hm.kept fun hs => hs.exec hc hm.books.sys ht

/-! ## Power-on and RST (R151, R176) -/

/-- The part without power keeps of the image memory and of the pins what each law needs. -/
theorem Kept.unpowered {s t : State} (hclear : Cleared t) (hqueue : t.isi.queue = []) (himage : s.isi.image.wf → t.isi.image.wf)
    (hwait : Waiting t) (hclock : t.wck.time = 0) (hphase : t.sys.phase = .awaitRst ∨ t.sys.phase = .readHeader) :
    Kept s t where
  queue _ := by unfold QueueDistinct; rw [hqueue]; exact List.nodup_nil
  image := himage
  ranges _ := hclear.ranges
  clock _ := ⟨by rw [hclock]; exact Nat.zero_le _, fun time h => by rcases hphase with e | e <;> rw [e] at h <;> cases h⟩
  attention _ := hclear.attention
  inputs _ := fun h => by unfold State.sampling at h; rcases hphase with e | e <;> rw [e] at h <;> cases h
  start _ := startUpLaw_iff.2 fun _ => hwait
  marks _ _ := hclear.marks
  laws _ _ := ⟨hclear.table, hclear.work⟩

/-- The part as a FRESH or COMMISSION start-up leaves it before its inputs are first sampled (R176). -/
def State.emptyStart (s : State) (mode : StartMode) : State :=
  ({ s with
    wck := State.reset.wck
    isi := { s.isi with queue := Isi.freshQueue }
    sys := { s.sys with mode := mode, phase := .up } }).eachLine (fun x => { x with state := linesAt mode })

theorem State.startEmpty_eq (s : State) (mode : StartMode) : s.startEmpty mode = (s.emptyStart mode).restartInputs := rfl

/-- The first samples of the inputs are a move. -/
theorem Kept.restartInputs (s : State) (hstart : StartUpLaw s → StartUpLaw s.restartInputs) : Kept s s.restartInputs :=
  Moves.kept (.single .restartInputs) hstart

theorem Kept.startEmpty (s : State) (mode : StartMode) : Kept s (s.unpowered.startEmpty mode) := by
  have hclear : Cleared (s.unpowered.emptyStart mode) := ⟨rfl, rfl, rfl, rfl, rfl⟩
  have hfirst : Kept (s.unpowered.emptyStart mode) (s.unpowered.startEmpty mode) :=
    Kept.restartInputs _ fun _ => startUpLaw_of_up (by rw [State.restartInputs_sys]; rfl)
  exact {
    queue := fun _ => hfirst.queue Isi.freshQueue_nodup
    image := hfirst.image
    ranges := fun _ => hfirst.ranges hclear.ranges
    clock := fun _ => hfirst.clock ⟨Nat.zero_le _, nofun⟩
    attention := fun _ => hfirst.attention hclear.attention
    inputs := fun _ => inputLaw_restartInputs _
    start := fun _ => hfirst.start (startUpLaw_of_up rfl)
    marks := fun _ _ => hfirst.marks (startUpLaw_of_up rfl) hclear.marks
    laws := fun _ _ => hfirst.laws hclear.table hclear.work }

theorem Kept.powerStart (s : State) (mode : StartMode) : Kept s (s.powerStart mode) := by
  cases mode with
  | restore => exact Kept.unpowered ⟨rfl, rfl, rfl, rfl, rfl⟩ rfl id ⟨rfl, rfl, rfl, rfl, rfl, rfl⟩ rfl (.inr rfl)
  | fresh => exact Kept.startEmpty s _
  | commission => exact Kept.startEmpty s _

theorem Isi.powerLost_wf {i : Isi} (h : i.image.wf) (left : Remnant) : (i.powerLost left).image.wf := by
  unfold Isi.powerLost
  split
  · exact Isi.wf_leave h _ _ _
  · exact h

/-- The part as power comes back: no law looks at what the loss of power left but the form of the image memory. -/
theorem Kept.repower (s : State) (left : Remnant) : Kept s (s.repower left) :=
  Kept.unpowered (Cleared.unpowered _) rfl (fun h => Isi.powerLost_wf h left) (Waiting.unpowered _) rfl (.inl rfl)

theorem Kept.setRst (s : State) (on : Bool) : Kept s (s.setRst on) :=
  ⟨id, id, id, id, id, id, id, fun _ => id, fun h k => ⟨h, k⟩⟩

theorem Kept.execPowerOn {md1 md0 : Bool} {left : Remnant} {s t : State} (ht : execPowerOn md1 md0 left s = .next t) :
    Kept s t := by
  unfold Machine.execPowerOn at ht
  split at ht <;> cases ht
  · exact Kept.repower s left
  · exact (Kept.repower s left).trans (Kept.powerStart _ _)

/-- A cabinet restart but for the input filters keeps every law. -/
theorem Kept.restartCore (s : State) (hup : s.sys.phase = .up) : Kept s s.restartCore :=
  have hm : Moves (TableLaw s ∧ WorkLaw s) s s.restartCore := State.restartCore_moves s fun g => g.2.1
  hm.kept fun _ => startUpLaw_of_up (hm.books.sys ▸ hup)

theorem Kept.execRstAssert {s t : State} (ht : execRstAssert s = .next t) : Kept s t := by
  unfold Machine.execRstAssert at ht
  split at ht
  · cases ht; exact Kept.refl s
  · split at ht <;> cases ht
    · next hup => exact (Kept.restartCore s hup).trans (Kept.setRst _ _)
    · exact (Kept.unpowered (s := s) (Cleared.unpowered s) rfl id (Waiting.unpowered s) rfl (.inl rfl)).trans (Kept.setRst _ _)

theorem Kept.execRstNegate {md1 md0 : Bool} {s t : State} (ht : execRstNegate md1 md0 s = .next t) : Kept s t := by
  unfold Machine.execRstNegate at ht
  split at ht
  · cases ht; exact Kept.refl s
  · split at ht <;> cases ht
    · exact (Kept.setRst s false).trans (Kept.powerStart _ _)
    · refine (Kept.setRst s false).trans (Kept.restartInputs _ fun h => ?_)
      rw [startUpLaw_iff] at h ⊢
      intro hp
      rw [State.restartInputs_sys] at hp
      exact (h hp).restartInputs hp

/-! ## The header of a restore (R152, R177) -/

theorem State.applyHeader_phase (s : State) (h? : Option Header) :
    (s.applyHeader h?).sys.phase = .readRecords (h?.map Header.time) := by cases h? <;> rfl

/-- What WorkLaw says of a part that no start-up has brought up. -/
theorem WorkLaw.starting {s : State} (h : WorkLaw s) (hp : s.sys.phase ≠ .up) : s.cxp.contexts = [] ∧
    (∀ n, (s.stationAt n).ctx = none) ∧ ∀ n r, s.recAt n = some r → r.state.isWork = false := by
  obtain ⟨-, -, hwork, hbound, hup⟩ := h
  have hnil := hup hp
  have hnone : ∀ c, s.ctxAt c = none := fun c => by rw [State.ctxAt, hnil]; rfl
  refine ⟨hnil, fun n => ?_, fun n r hr => ?_⟩
  · by_contra hc
    obtain ⟨c, hc⟩ := Option.ne_none_iff_exists'.1 hc
    obtain ⟨x, hx, -⟩ := hbound n c hc
    rw [hnone] at hx; cases hx
  · by_contra hw
    obtain ⟨c, x, hx, -⟩ := hwork n r hr (by simpa using hw)
    rw [hnone] at hx; cases hx

/-- The header's values, or their absence, keep every law but that of the inputs, which are yet to be sampled. -/
theorem Kept.execHeaderRestored {undelivered : List Nat} {s t : State} (ht : execHeaderRestored undelivered s = .next t) :
    Kept s t := by
  unfold Machine.execHeaderRestored at ht
  split at ht
  case isFalse => cases ht; exact Kept.refl s
  case isTrue hphase =>
  cases ht
  have hp : s.sys.phase ≠ .up := by rw [hphase]; nofun
  generalize hh : s.isi.header undelivered = h?
  have hsound : ∀ h, h? = some h → h.Sound := fun h e => by
    rw [e] at hh
    unfold Isi.header at hh
    split at hh
    · cases hh
    · exact readHeader_sound hh
  have hstarting : (s.applyHeader h?).sys.phase ≠ .up := by rw [State.applyHeader_phase]; nofun
  have hwait : Waiting s → Waiting (s.applyHeader h?) := fun hs => by
    cases h? <;> exact ⟨hs.slots, hs.contexts, hs.entries, hs.queue, hs.writer, hs.exchange⟩
  have hstart : StartUpLaw s → StartUpLaw (s.applyHeader h?) := fun hs => startUpLaw_iff.2 fun _ =>
    hwait (startUpLaw_iff.1 hs hp)
  have hfirst : Kept (s.applyHeader h?) (s.applyHeader h?).restartInputs := Kept.restartInputs _ fun hs =>
    startUpLaw_iff.2 fun _ => (startUpLaw_iff.1 hs hstarting).restartInputs hstarting
  have hslots : (s.applyHeader h?).tbc.slots = s.tbc.slots := by cases h? <;> rfl
  have hbooks : (s.applyHeader h?).isi.queue = s.isi.queue ∧ (s.applyHeader h?).isi.image = s.isi.image ∧
      (s.applyHeader h?).wck = s.wck := by cases h? <;> exact ⟨rfl, rfl, rfl⟩
  obtain ⟨hqueue, himage, hwck⟩ := hbooks
  have hunbound : (∀ n, (s.stationAt n).ctx = none) → ∀ n, ((s.applyHeader h?).stationAt n).ctx = none := fun hst n => by
    cases h? with
    | none => exact hst n
    | some h =>
      by_cases hn : n < 16
      · have := ((hsound h rfl).stations ⟨n, hn⟩).1
        simpa [State.stationAt, State.applyHeader, hn] using this
      · rw [State.stationAt_ge (Nat.le_of_not_lt hn)]; rfl
  exact {
    queue := fun h => hfirst.queue (by unfold QueueDistinct; rw [hqueue]; exact h)
    image := fun h => hfirst.image (by unfold ImageCanonical; rw [himage]; exact h)
    ranges := fun h => hfirst.ranges (h.congr hslots)
    clock := fun h => hfirst.clock ⟨by rw [hwck]; exact h.1, fun time e => by
      rw [State.applyHeader_phase] at e
      obtain ⟨x, hx, rfl⟩ := Option.map_eq_some_iff.1 (Phase.readRecords.inj e)
      exact (hsound x hx).time⟩
    attention := fun h => hfirst.attention (by
      cases h? with
      | none => exact h.congr rfl rfl
      | some x => exact attentionLaw_of_sound h.ordered rfl)
    inputs := fun _ => inputLaw_restartInputs _
    start := fun h => hfirst.start (hstart h)
    marks := fun h _ => hfirst.marks (hstart h) (MarkLaw.of_empty (hwait (startUpLaw_iff.1 h hp)).entries)
    laws := fun htab hwork => by
      obtain ⟨hnil, hst, hrec⟩ := hwork.starting hp
      refine hfirst.laws (htab.congr hslots (by cases h? <;> rfl)) (WorkLaw.idle ?_ (hunbound hst) fun n r hr => ?_)
      · cases h? <;> exact hnil
      · rw [State.recAt_congr hslots] at hr; exact hrec n r hr }

end Sys2Proof.Machine
end

section
/-! The end of a restore (R178 to R180), and what one step keeps of every law (R1, R6, R63, R135, R173). -/

namespace Sys2Proof.Machine

/-! ## The attention list rebuilt (R180) -/

/-- Telling of a condition changes the attention list alone. -/
theorem State.tell_onlyAtu (s : State) (subj : Subject) (c : Cond) : ∃ a, s.tell subj c = { s with atu := a } := by
  unfold State.tell State.tellAt
  split
  · exact ⟨s.atu, rfl⟩
  · exact ⟨_, rfl⟩

/-- A fold of steps that each change the attention list alone does so. -/
theorem foldl_onlyAtu {β : Type} {f : State → β → State} (h : ∀ t x, ∃ a, f t x = { t with atu := a }) (l : List β) (s : State) :
    ∃ a, l.foldl f s = { s with atu := a } := by
  induction l generalizing s with
  | nil => exact ⟨s.atu, rfl⟩
  | cons x l ih =>
    obtain ⟨a, ha⟩ := h s x
    obtain ⟨b, hb⟩ := ih (f s x)
    exact ⟨b, by rw [List.foldl_cons, hb, ha]⟩

theorem State.tellMarks_onlyAtu (s : State) (subj : Subject) : ∃ a, s.tellMarks subj = { s with atu := a } :=
  foldl_onlyAtu (fun t c => t.tell_onlyAtu subj c) _ s

theorem State.rebuildList_onlyAtu (s : State) : ∃ a, s.rebuildList = { s with atu := a } := by
  obtain ⟨a, ha⟩ := ({ s with atu := { entries := [], overflow := 0, alm := false } } : State).tellMarks_onlyAtu .site
  obtain ⟨b, hb⟩ := foldl_onlyAtu (fun (t : State) n => t.tellMarks_onlyAtu (.record n)) s.usedSlots
    (({ s with atu := { entries := [], overflow := 0, alm := false } } : State).tellMarks .site)
  exact ⟨b, by rw [State.rebuildList, hb, ha]⟩

theorem AttentionLaw.tellMarks {s : State} (h : AttentionLaw s) (subj : Subject) : AttentionLaw (s.tellMarks subj) :=
  foldl_keeps (P := AttentionLaw) (fun _ c ht => ht.tell subj c) _ h

theorem State.rebuildList_attention (s : State) : AttentionLaw s.rebuildList := by
  refine foldl_keeps (P := AttentionLaw) (f := fun (t : State) n => t.tellMarks (.record n)) (fun _ n ht => ht.tellMarks _) _
    (AttentionLaw.tellMarks ?_ .site)
  exact ⟨Nat.zero_le _, Nat.zero_le _, List.Pairwise.nil, by simp⟩

/-- A subject of which no entry speaks is told of with all its marks. -/
theorem MarkLaw.tellMarks {s : State} (h : MarkLaw s) {subj : Subject} (hn : ∀ e ∈ s.atu.entries, e.subject ≠ subj) :
    MarkLaw (s.tellMarks subj) :=
  h.tells (List.Nodup.filter _ (by decide)) (fun _ hc => (List.mem_filter.1 hc).2) fun _ _ e he heq => hn e he heq.1

theorem State.mem_tellMarks {s : State} {subj : Subject} {e : Entry} (h : e ∈ (s.tellMarks subj).atu.entries) :
    e.subject = subj ∨ e ∈ s.atu.entries :=
  foldl_keeps (P := fun t : State => e ∈ t.atu.entries → e.subject = subj ∨ e ∈ s.atu.entries)
    (fun _ _ ht hm => (State.mem_tell hm).elim (fun h => .inl h.1) ht) _ .inr h

/-- Records of which no entry speaks yet are told of one after the other. -/
theorem MarkLaw.tellRecords {l : List Nat} (hl : l.Nodup) {s : State} (h : MarkLaw s)
    (hn : ∀ e ∈ s.atu.entries, ∀ n ∈ l, e.subject ≠ .record n) :
    MarkLaw (l.foldl (fun t n => t.tellMarks (.record n)) s) := by
  induction l generalizing s with
  | nil => exact h
  | cons n l ih =>
    obtain ⟨hnl, hl⟩ := List.nodup_cons.1 hl
    refine ih hl (h.tellMarks fun e he => hn e he n List.mem_cons_self) fun e he m hm => ?_
    rcases State.mem_tellMarks he with hs | he
    · rw [hs]; rintro ⟨⟩; exact hnl hm
    · exact hn e he m (List.mem_cons_of_mem _ hm)

theorem State.rebuildList_marks {s : State} (hw : s.tbc.slots.wf) : MarkLaw s.rebuildList := by
  refine MarkLaw.tellRecords ((State.usedSlots_sorted hw).imp Nat.ne_of_lt)
    (MarkLaw.tellMarks (MarkLaw.of_empty rfl) (by simp)) fun e he n _ => ?_
  rcases State.mem_tellMarks he with hs | he
  · rw [hs]; nofun
  · cases he

/-! ## The end of a restore (R179, R180) -/

/-- The check of the dig row sets the site's dig row and its IMAGE_SUSPECT at most (R179). -/
theorem State.checkDig_eq (s : State) : ∃ dig mark, s.checkDig =
    { s with tbc := { s.tbc with site := { s.tbc.site with digRow := dig } }, isi := { s.isi with suspectMark := mark } } := by
  unfold State.checkDig
  split
  · exact ⟨_, _, rfl⟩
  · exact ⟨_, _, rfl⟩

/-- The part as a restore leaves it: the records and the maps of the blocks, the dig row checked, the list rebuilt. -/
theorem State.finishRestore_eq (s : State) (headerTime : Option Nat) (bs : List (Nat × Taken)) :
    ∃ dig mark a, s.finishRestore headerTime bs =
      { s.applyRecords bs (restoredTime headerTime bs) with
        tbc := { (s.applyRecords bs (restoredTime headerTime bs)).tbc with site := { s.tbc.site with digRow := dig } }
        isi := { s.isi with suspectMark := mark }
        atu := a
        sys := { s.sys with phase := .up } } := by
  obtain ⟨dig, mark, h⟩ := (s.applyRecords bs (restoredTime headerTime bs)).checkDig_eq
  have hlist := (s.applyRecords bs (restoredTime headerTime bs)).checkDig.rebuildList_onlyAtu
  rw [h] at hlist
  obtain ⟨a, ha⟩ := hlist
  exact ⟨dig, mark, a, by rw [State.finishRestore, h, ha]; rfl⟩

/-- The part comes up with the list as it was rebuilt. -/
theorem MarkLaw.up {s : State} (h : MarkLaw s) : MarkLaw { s with sys := { s.sys with phase := .up } } :=
  h.keep rfl (MarksKept.of_same rfl rfl rfl rfl rfl)

theorem Kept.execRestoreComplete {undelivered : List Nat} {s t : State} (ht : execRestoreComplete undelivered s = .next t) :
    Kept s t := by
  unfold Machine.execRestoreComplete at ht
  split at ht
  case h_2 => cases ht; exact Kept.refl s
  case h_1 headerTime hphase =>
  cases ht
  have hp : s.sys.phase ≠ .up := by rw [hphase]; nofun
  generalize hbs : s.isi.blocks undelivered = bs
  have hsound : BlocksSound bs := hbs ▸ s.isi.blocks_sound undelivered
  have hattention := (s.applyRecords bs (restoredTime headerTime bs)).checkDig.rebuildList_attention
  have hmarks : MarkLaw (s.applyRecords bs (restoredTime headerTime bs)).checkDig.rebuildList := by
    refine State.rebuildList_marks ?_
    obtain ⟨dig, mark, h⟩ := (s.applyRecords bs (restoredTime headerTime bs)).checkDig_eq
    rw [h]
    exact restoredTable_wf hsound s.bmu.stations _
  have hlist : AttentionLaw (s.finishRestore headerTime bs) := hattention.congr rfl rfl
  have hmark : MarkLaw (s.finishRestore headerTime bs) := hmarks.up
  obtain ⟨dig, mark, a, h⟩ := s.finishRestore_eq headerTime bs
  rw [h] at hlist hmark ⊢
  exact {
    queue := id
    image := id
    ranges := fun _ => recordRanges_of_restored hsound rfl
    clock := fun hc => ⟨restoredTime_le (fun time e => hc.2 time (hphase.trans (congrArg _ e))) hsound.sound, nofun⟩
    attention := fun _ => hlist
    inputs := fun hin _ => by
      have hsampling : s.sampling = true := by unfold State.sampling; rw [hphase]
      obtain ⟨hstop, hkey⟩ := hin hsampling
      exact ⟨fun hn => hstop (Option.map_eq_none_iff.1 hn), hkey⟩
    start := fun _ => startUpLaw_of_up rfl
    marks := fun _ _ => hmark
    laws := fun _ hwork => by
      obtain ⟨hnil, hst, -⟩ := hwork.starting hp
      exact ⟨tableLaw_of_restored hsound rfl rfl, WorkLaw.idle hnil hst fun n r hr => loose_of_restored rfl hr⟩ }

/-! ## One step -/

/-- What every command keeps. -/
theorem exec_keeps {c : Instr} {s t : State} (ht : exec c s = .next t) : Kept s t := by
  cases hc : isStartUp c with
  | false => exact exec_kept hc ht
  | true =>
    cases c with
    | powerOn md1 md0 left => exact Kept.execPowerOn ht
    | rstAssert => exact Kept.execRstAssert ht
    | rstNegate md1 md0 => exact Kept.execRstNegate ht
    | headerRestored undelivered => exact Kept.execHeaderRestored ht
    | restoreComplete undelivered => exact Kept.execRestoreComplete ht
    | _ => cases hc

/-- A millisecond of real time moves the key timer alone. -/
theorem Kept.tick (s : State) : Kept s s.tick :=
  (State.tick_moves s).kept fun h => startUpLaw_iff.2 fun hp => by
    obtain ⟨h1, h2, h3, h4, h5, h6⟩ := startUpLaw_iff.1 h hp
    exact ⟨h1, h2, h3, h4, h5, h6⟩

/-- The commands that wait are no part of what any law looks at. -/
theorem Kept.pending (s : State) (rest : List Instr) : Kept s { s with pending := rest } :=
  ⟨id, id, id, id, id, id, id, fun _ => id, fun h k => ⟨h, k⟩⟩

theorem step_nil {s : State} (h : s.pending = []) : step s = .next s.tick := by unfold step; rw [h]

theorem step_cons {s : State} {c : Instr} {rest : List Instr} (h : s.pending = c :: rest) :
    step s = exec c { s with pending := rest } := by unfold step; rw [h]

/-- What every step keeps. -/
theorem step_kept {s t : State} (ht : step s = .next t) : Kept s t := by
  cases hp : s.pending with
  | nil => rw [step_nil hp] at ht; cases ht; exact Kept.tick s
  | cons c rest => rw [step_cons hp] at ht; exact (Kept.pending s rest).trans (exec_keeps ht)

/-! ## Works time while the part is up (R63) -/

theorem Moves.time_le {G : Prop} {s t : State} (h : Moves G s t) (hs : ClockLaw s) : s.wck.time ≤ t.wck.time :=
  (h.books.time hs.1).1

theorem State.restartInputs_time {s : State} (hs : ClockLaw s) : s.wck.time ≤ s.restartInputs.wck.time :=
  Moves.time_le (G := False) (.single .restartInputs) hs

/-- A command that is no power-on does not lower the works time of a part that is up. -/
theorem exec_time {c : Instr} {s t : State} (hclock : ClockLaw s) (hup : s.sys.phase = .up)
    (hpower : ∀ md1 md0 left, c ≠ .powerOn md1 md0 left) (ht : exec c s = .next t) : s.wck.time ≤ t.wck.time := by
  cases hc : isStartUp c with
  | false => exact Moves.time_le (G := False) (exec_moves hc False.elim ht) hclock
  | true =>
    cases c with
    | powerOn md1 md0 left => exact absurd rfl (hpower md1 md0 left)
    | rstAssert =>
      simp only [exec, execRstAssert, hup, if_true] at ht
      split at ht <;> cases ht
      · exact Nat.le_refl _
      · show s.wck.time ≤ s.restartCore.wck.time
        exact Moves.time_le (G := False) (State.restartCore_moves s False.elim) hclock
    | rstNegate md1 md0 =>
      simp only [exec, execRstNegate, hup, reduceCtorEq, if_false] at ht
      split at ht <;> cases ht
      · exact Nat.le_refl _
      · exact State.restartInputs_time (s := s.setRst false) hclock
    | headerRestored undelivered =>
      simp only [exec, execHeaderRestored, hup, reduceCtorEq, if_false] at ht
      cases ht; exact Nat.le_refl _
    | restoreComplete undelivered =>
      simp only [exec, execRestoreComplete, hup] at ht
      cases ht; exact Nat.le_refl _
    | _ => cases hc

/-- The works time of a part that is up does not go back in a step, unless power comes on. -/
theorem step_time {s t : State} (hclock : ClockLaw s) (hup : s.sys.phase = .up)
    (hpower : ∀ md1 md0 left, s.pending.head? ≠ some (.powerOn md1 md0 left)) (ht : step s = .next t) :
    s.wck.time ≤ t.wck.time := by
  cases hp : s.pending with
  | nil => rw [step_nil hp] at ht; cases ht; exact Nat.le_refl _
  | cons c rest =>
    rw [step_cons hp] at ht
    refine exec_time (s := { s with pending := rest }) hclock hup (fun md1 md0 left e => hpower md1 md0 left ?_) ht
    rw [hp, e]; rfl

/-! ## The order of the list and the handling of an entry (R133, R135, R136) -/

theorem listOrder : ListOrder := by
  refine ⟨by decide, fun n => ?_, fun n m => ?_, fun x y => ?_⟩
  · simp only [subjectRank]; omega
  · simp only [subjectRank]; omega
  · simp only [Entry.before, decide_eq_true_eq]

/-- In a list in order without a double, every entry that is handled takes its place, and a full list gives up the newest entry
of its lowest level to a higher one (R136). -/
theorem Atu.place_handles {a : Atu} (hlen : a.entries.length ≤ 64) (hord : a.entries.Pairwise (fun x y => y.before x = false))
    (hdup : a.entries.Nodup) (e : Entry) : HandlesEntry e a (a.place e) := by
  by_cases hroom : a.entries.length < 64
  · rw [Atu.place, if_pos hroom]
    exact ⟨rfl, fun _ => ⟨insertEntry_putInPlace e _ hord, rfl⟩, fun h => absurd hroom (by omega)⟩
  by_cases hlow : lowestLevel a.entries < e.level
  · obtain ⟨x, hx, hxl⟩ := exists_lowestLevel (l := a.entries) (by rintro h; simp [h] at hroom)
    have hnew := newestOf_spec (lowestLevel a.entries) a.entries
    rw [Atu.place, if_neg hroom, if_pos hlow]
    split
    · next old hold =>
      rw [hold] at hnew
      obtain ⟨hi, lo, hsplit, hlvl, hhi, hlo⟩ := hnew
      have herase : a.entries.erase old = hi ++ lo := by
        rw [hsplit] at hdup ⊢
        exact erase_of_nodup hdup
      refine ⟨rfl, fun h => absurd h hroom, fun _ => ⟨rfl, fun h => ?_, fun y hy _ => ?_⟩⟩
      · exact absurd (h x hx) (by omega)
      · refine ⟨hi, old, lo, hsplit, fun z hz => hlvl ▸ lowestLevel_le hz, hlvl ▸ hhi, hlvl ▸ hlo, ?_⟩
        rw [← herase]
        exact insertEntry_putInPlace e _ (hord.sublist List.erase_sublist)
    · next hold =>
      rw [hold] at hnew
      exact absurd hxl (hnew x hx)
  · rw [Atu.place, if_neg hroom, if_neg hlow]
    refine ⟨rfl, fun h => absurd h hroom, fun _ => ⟨rfl, fun _ => rfl, fun x hx hlt => ?_⟩⟩
    exact absurd (lowestLevel_le hx) (by omega)

end Sys2Proof.Machine

namespace Sys2Proof

open Machine

/-- Settles O57: moves keep the books, and so do power-on, RST and the ends of a restore. -/
theorem stepKeepsTheBooks : Obligations.StepKeepsTheBooks := by
  intro s t ht
  have h := step_kept ht
  exact ⟨h.queue, h.image, h.ranges, h.clock, fun hc hup hp => step_time hc hup hp ht⟩

/-- Settles O58: the list in order and its agreement with the marks are kept move by move, and a rebuilt list has both. -/
theorem stepKeepsTheAttentionListAndTheInputs : Obligations.StepKeepsTheAttentionListAndTheInputs := by
  refine ⟨fun s t ht => ?_, listOrder, fun e a hlen hord hdup => Atu.place_handles hlen hord hdup e⟩
  have h := step_kept ht
  exact ⟨h.attention, h.inputs, h.start, h.marks⟩

/-- Settles O59: moves keep the table and the work together, and a start-up sets both up afresh. -/
theorem stepKeepsTheTableAndTheWork : Obligations.StepKeepsTheTableAndTheWork :=
  fun _ _ ht => (step_kept ht).laws

end Sys2Proof
end

section
/-! How every request is answered (R7, R160, R168): a refused one changes nothing, and an ASK that is not taken misses its
window at most. -/

namespace Sys2Proof.Machine

/-! ## Rulings (R7) -/

/-- A ruling that answers something other than DONE leaves the state as it was, and nothing follows its ANSWER (R7). -/
def Fair (s : State) (v : Ruling) : Prop := v.result ≠ .done → v.st = s ∧ v.after = .nothing

@[simp] theorem Fair.refuseWith (s : State) (res : Result) (body : List Field) : Fair s (refuseWith s res body) :=
  fun _ => ⟨rfl, rfl⟩

@[simp] theorem Fair.refuse (s : State) (res : Result) : Fair s (refuse s res) := Fair.refuseWith s res []

theorem Fair.of_done {s : State} {v : Ruling} (h : v.result = .done) : Fair s v := fun hn => absurd h hn

@[simp] theorem Fair.done (s t : State) (body : List Field) : Fair s (done t body) := Fair.of_done rfl

@[simp] theorem Fair.doneRev (s t : State) (n : Nat) : Fair s (doneRev t n) := Fair.of_done rfl

theorem Refuses.fair {s : State} {v : Ruling} (h : Refuses s v) : Fair s v := by
  obtain ⟨res, body, rfl, -⟩ := h
  exact Fair.refuseWith s res body

@[simp] theorem fair_ite {s : State} {p : Prop} [Decidable p] {v w : Ruling} :
    Fair s (if p then v else w) ↔ (p → Fair s v) ∧ (¬ p → Fair s w) := by
  split <;> simp_all

/-- Another payload leaves a ruling fair. -/
theorem Fair.withBody {s : State} {v : Ruling} (h : Fair s v) (body : List Field) : Fair s { v with body := body } := h

theorem Fair.named {s : State} {n : Nat} {rev? : Option Nat} {own : Record → Ruling} (h : ∀ r, Fair s (own r)) :
    Fair s (s.named n rev? own) := by
  unfold State.named
  split
  · simp
  · simp [h]

/-! ## The own checks of each request -/

theorem State.bindOwn_fair (s : State) (k : CtxKind) (n station sender : Nat) (r : Record) (resumed : Bool) :
    Fair s (s.bindOwn k n station sender r resumed) := by
  rcases s.bindOwn_cases k n station sender r resumed with h | ⟨c, -, -, -, h⟩
  · exact h.fair
  · rw [h]; simp

theorem State.createOwn_fair (s : State) (row bay cls : Nat) (freeOv bondOv : Option Nat) :
    Fair s (s.createOwn row bay cls freeOv bondOv) := by
  unfold State.createOwn
  simp only [fair_ite, Fair.refuse, implies_true, true_and]
  intros
  split <;> simp

theorem State.replaceOwn_fair (s : State) (slot sender : Nat) (cls : Option Nat) (r : Record) :
    Fair s (s.replaceOwn slot sender cls r) := by
  unfold State.replaceOwn
  simp only [fair_ite, Fair.refuse, implies_true, true_and]
  intros
  split <;> simp

theorem State.beginOwn_fair (s : State) (sender row bay : Nat) : Fair s (s.beginOwn sender row bay) := by
  unfold State.beginOwn
  split
  · simp
  split
  · simp
  split
  · simp
  split
  · simp
  · exact s.bindOwn_fair _ _ _ _ _ _

theorem State.classOwn_fair (s : State) (c : Nat) (e : Option ClassEntry) : Fair s (s.classOwn c e) := by simp [State.classOwn]

theorem State.classFormOwn_fair (s : State) (c : Nat) (form : ClassForm) : Fair s (s.classFormOwn c form) := by
  cases form with
  | unset => exact s.classOwn_fair c none
  | part2 f =>
    unfold State.classFormOwn State.classPart2
    dsimp only
    split
    · simp
    · simp [State.classOwn_fair]

theorem State.siteOwn_fair (s : State) (x : SiteItems) : Fair s (s.siteOwn x) := by
  unfold State.siteOwn
  simp only [fair_ite, Fair.refuse, implies_true, true_and]
  intros
  exact Fair.of_done rfl

theorem State.stationOwn_fair (s : State) (n sender : Nat) (y : Station) : Fair s (s.stationOwn n sender y) := by
  simp [State.stationOwn]

theorem State.lineOwn_fair (s : State) (l : LineId) (state timeout gap : Option Nat) :
    Fair s (s.lineOwn l state timeout gap) := by
  simp [State.lineOwn]

theorem State.testOwn_fair (s : State) (l : LineId) (pattern : Vector Byte 16) (count : Nat) :
    Fair s (s.testOwn l pattern count) := by
  unfold State.testOwn
  simp only [fair_ite, Fair.refuse, implies_true, true_and]
  intros
  exact Fair.of_done rfl

theorem State.clearOwn_fair (s : State) (sender : Nat) (subj : Subject) (c : Cond) : Fair s (s.clearOwn sender subj c) := by
  unfold State.clearOwn
  split
  · exact Fair.named fun r => by simp [State.clearRecord]
  · simp
  · simp

theorem State.releaseOwn_fair (s : State) : Fair s s.releaseOwn := by simp [State.releaseOwn]

/-! ## Requests (R168, R169) -/

/-- A ruling of a request: it refuses fairly, and it refuses a sender without authority NOT_PERMITTED (R169). -/
structure Screened (s : State) (h : Ask) (q : Req) (v : Ruling) : Prop where
  fair : Fair s v
  barred : s.permits h.station q = false → v.result = .notPermitted

theorem Screened.screen {s : State} {v : Ruling} (hv : Fair s v) (h : Ask) (q : Req) (inRange : Bool) :
    Screened s h q (s.screen h q inRange v) where
  fair := by simp [State.screen, hv]
  barred hp := by rw [State.screen, if_pos hp]; rfl

theorem Screened.withBody {s : State} {h : Ask} {q : Req} {v : Ruling} (hv : Screened s h q v) (body : List Field) :
    Screened s h q { v with body := body } := ⟨hv.fair, hv.barred⟩

/-- A command is run as one request, screened and fair. -/
def RunsAs (c : Instr) (s : State) (h : Ask) (q : Req) : Prop :=
  ∃ v, exec c s = s.take h q.code v ∧ Screened s h q v

theorem RunsAs.request {c : Instr} {s : State} {h : Ask} {q : Req} (inRange : Bool) (own : Ruling)
    (hc : exec c s = s.request h q inRange own) (hown : Fair s own) : RunsAs c s h q :=
  ⟨_, hc, Screened.screen hown h q inRange⟩

theorem RunsAs.requestOn {c : Instr} {s : State} {h : Ask} {q : Req} (inRange : Bool) (n : Nat) (rev? : Option Nat)
    (own : Record → Ruling) (hc : exec c s = s.requestOn h q inRange n rev? own) (hown : ∀ r, Fair s (own r)) :
    RunsAs c s h q :=
  ⟨_, hc, Screened.screen (Fair.named hown) h q inRange⟩

theorem runsAs_find (h : Ask) (target : Target) (view : Nat) (s : State) : RunsAs (.find h target view) s h .find := by
  refine .request _ _ rfl ?_
  repeat' split
  all_goals simp

theorem runsAs_certify (h : Ask) (slot rev target cls : Nat) (freeOv bondOv cureEnd lockoff reason : Option Nat) (s : State) :
    RunsAs (.certify h slot rev target cls freeOv bondOv cureEnd lockoff reason) s h .certify :=
  .requestOn _ _ _ _ rfl fun r => by split <;> simp

theorem runsAs_start (h : Ask) (kind slot station rev : Nat) (s : State) : RunsAs (.start h kind slot station rev) s h .start :=
  .requestOn _ _ _ _ rfl fun r => by split <;> simp [State.bindOwn_fair]

theorem runsAs_resume (h : Ask) (slot rev : Nat) (station : Option Nat) (s : State) :
    RunsAs (.resume h slot rev station) s h .resume :=
  .requestOn _ _ _ _ rfl fun r => by split <;> simp [State.bindOwn_fair]

theorem runsAs_abort (h : Ask) (slot : Nat) (s : State) : RunsAs (.abort h slot) s h .abort :=
  .requestOn _ _ _ _ rfl fun r => by split <;> simp

theorem runsAs_closeAccept (h : Ask) (slot rev : Nat) (s : State) : RunsAs (.closeAccept h slot rev) s h .close :=
  .requestOn _ _ _ _ rfl fun r => by
    split
    · split <;> simp
    · simp

theorem runsAs_endWork (h : Ask) (s : State) : RunsAs (.endWork h) s h .endWork := by
  refine .request _ _ rfl ?_
  repeat' split
  all_goals simp

theorem runsAs_restroke (h : Ask) (s : State) : RunsAs (.restroke h) s h .restroke := by
  refine .request _ _ rfl ?_
  repeat' split
  all_goals simp [State.restrokeOwn]

theorem runsAs_clear (h : Ask) (kind ident cond : Nat) (s : State) : RunsAs (.clear h kind ident cond) s h .clear := by
  refine .request _ _ rfl ?_
  split
  · exact s.clearOwn_fair _ _ _
  · simp

/-- Every command that is a request runs as it. -/
theorem runsAs {c : Instr} {h : Ask} {q : Req} (hc : ask? c = some (h, q)) (s : State) : RunsAs c s h q := by
  cases c with
  | find => cases hc; exact runsAs_find _ _ _ s
  | list => cases hc; exact .request _ _ rfl (by simp [State.listOwn])
  | create => cases hc; exact .request _ _ rfl (s.createOwn_fair _ _ _ _ _)
  | amend | bored | retire | purge | closeWithdraw | closeRestart | closeRetest | closeAbandon | bind | unbind =>
    cases hc; exact .requestOn _ _ _ _ rfl fun r => by simp
  | replace => cases hc; exact .requestOn _ _ _ _ rfl (s.replaceOwn_fair _ _ _)
  | certify => cases hc; exact runsAs_certify _ _ _ _ _ _ _ _ _ _ s
  | start => cases hc; exact runsAs_start _ _ _ _ _ s
  | begin => cases hc; exact .request _ _ rfl (s.beginOwn_fair _ _ _)
  | abort => cases hc; exact runsAs_abort _ _ s
  | resume => cases hc; exact runsAs_resume _ _ _ _ s
  | closeAccept => cases hc; exact runsAs_closeAccept _ _ _ s
  | endWork => cases hc; exact runsAs_endWork _ s
  | restroke => cases hc; exact runsAs_restroke _ s
  | classWrite => cases hc; exact ⟨_, rfl, (Screened.screen (s.classFormOwn_fair _ _) _ _ _).withBody _⟩
  | classWritePart1 | classRead | calRead => cases hc; exact ⟨_, rfl, (Screened.screen (Fair.done _ _ _) _ _ _).withBody _⟩
  | siteWrite => cases hc; exact .request _ _ rfl (s.siteOwn_fair _)
  | siteRead | digQuery | digSet | relieveSet | relieveClear | calWrite | attentionRead | timeSet | inputRead | stationRead |
    lineRead => cases hc; exact .request _ _ rfl (by simp)
  | clear => cases hc; exact runsAs_clear _ _ _ _ s
  | release => cases hc; exact ⟨_, rfl, (Screened.screen s.releaseOwn_fair _ _ _).withBody _⟩
  | restart => cases hc; exact .request _ _ rfl (Fair.of_done rfl)
  | stationWrite => cases hc; exact .request _ _ rfl (s.stationOwn_fair _ _ _)
  | lineWrite => cases hc; exact .request _ _ rfl (s.lineOwn_fair _ _ _ _)
  | lineWriteTest => cases hc; exact .request _ _ rfl (s.testOwn_fair _ _ _)
  | _ => cases hc

/-! ## The answer (R168) -/

/-- A taken ruling that is fair and not DONE is answered on the line of its ASK, with the state as it was (R7, R168). -/
theorem State.take_refused {s : State} {h : Ask} {q : Req} {v : Ruling} (hk : s.takesAsk h = true) (hv : Fair s v)
    (hres : v.result ≠ .done) : s.take h q.code v = .next (Answered s h q v.result v.body) := by
  obtain ⟨hst, hafter⟩ := hv hres
  rw [State.take_taken hk, hst, hafter]
  rfl

/-- An ASK that is not taken fails the open window on its line, if there is one (R160). -/
theorem askMissed_missAsk (s : State) (h : Ask) : AskMissed s (s.missAsk h) h := by
  unfold State.missAsk
  refine ⟨fun hw => ?_, fun hw => ?_⟩
  · obtain ⟨hup, n, hx | hx⟩ := hw <;> simp [hx, hup, exec, execBadFrame]
  · split
    · next n l hx => exact if_neg fun (hl : _ ∧ l = h.line) => hw ⟨hl.1, n, .inl (hl.2 ▸ hx)⟩
    · next n l hx => exact if_neg fun (hl : _ ∧ l = h.line) => hw ⟨hl.1, n, .inr (hl.2 ▸ hx)⟩
    · rfl
    · rfl

/-- Settles O3: every request runs as one screened and fair ruling, and an ASK that is not taken runs none. -/
theorem refusedRequestChangesNothing : Obligations.RefusedRequestChangesNothing := by
  intro c h q s hc
  obtain ⟨v, hv, hscreened⟩ := runsAs hc s
  cases hk : s.takesAsk h with
  | false => exact ⟨_, exec_missed hc hk, fun _ => askMissed_missAsk s h, nofun⟩
  | true =>
    rw [hv, State.take_taken hk]
    refine ⟨_, rfl, nofun, fun _ => ⟨_, _, rfl, rfl, rfl, fun hres => ?_⟩⟩
    obtain ⟨hst, hafter⟩ := hscreened.fair hres
    rw [hst, hafter]
    rfl

end Sys2Proof.Machine
end

section
/-! The general refusal order (R169): authority, ranges, the named record, its revision. -/

namespace Sys2Proof.Machine

/-! ## Codes (R182) -/

/-- A code names a value of a list just where it is the value's code. -/
theorem ofCode_eq_some_iff {α : Type} [DecidableEq α] {all : List α} (hall : all.Nodup) {n : Nat} {x : α} :
    ofCode all n = some x ↔ x ∈ all ∧ n = codeIn all x := by
  unfold ofCode codeIn
  constructor
  · intro h
    split at h
    · cases h
    · next hn =>
      obtain ⟨hlt, rfl⟩ := List.getElem?_eq_some_iff.1 h
      refine ⟨List.getElem_mem hlt, ?_⟩
      rw [hall.idxOf_getElem]
      omega
  · rintro ⟨hx, rfl⟩
    rw [if_neg (Nat.succ_ne_zero _), Nat.add_sub_cancel]
    exact List.getElem?_idxOf hx

/-- The codes of a list are 1 to its length. -/
theorem codeOk_iff {α : Type} {all : List α} {n : Nat} : codeOk all n = true ↔ 1 ≤ n ∧ n ≤ all.length := by
  unfold codeOk ofCode
  split
  · next h => simp [h]
  · next h =>
    rw [Option.isSome_iff_ne_none, Ne, List.getElem?_eq_none_iff]
    omega

/-! ## Ranges (R169) -/

@[simp] theorem slotOk_iff {n : Nat} : slotOk n = true ↔ n < 512 := decide_eq_true_iff
@[simp] theorem classOk_iff {n : Nat} : classOk n = true ↔ n < 16 := decide_eq_true_iff
@[simp] theorem rowOk_iff {n : Nat} : rowOk n = true ↔ 1 ≤ n ∧ n ≤ 12 := decide_eq_true_iff
@[simp] theorem bayOk_iff {n : Nat} : bayOk n = true ↔ 1 ≤ n ∧ n ≤ 400 := decide_eq_true_iff
@[simp] theorem rigOk_iff {n : Nat} : rigOk n = true ↔ 1 ≤ n ∧ n < 16 := decide_eq_true_iff
@[simp] theorem within_iff {lo hi n : Nat} : within lo hi n = true ↔ lo ≤ n ∧ n ≤ hi := decide_eq_true_iff

@[simp] theorem withinOpt_iff {lo hi : Nat} {o : Option Nat} :
    withinOpt lo hi o = true ↔ ∀ n, o = some n → lo ≤ n ∧ n ≤ hi := by
  cases o <;> simp [withinOpt]

@[simp] theorem freeLenOk_iff {o : Option Nat} : freeLenOk o = true ↔ ∀ n, o = some n → 3000 ≤ n ∧ n ≤ 60000 := withinOpt_iff
@[simp] theorem bondLenOk_iff {o : Option Nat} : bondLenOk o = true ↔ ∀ n, o = some n → 3000 ≤ n ∧ n ≤ 20000 := withinOpt_iff

theorem overrideValue_eq_some {a : OverrideAction} {mm : Nat} : OverrideAction.value a = some mm ↔ a = .set mm := by
  cases a <;> simp [OverrideAction.value]

/-! ## Served requests -/

/-- A served request that is refused is answered, and nothing else changes (R7). -/
theorem Served.refused {s : State} {h : Ask} {q : Req} (hs : Served s h q) (res : Result) (body : List Field) :
    s.take h q.code (refuseWith s res body) = .next (Answered s h q res body) := State.take_taken hs.1 _ _

/-- The part once a request has been answered DONE. -/
def State.answeredDone (t : State) (h : Ask) (q : Req) (body : List Field) : State :=
  { t with bmu := t.bmu.answering h (answerTo q .done body) }

/-- A served request that is DONE answers in the state it has made. -/
theorem Served.done {s : State} {h : Ask} {q : Req} (hs : Served s h q) (t : State) (body : List Field) :
    s.take h q.code (Machine.done t body) = .next (t.answeredDone h q body) := State.take_taken hs.1 _ _

theorem Served.outOfRange {s : State} {h : Ask} {q : Req} (hs : Served s h q) {inRange : Bool} (hr : inRange = false)
    (own : Ruling) : s.request h q inRange own = .next (Answered s h q .badValue []) := by
  rw [State.request, State.screen, if_neg (by simp [hs.2]), if_pos hr]
  exact hs.refused .badValue []

theorem Served.inRange {s : State} {h : Ask} {q : Req} (hs : Served s h q) {inRange : Bool} (hr : inRange = true)
    (own : Ruling) : s.request h q inRange own = s.take h q.code own := by
  rw [State.request, State.screen_pass hs.2 hr]

/-- A request on a record is a request with the record's checks before its own. -/
theorem State.requestOn_eq (s : State) (h : Ask) (q : Req) (inRange : Bool) (n : Nat) (rev? : Option Nat)
    (own : Record → Ruling) : s.requestOn h q inRange n rev? own = s.request h q inRange (s.named n rev? own) := rfl

theorem Served.noRecord {s : State} {h : Ask} {q : Req} (hs : Served s h q) {inRange : Bool} (hr : inRange = true) {n : Nat}
    (hn : s.recAt n = none) (rev? : Option Nat) (own : Record → Ruling) :
    s.requestOn h q inRange n rev? own = .next (Answered s h q .noRecord []) := by
  rw [State.requestOn_eq, hs.inRange hr, State.named, hn]
  exact hs.refused .noRecord []

theorem Served.stale {s : State} {h : Ask} {q : Req} (hs : Served s h q) {inRange : Bool} (hr : inRange = true) {n rev : Nat}
    {r : Record} (hn : s.recAt n = some r) (hrev : rev ≠ s.revAt n) (own : Record → Ruling) :
    s.requestOn h q inRange n (some rev) own =
      .next (Answered s h q .stale [.u16 (s.revAt n), enum8 RecState.all r.state]) := by
  rw [State.requestOn_eq, hs.inRange hr, State.named, hn]
  simp only [Option.all_some, decide_eq_true_eq, if_neg hrev]
  exact hs.refused .stale _

/-- A request on a record that stands, at its revision where it carries one, meets its own checks. -/
theorem Served.onRecord {s : State} {h : Ask} {q : Req} (hs : Served s h q) {inRange : Bool} (hr : inRange = true) {n : Nat}
    {r : Record} (hn : s.recAt n = some r) {rev? : Option Nat} (hrev : ∀ rev, rev? = some rev → rev = s.revAt n)
    (own : Record → Ruling) : s.requestOn h q inRange n rev? own = s.take h q.code (own r) := by
  rw [State.requestOn_eq, hs.inRange hr, State.named, hn]
  cases rev? with
  | none => rfl
  | some rev => simp [hrev rev rfl]

/-! ## Requests that name a record (R169) -/

/-- A command is one request on the record of `slot`, in range where `good` holds. -/
def NamesRecord (c : Instr) (s : State) (h : Ask) (q : Req) (slot : Nat) (rev? : Option Nat) (good : Prop) : Prop :=
  ∃ inRange own, exec c s = s.requestOn h q inRange slot rev? own ∧ (inRange = true ↔ slot < 512 ∧ good)

theorem retireCode_isSome {n : Nat} : (retireCode n).isSome = true ↔
    n = codeIn RetireReason.all .abandoned ∨ n = codeIn RetireReason.all .supervisor := by
  unfold retireCode
  cases h : ofCode RetireReason.all n with
  | none =>
    refine iff_of_false nofun ?_
    rintro (rfl | rfl) <;> cases h
  | some x =>
    obtain ⟨-, rfl⟩ := (ofCode_eq_some_iff (by decide)).1 h
    cases x <;> decide

theorem certifyTarget_eq_some {n : Nat} {x : RecState} : certifyTarget n = some x ↔
    x ∈ [RecState.planned, .bored, .inserted, .curing, .ready, .locked, .retired] ∧ n = codeIn RecState.all x := by
  constructor
  · intro h
    have hx : ofCode RecState.all n = some x := by
      unfold certifyTarget at h
      split at h <;> cases h <;> assumption
    obtain ⟨-, rfl⟩ := (ofCode_eq_some_iff (by decide)).1 hx
    revert h
    cases x <;> decide
  · rintro ⟨hx, rfl⟩
    revert hx
    cases x <;> decide

/-- The values of a CERTIFY, each in its range, and those there that the target needs (R24). -/
theorem certifyValuesOk_iff {t : RecState} {cureEnd lockoff reason : Option Nat} :
    certifyValuesOk t cureEnd lockoff reason = true ↔
      (cureEnd.isSome ↔ t = .curing) ∧ (lockoff.isSome ↔ t = .locked) ∧ (reason.isSome ↔ t = .retired) ∧
        (∀ n, cureEnd = some n → n ≤ 4294967295) ∧ (∀ n, lockoff = some n → 1 ≤ n ∧ n ≤ 30000) ∧
        ∀ n, reason = some n → 1 ≤ n ∧ n ≤ 4 := by
  have hreason : reason.all (codeOk RetireReason.all) = true ↔ ∀ n, reason = some n → 1 ≤ n ∧ n ≤ 4 := by
    cases reason <;> simp [codeOk_iff, RetireReason.all]
  unfold certifyValuesOk
  simp only [decide_eq_true_eq, hreason, withinOpt_iff, Nat.zero_le, true_and, Config.max32, Config.maxLoad]

theorem namesRecord_start (h : Ask) (kind slot station rev : Nat) (s : State) :
    NamesRecord (.start h kind slot station rev) s h .start slot (some rev)
      (FieldsInRange (.start h kind slot station rev)) := by
  refine ⟨_, _, rfl, ?_⟩
  have hkind : codeOk CtxKind.all kind = true ↔ ∃ k, kind = codeIn CtxKind.all k := by
    rw [codeOk, Option.isSome_iff_exists]
    refine exists_congr fun k => (ofCode_eq_some_iff (by decide)).trans (and_iff_right ?_)
    cases k <;> decide
  simp only [decide_eq_true_eq, hkind, slotOk_iff, rigOk_iff, FieldsInRange]
  exact ⟨fun ⟨hk, hn, h1, h2⟩ => ⟨hn, hk, h1, by omega⟩, fun ⟨hn, hk, h1, h2⟩ => ⟨hk, hn, h1, by omega⟩⟩

theorem namesRecord_resume (h : Ask) (slot rev : Nat) (station : Option Nat) (s : State) :
    NamesRecord (.resume h slot rev station) s h .resume slot (some rev) (FieldsInRange (.resume h slot rev station)) := by
  refine ⟨_, _, rfl, ?_⟩
  have hrig : station.any rigOk = true ↔ ∃ n, station = some n ∧ 1 ≤ n ∧ n ≤ 15 := by
    cases station <;> simp [Nat.lt_succ_iff]
  simp only [decide_eq_true_eq, slotOk_iff, hrig, FieldsInRange]

theorem namesRecord_amend (h : Ask) (slot rev : Nat) (cls : Option Nat) (freeOv bondOv : OverrideAction) (s : State) :
    NamesRecord (.amend h slot rev cls freeOv bondOv) s h .amend slot (some rev)
      (FieldsInRange (.amend h slot rev cls freeOv bondOv)) := by
  refine ⟨_, _, rfl, ?_⟩
  have hcls : cls.all classOk = true ↔ ∀ n, cls = some n → n ≤ 15 := by cases cls <;> simp [Nat.lt_succ_iff]
  simp only [decide_eq_true_eq, slotOk_iff, hcls, freeLenOk_iff, bondLenOk_iff, overrideValue_eq_some, FieldsInRange]

theorem namesRecord_certify (h : Ask) (slot rev target cls : Nat) (freeOv bondOv cureEnd lockoff reason : Option Nat)
    (s : State) : NamesRecord (.certify h slot rev target cls freeOv bondOv cureEnd lockoff reason) s h .certify slot
      (some rev) (FieldsInRange (.certify h slot rev target cls freeOv bondOv cureEnd lockoff reason)) := by
  refine ⟨_, _, rfl, ?_⟩
  simp only [decide_eq_true_eq, slotOk_iff, classOk_iff, freeLenOk_iff, bondLenOk_iff, Option.any_eq_true,
    certifyTarget_eq_some, certifyValuesOk_iff, FieldsInRange, OverridesInRange]
  constructor
  · rintro ⟨hslot, hcls, hfree, hbond, x, ⟨hx, htarget⟩, hcure, hlock, hwhy, hcureR, hlockR, hwhyR⟩
    exact ⟨hslot, by omega, ⟨hfree, hbond⟩, hcureR, hlockR, hwhyR, x, hx, htarget, hcure, hlock, hwhy⟩
  · rintro ⟨hslot, hcls, ⟨hfree, hbond⟩, hcureR, hlockR, hwhyR, x, hx, htarget, hcure, hlock, hwhy⟩
    exact ⟨hslot, by omega, hfree, hbond, x, ⟨hx, htarget⟩, hcure, hlock, hwhy, hcureR, hlockR, hwhyR⟩

/-- Every request that carries a slot and a revision is one on the record of that slot. -/
theorem namesRecord {c : Instr} {h : Ask} {q : Req} {slot rev : Nat} (hc : ask? c = some (h, q))
    (hn : slotRevAndFields? c = some (slot, rev)) (s : State) : NamesRecord c s h q slot (some rev) (FieldsInRange c) := by
  cases c with
  | bored | closeWithdraw | closeAccept | closeRestart | closeRetest | closeAbandon | unbind =>
    cases hc; cases hn; exact ⟨_, _, rfl, by simp [FieldsInRange]⟩
  | amend => cases hc; cases hn; exact namesRecord_amend _ _ _ _ _ _ s
  | retire => cases hc; cases hn; exact ⟨_, _, rfl, by simp [FieldsInRange, retireCode_isSome]⟩
  | replace _ _ _ cls =>
    cases hc; cases hn
    exact ⟨_, _, rfl, by cases cls <;> simp [FieldsInRange, Nat.lt_succ_iff]⟩
  | certify => cases hc; cases hn; exact namesRecord_certify _ _ _ _ _ _ _ _ _ _ s
  | start => cases hc; cases hn; exact namesRecord_start _ _ _ _ _ s
  | resume => cases hc; cases hn; exact namesRecord_resume _ _ _ _ s
  | bind => cases hc; cases hn; exact ⟨_, _, rfl, by simp [FieldsInRange, Nat.lt_succ_iff, and_assoc]⟩
  | _ => cases hn

/-- PURGE and ABORT are requests on the record of their slot, whatever its revision. -/
theorem namesRecordAlone {c : Instr} {h : Ask} {q : Req} {slot : Nat} (hc : ask? c = some (h, q))
    (hn : slotAlone? c = some slot) (s : State) : NamesRecord c s h q slot none True := by
  cases c with
  | purge | abort => cases hc; cases hn; exact ⟨_, _, rfl, by simp⟩
  | _ => cases hn

/-- Ranges and then the record are screened before the own checks of a request that names one (R169). -/
theorem NamesRecord.screened {c : Instr} {s : State} {h : Ask} {q : Req} {slot : Nat} {rev? : Option Nat} {good : Prop}
    (hn : NamesRecord c s h q slot rev? good) (hs : Served s h q) :
    (¬ (slot < 512 ∧ good) → exec c s = .next (Answered s h q .badValue [])) ∧
      (slot < 512 → good → s.recAt slot = none → exec c s = .next (Answered s h q .noRecord [])) := by
  obtain ⟨inRange, own, hc, hr⟩ := hn
  rw [hc]
  exact ⟨fun hbad => hs.outOfRange (Bool.eq_false_iff.2 fun e => hbad (hr.1 e)) _,
    fun h1 h2 hnone => hs.noRecord (hr.2 ⟨h1, h2⟩) hnone _ _⟩

/-- Another revision than the record's is STALE (R7). -/
theorem NamesRecord.stale {c : Instr} {s : State} {h : Ask} {q : Req} {slot rev : Nat} {good : Prop}
    (hn : NamesRecord c s h q slot (some rev) good) (hs : Served s h q) (hslot : slot < 512) (hgood : good) {r : Record}
    (hrec : s.recAt slot = some r) (hrev : rev ≠ s.revAt slot) :
    exec c s = .next (Answered s h q .stale [.u16 (s.revAt slot), enum8 RecState.all r.state]) := by
  obtain ⟨inRange, own, hc, hr⟩ := hn
  rw [hc]
  exact hs.stale (hr.2 ⟨hslot, hgood⟩) hrec hrev _

/-! ## Authority (R169) -/

theorem permits_supervisor (s : State) (q : Req) : s.permits 0 q = true := by simp [State.permits]

theorem permits_iff (s : State) {n : Nat} (q : Req) (hn : n ≠ 0) : s.permits n q = true ↔
    ((s.stationAt n).kind = .winch ∨ (s.stationAt n).kind = .grout ∨ (s.stationAt n).kind = .monitor ∨
      (s.stationAt n).kind = .jack) ∧ (q = .find ∨ q = .begin ∨ q = .endWork) ∨
    (s.stationAt n).kind = .jack ∧ q = .restroke := by
  rw [State.permits, decide_eq_true_eq, or_iff_right hn]
  cases (s.stationAt n).kind <;> simp [mayAsk, or_assoc]

/-! ## An ASK that is no request of the table (R169) -/

theorem reqOf_eq_some {code : Nat} {q : Req} : reqOf code = some q ↔ code = q.code :=
  (ofCode_eq_some_iff (by decide)).trans (and_iff_right (by cases q <;> decide))

theorem readings_eq (s : State) : s.readings = inputReadings s := by
  have hread : ∀ i : Fin 4, asserted s.tbc.site s.ifu i = readsAsserted s i := fun i => Bool.decide_and _ _ |>.trans (by simp [readsAsserted])
  have hbit : ∀ b : Bool, (if b then 1 else 0) = b.toNat := fun b => by cases b <;> rfl
  simp only [State.readings, inputReadings, inputNumbers, flags, List.map_cons, List.map_nil, List.foldr_cons, List.foldr_nil,
    hread, hbit]
  congr 1
  omega

theorem Req.code_eq_release {q : Req} : q.code = 31 ↔ q = .release := by cases q <;> decide

theorem Req.code_inParts {q : Req} : (q.code = 17 ∨ q.code = 18 ∨ q.code = 25) ↔ q.inParts = true := by cases q <;> decide

/-- The part number that an ASK that is no request brought. -/
def partEchoed : AskDefect → List Field
  | .unknownCode => []
  | .misfit part | .selector part => part.toList.map Field.u8

/-- What the ANSWER of such an ASK carries, by its code: the readings of a RELEASE, the part of a request in parts. -/
theorem State.defectBody_eq (s : State) (code : Nat) (d : AskDefect) : s.defectBody code d =
    (if code = 31 then [inputReadings s] else if code = 17 ∨ code = 18 ∨ code = 25 then partEchoed d else []) := by
  unfold State.defectBody
  cases hq : reqOf code with
  | none =>
    have hne : ∀ q : Req, code ≠ q.code := fun q e => by rw [reqOf_eq_some.2 e] at hq; cases hq
    have h31 : code ≠ 31 := hne .release
    have hparts : ¬ (code = 17 ∨ code = 18 ∨ code = 25) :=
      fun h => h.elim (hne .classWrite) (Or.rec (hne .classRead) (hne .calRead))
    rw [if_neg h31, if_neg hparts]
  | some q =>
    obtain rfl := reqOf_eq_some.1 hq
    simp only [Req.code_eq_release, Req.code_inParts]
    split
    · next h => cases h; rw [if_pos rfl, readings_eq]
    · next hne h => cases h; rw [if_neg hne]; rfl
    · next hne h => cases h; rw [if_neg hne]; rfl
    · next d _ _ hrel hmis hsel =>
      rw [if_neg fun e => hrel (congrArg some e)]
      cases d with
      | unknownCode => simp [partEchoed]
      | misfit part => exact (hmis q part rfl rfl).elim
      | selector part => exact (hsel q part rfl rfl).elim

theorem execUnknownRequest_taken {s : State} {h : Ask} (hk : s.takesAsk h = true) (code : Nat) (d : AskDefect) {res : Result}
    (hown : s.defectOwn h code d = refuse s res) : exec (.unknownRequest h code d) s =
      .next { s with bmu := s.bmu.answering h { req := code, result := res, body := s.defectBody code d } } := by
  show s.take h code _ = _
  rw [State.take_taken hk, hown]
  rfl

/-- Settles O4: the screens come before every request's own checks. -/
theorem requestsFollowTheGeneralRefusalOrder : Obligations.RequestsFollowTheGeneralRefusalOrder := by
  refine ⟨permits_supervisor, fun s n q hn => permits_iff s q hn, fun c h q s hc hk hbar => ?_,
    fun c h q slot rev s hc hn hs => ?_, fun c h q slot s hc hn hs => ?_, ?_⟩
  · obtain ⟨v, hv, hscreened⟩ := runsAs hc s
    have hres := hscreened.barred hbar
    exact ⟨v.body, by rw [hv, State.take_refused hk hscreened.fair (by rw [hres]; nofun), hres]⟩
  · have hnames := namesRecord hc hn s
    obtain ⟨hbad, hnone⟩ := hnames.screened hs
    refine ⟨fun h => hbad fun hgood => ?_, hnone, fun r hslot hgood hr hrev => hnames.stale hs hslot hgood hr hrev⟩
    exact h.elim (Nat.not_le_of_lt hgood.1) fun hno => hno hgood.2
  · obtain ⟨hbad, hnone⟩ := (namesRecordAlone hc hn s).screened hs
    exact ⟨fun h => hbad fun hgood => Nat.not_le_of_lt hgood.1 h, fun hslot => hnone hslot trivial⟩
  · intro h code d s hk body answered hbody hanswered
    have hbody : body = s.defectBody code d := by rw [hbody, State.defectBody_eq]; cases d <;> rfl
    subst hbody
    refine ⟨fun hd => ?_, fun part q hd hq => ?_⟩
    · rw [hanswered]
      refine execUnknownRequest_taken hk code d ?_
      cases d with
      | selector part => exact absurd rfl (hd part)
      | unknownCode | misfit => rfl
    · subst hd
      rw [hanswered]
      refine execUnknownRequest_taken hk code _ ?_
      rw [State.defectOwn, reqOf_eq_some.2 hq, Option.any_some]
      split <;> rfl

end Sys2Proof.Machine
end

section
/-! FIND and LIST (R11 to R14): they answer from the Anchor Table and change nothing. -/

namespace Sys2Proof.Machine

/-! ## The order in the next CALL (R54, R60) -/

/-- The next CALL to a station that a running context binds carries the order of its context. -/
theorem CallOrder.eq_callOrder {s : State} {n c : Nat} {x : Context} {o : Order} (h : CallOrder s n o)
    (hk : (s.stationAt n).kind ≠ .monitor) (hc : (s.stationAt n).ctx = some c) (hx : s.ctxAt c = some x) :
    o = x.callOrder := by
  obtain ⟨hstop, hrun⟩ := (h.2 hk).2 c x hc hx
  unfold Context.callOrder
  split
  · next hr =>
    obtain ⟨hwinch, hpump, hjack⟩ := hrun hr
    cases hp : x.prog with
    | insert p => exact hwinch p hp
    | grout p => exact hpump p hp
    | stress p => exact hjack p (.inl hp)
    | destress p => exact hjack p (.inr hp)
  · next hr => exact hstop hr

/-- So does the model's. -/
theorem State.orderFor_bound {s : State} {n c : Nat} {x : Context} (hk : (s.stationAt n).kind ≠ .monitor)
    (hc : (s.stationAt n).ctx = some c) (hx : s.ctxAt c = some x) : s.orderFor n = x.callOrder := by
  unfold State.orderFor
  split
  · next h => exact absurd h hk
  · rw [hc, Option.bind_some, hx]

theorem CtxKind.stationKind_ne_monitor (k : CtxKind) : k.stationKind ≠ .monitor := by cases k <;> decide

/-- The order that the views of a record show is that of its next CALL (R106). -/
theorem State.orderFor_eq {s : State} {r : Record} {o : Order} {x : Context} (hw : WorkLaw s)
    (hx : r.context.bind s.ctxAt = some x) (ho : CallOrder s x.station o) : s.orderFor x.station = o := by
  obtain ⟨c, -, hc⟩ := Option.bind_eq_some_iff.1 hx
  obtain ⟨-, hctx, -⟩ := hw
  obtain ⟨-, -, -, hkind, hbound⟩ := hctx c x hc
  have hk : (s.stationAt x.station).kind ≠ .monitor := by rw [hkind]; exact CtxKind.stationKind_ne_monitor _
  rw [State.orderFor_bound hk hbound hc, ho.eq_callOrder hk hbound hc]

/-! ## Views (R12, R13, Table 1-6) -/

theorem State.imageStatus_eq (s : State) (n : Nat) : s.imageStatus n =
    (match s.isi.writer with
      | .writing i _ _ => if i = .slot n then 2 else 0
      | _ => 0) + if .slot n ∈ s.isi.queue then 1 else 0 := by
  unfold State.imageStatus
  cases s.isi.writer with
  | writing i block blocks =>
    dsimp only
    split
    · rfl
    · rw [Nat.zero_add]
  | idle => exact (Nat.zero_add _).symm
  | waiting => exact (Nat.zero_add _).symm

theorem State.identView_eq (s : State) (n : Nat) (r : Record) (o : Order) : s.identView n r = viewParts s n r o 1 := by
  simp [State.identView, viewParts, item8, item16, item32, enum8, State.isLive, State.imageStatus_eq, tendonLength, effFree,
    effBond, Function.comp_def] <;> rfl

theorem State.insertView_eq {s : State} {r : Record} {o : Order}
    (ho : ∀ x, r.context.bind s.ctxAt = some x → s.orderFor x.station = o) (n : Nat) :
    s.insertView r = viewParts s n r o 2 := by
  unfold State.insertView viewParts State.ctxOf
  cases hx : r.context.bind s.ctxAt with
  | none => simp [item16, item32]
  | some x => cases hp : x.prog <;> simp [item16, item32, ho x hx, hp]

theorem State.groutView_eq (s : State) (r : Record) (o : Order) (n : Nat) : s.groutView r = viewParts s n r o 3 := by
  unfold State.groutView viewParts State.ctxOf
  cases hx : r.context.bind s.ctxAt with
  | none => simp [item32] <;> rfl
  | some x => cases hp : x.prog <;> simp [item32, hp] <;> rfl

theorem State.stressView_eq {s : State} {r : Record} {o : Order}
    (ho : ∀ x, r.context.bind s.ctxAt = some x → s.orderFor x.station = o) (n : Nat) :
    s.stressView r = viewParts s n r o 4 := by
  unfold State.stressView viewParts State.ctxOf
  cases hx : r.context.bind s.ctxAt with
  | none => simp [item16]
  | some x =>
    cases hp : x.prog with
    | insert p | grout p => simp [item16, hp, Progress.jack?]
    | stress p | destress p =>
      simp [item16, ho x hx, hp, Progress.jack?, enum8] <;> cases o <;> rfl

theorem State.monitorView_eq (s : State) (r : Record) (o : Order) (n : Nat) : s.monitorView r = viewParts s n r o 5 := by
  simp [State.monitorView, viewParts, item16, driftLimit, Function.comp_def]

theorem State.condView_eq (s : State) (r : Record) (o : Order) (n : Nat) : s.condView n r = viewParts s n r o 6 := rfl

/-- A view that is allowed in the record's state has the items of Table 1-6. -/
theorem State.viewItems_eq {s : State} {n view : Nat} {r : Record} {o : Order} (h1 : 1 ≤ view) (h6 : view ≤ 6)
    (hmon : view = 5 → r.state = .locked ∨ r.state = .destressing ∨ r.state = .retired)
    (ho : view = 2 ∨ view = 4 → ∀ x, r.context.bind s.ctxAt = some x → s.orderFor x.station = o) :
    s.viewItems n r view = some (viewParts s n r o view) := by
  obtain rfl | rfl | rfl | rfl | rfl | rfl : view = 1 ∨ view = 2 ∨ view = 3 ∨ view = 4 ∨ view = 5 ∨ view = 6 := by omega
  · exact congrArg some (s.identView_eq n r o)
  · exact congrArg some (State.insertView_eq (ho (.inl rfl)) n)
  · exact congrArg some (s.groutView_eq r o n)
  · exact congrArg some (State.stressView_eq (ho (.inr rfl)) n)
  · exact (if_pos (hmon rfl)).trans (congrArg some (s.monitorView_eq r o n))
  · exact congrArg some (s.condView_eq r o n)

/-! ## FIND (R11) -/

theorem targetOk_position {row bay : Nat} :
    targetOk (.position row bay) = true ↔ (1 ≤ row ∧ row ≤ 12) ∧ 1 ≤ bay ∧ bay ≤ 400 := by simp [targetOk]

/-- What a target in range names. -/
theorem targetSlot_eq_some {s : State} {target : Target} {n : Nat} :
    targetOk target = true ∧ s.targetSlot target = some n ↔ target = .slot n ∧ n < 512 ∨
      ∃ row bay, target = .position row bay ∧ 1 ≤ row ∧ row ≤ 12 ∧ 1 ≤ bay ∧ bay ≤ 400 ∧ s.liveAt row bay = some n := by
  cases target with
  | slot m =>
    simp only [targetOk, slotOk_iff, State.targetSlot, Option.some.injEq, Target.slot.injEq, reduceCtorEq, false_and,
      exists_false, or_false]
    exact ⟨fun ⟨h, e⟩ => ⟨e, e ▸ h⟩, fun ⟨e, h⟩ => ⟨e ▸ h, e⟩⟩
  | position row bay =>
    rw [targetOk_position]
    simp [State.targetSlot, and_assoc]

/-- A served FIND in range meets its target. -/
theorem execFind_served {s : State} {h : Ask} {target : Target} {view : Nat} (hs : Served s h .find)
    (ht : targetOk target = true) (h1 : 1 ≤ view) (h6 : view ≤ 6) :
    exec (.find h target view) s = s.take h Req.find.code
      (match s.targetSlot target with
        | none => refuse s .noRecord
        | some n =>
          match s.recAt n with
          | none => refuse s .noRecord
          | some r =>
            match s.viewItems n r view with
            | none => refuse s .noRecord
            | some items => done s (s.viewBody n r view items)) :=
  hs.inRange (by simp [ht, h1, h6]) _

/-- Settles O5: a FIND in range answers by its target, the record there and the items of its view. -/
theorem findAnswersTheNamedRecord : Obligations.FindAnswersTheNamedRecord := by
  refine ⟨fun h target view s hs hbad => ?_, fun h target view s hs h1 h6 names hnames => ?_⟩
  · refine hs.outOfRange (Bool.eq_false_iff.2 fun hr => ?_) _
    obtain ⟨ht, hview⟩ := of_decide_eq_true hr
    rw [within_iff] at hview
    rcases hbad with ⟨n, rfl, hn⟩ | ⟨row, bay, rfl, hout⟩ | hv | hv
    · exact absurd (slotOk_iff.1 ht) (by omega)
    · have := targetOk_position.1 ht
      omega
    · omega
    · omega
  · have hslot : ∀ n, names n → targetOk target = true ∧ s.targetSlot target = some n := fun n hn =>
      targetSlot_eq_some.2 ((hnames n).1 hn)
    refine ⟨fun n r o hn hr hmon ho => ?_, fun n hn hr => ?_, fun row bay htarget hr1 hr2 hb1 hb2 hlive => ?_,
      fun n r hn hr hview hl hd hret => ?_⟩
    · obtain ⟨ht, hts⟩ := hslot n hn
      have hitems := State.viewItems_eq (n := n) h1 h6 hmon fun hv x hx =>
        State.orderFor_eq (ho hv).1 hx ((ho hv).2 x hx)
      rw [execFind_served hs ht h1 h6]
      simp only [hts, hr, hitems]
      exact hs.done s _
    · obtain ⟨ht, hts⟩ := hslot n hn
      rw [execFind_served hs ht h1 h6]
      simp only [hts, hr]
      exact hs.refused _ _
    · subst htarget
      rw [execFind_served hs (targetOk_position.2 ⟨⟨hr1, hr2⟩, hb1, hb2⟩) h1 h6]
      simp only [State.targetSlot, hlive]
      exact hs.refused _ _
    · obtain ⟨ht, hts⟩ := hslot n hn
      have hitems : s.viewItems n r view = none := by simp [State.viewItems, hview, hl, hd, hret]
      rw [execFind_served hs ht h1 h6]
      simp only [hts, hr, hitems]
      exact hs.refused _ _

/-! ## LIST (R14) -/

/-- In canonical form the used slots are the slots that hold a record, in ascending order. -/
theorem State.usedSlots_eq {s : State} (hw : s.tbc.slots.wf) (hlt : ∀ n r, s.recAt n = some r → n < 512) :
    s.usedSlots = (List.range 512).filter (fun n => (s.recAt n).isSome) := by
  refine List.Pairwise.eq_of_mem_iff (State.usedSlots_sorted hw) (List.pairwise_lt_range.filter _) fun n => ?_
  rw [State.mem_usedSlots hw, List.mem_filter, List.mem_range, Option.isSome_iff_exists]
  exact ⟨fun ⟨r, hr⟩ => ⟨hlt n r hr, r, hr⟩, fun h => h.2⟩

/-- A filter over the used slots that looks for a record is one over all slots. -/
theorem State.filter_usedSlots {s : State} (hw : s.tbc.slots.wf) (hlt : ∀ n r, s.recAt n = some r → n < 512)
    {p : Nat → Bool} (hp : ∀ n, p n = true → (s.recAt n).isSome = true) :
    s.usedSlots.filter p = (List.range 512).filter p := by
  rw [State.usedSlots_eq hw hlt, List.filter_filter]
  refine List.filter_congr fun n _ => ?_
  cases h : p n with
  | false => rfl
  | true => rw [hp n h]; rfl

theorem listMatches_eq (states : List Nat) (first last : Nat) (hasCond : Bool) (r : Record) :
    listMatches states first last hasCond r = (decide (codeIn RecState.all r.state ∈ states) && decide (first ≤ r.row) &&
      decide (r.row ≤ last) && (!hasCond || !r.conds.isEmpty)) := by
  unfold listMatches
  cases hasCond <;> cases r.conds <;> simp [Bool.and_assoc]

theorem continuation_eq (found : List Nat) : continuation found = (found[7]?.map (· + 1)).getD 512 := by
  unfold continuation
  split <;> simp_all

/-- Settles O6: the used slots are the slots that hold a record, in ascending order. -/
theorem listAnswersTheFirstEightMatches : Obligations.ListAnswersTheFirstEightMatches := by
  refine ⟨fun h states first last hasCond start s hs hbad => ?_, ?_⟩
  · refine hs.outOfRange (Bool.eq_false_iff.2 fun hr => ?_) _
    obtain ⟨hne, hcodes, hfirst, hle, hlast, hstart⟩ := of_decide_eq_true hr
    rw [slotOk_iff] at hstart
    have hlast : last ≤ 12 := hlast
    rcases hbad with h | ⟨c, hc, hout⟩ | h | h | h | h
    · exact hne h
    · have hcode : 1 ≤ c ∧ c ≤ 14 := codeOk_iff.1 (List.all_eq_true.1 hcodes c hc)
      omega
    all_goals omega
  · intro h states first last hasCond start s hs htable hne hcodes hfirst hle hlast hstart found hfound
    obtain ⟨hw, -, hrecs, -⟩ := htable
    have hall : states.all (codeOk RecState.all) = true :=
      List.all_eq_true.2 fun c hc => codeOk_iff.2 (hcodes c hc)
    have hslots : (s.listSlots states first last hasCond start).take 8 = found := by
      rw [hfound, State.listSlots, State.filter_usedSlots hw fun n r hr => (hrecs n r hr).1]
      · congr 2
        funext n
        simp only [Bool.decide_and, Bool.decide_eq_true]
        congr 2
        funext r
        exact listMatches_eq _ _ _ _ _
      · intro n hn
        obtain ⟨-, hn⟩ := of_decide_eq_true hn
        obtain ⟨r, hr, -⟩ := (Option.any_eq_true _ _).1 hn
        rw [hr]; rfl
    have hrange : (decide (states ≠ [] ∧ states.all (codeOk RecState.all) = true ∧ 1 ≤ first ∧ first ≤ last ∧
        last ≤ Config.rowCount ∧ slotOk start = true)) = true :=
      decide_eq_true ⟨hne, hall, hfirst, hle, hlast, slotOk_iff.2 hstart⟩
    show s.request h .list _ _ = _
    rw [hs.inRange hrange, hslots, State.listOwn, hs.done, continuation_eq]
    rfl

end Sys2Proof.Machine
end

section
/-! What a record update, a new record and the write queue leave (R4, R5, R173), said in the terms of the statements; AMEND and
BORED (R17, R18). -/

namespace Sys2Proof.Machine

/-! ## The write queue (R173) -/

theorem joined_append (q a b : List Item) : joined q (a ++ b) = joined (joined q a) b := List.foldl_append

theorem mem_joined {q is : List Item} {i : Item} : i ∈ joined q is ↔ i ∈ q ∨ i ∈ is := by
  induction is generalizing q with
  | nil => simp [joined]
  | cons j is ih =>
    show i ∈ joined (if j ∈ q then q else q ++ [j]) is ↔ _
    rw [ih]
    split
    · next h => simp only [List.mem_cons]; exact ⟨fun h => by tauto, by rintro (h1 | rfl | h2) <;> tauto⟩
    · simp [or_assoc]

/-- An item that waits is not handed again. -/
theorem joined_of_mem {q : List Item} {i : Item} (h : i ∈ q) (is : List Item) : joined q (i :: is) = joined q is := by
  show joined (if i ∈ q then q else q ++ [i]) is = _
  rw [if_pos h]

@[simp] theorem Isi.handed_nil (i : Isi) : i.handed [] = i := rfl

theorem Isi.handed_handed (i : Isi) (a b : List Item) : (i.handed a).handed b = i.handed (a ++ b) := by
  simp [Isi.handed, joined_append]

/-- An item that has just been handed is not handed again. -/
theorem Isi.handed_again (i : Isi) {a : List Item} {x : Item} (h : x ∈ a) (b : List Item) :
    (i.handed a).handed (x :: b) = (i.handed a).handed b := by
  unfold Isi.handed
  rw [joined_of_mem (mem_joined.2 (.inr h))]

/-- Handing an item to the write queue is all that it does to the image store. -/
@[simp] theorem State.hand_isi_eq (s : State) (i : Item) : (s.hand i).isi = s.isi.handed [i] := by
  unfold State.hand Isi.handed joined
  simp only [List.foldl_cons, List.foldl_nil]
  split <;> rfl

/-! ## The record update (R5) -/

/-- The slot that an update of every field that `f` gives leaves. -/
theorem State.slotAt_update_same {s : State} {n : Nat} {r : Record} (hr : s.recAt n = some r) (st : Nat)
    {f : Record → Record} (hf : f r ≠ r) : (s.update n st f).slotAt n = stepped s n st (f r) := by
  rw [State.update_some hr st hf]
  simp [stepped, Config.revisionModulus]

theorem State.update_isi_eq {s : State} {n : Nat} {r : Record} (hr : s.recAt n = some r) (st : Nat)
    {f : Record → Record} (hf : f r ≠ r) : (s.update n st f).isi = s.isi.handed [.slot n] := by
  rw [State.update_some hr st hf]
  simp

/-- An update that changes a field steps its slot, and touches nothing else the TBC keeps. -/
theorem State.update_slotIs {s : State} {n : Nat} {r : Record} (hr : s.recAt n = some r) (st : Nat)
    {f : Record → Record} (hf : f r ≠ r) : SlotIs s (s.update n st f) n (stepped s n st (f r)) :=
  ⟨State.slotAt_update_same hr st hf, fun m hm => State.update_slotAt_ne s n m st f hm, State.update_tbc_rest s n st f⟩

/-- The record update of R5. -/
theorem State.update_recordUpdate {s : State} {n : Nat} {r : Record} (hr : s.recAt n = some r) (st : Nat)
    (f : Record → Record) : RecordUpdate s (s.update n st f) n st r (f r) := by
  unfold RecordUpdate
  split
  · next hf => rw [State.update_same hr st hf]; exact ⟨rfl, rfl⟩
  · next hf => exact ⟨State.update_slotIs hr st hf, State.update_isi_eq hr st hf⟩

theorem State.revAt_update_same {s : State} {n : Nat} {r : Record} (hr : s.recAt n = some r) (st : Nat)
    (f : Record → Record) : (s.update n st f).revAt n = revAfter s n r (f r) := by
  unfold revAfter
  split
  · next hf => rw [State.update_same hr st hf]
  · next hf => rw [State.revAt_eq, State.slotAt_update_same hr st hf]; rfl

/-- The revision after an update that changes a field (R1, R5). -/
theorem State.revAt_stepped {s t : State} {n st : Nat} {r : Record} (h : t.slotAt n = stepped s n st r) :
    t.revAt n = (s.revAt n + 1) % 65536 := by rw [State.revAt_eq, h]; rfl

theorem State.update_onlyIn (s : State) (n st : Nat) (f : Record → Record) : OnlyIn [.tbc, .isi] s (s.update n st f) := by
  intro b hb
  cases b <;> simp_all [Block.agrees]

/-! ## Answers -/

@[simp] theorem State.answeredDone_slotAt (t : State) (h : Ask) (q : Req) (body : List Field) (n : Nat) :
    (t.answeredDone h q body).slotAt n = t.slotAt n := rfl

theorem State.answeredDone_bmu {s t : State} (hbmu : t.bmu = s.bmu) (h : Ask) (q : Req) (body : List Field) :
    (t.answeredDone h q body).bmu = s.bmu.answering h (answerTo q .done body) := by
  rw [State.answeredDone, hbmu]

theorem OnlyIn.refl (blocks : List Block) (s : State) : OnlyIn blocks s s := fun b _ => by cases b <;> exact rfl

theorem OnlyIn.trans {blocks : List Block} {s t u : State} (h : OnlyIn blocks s t) (k : OnlyIn blocks t u) :
    OnlyIn blocks s u := fun b hb => by
  have h1 := h b hb
  have h2 := k b hb
  cases b <;> exact Eq.trans h2 h1

theorem OnlyIn.mono {blocks more : List Block} {s t : State} (h : OnlyIn blocks s t) (hmore : ∀ b ∈ blocks, b ∈ more) :
    OnlyIn more s t := fun b hb => h b fun hin => hb (hmore b hin)

theorem OnlyIn.foldl {β : Type} {blocks : List Block} {f : State → β → State} (h : ∀ t x, OnlyIn blocks t (f t x))
    (l : List β) (s : State) : OnlyIn blocks s (l.foldl f s) :=
  foldl_keeps (P := fun t => OnlyIn blocks s t) (fun t x ht => ht.trans (h t x)) l (OnlyIn.refl blocks s)

/-- The ANSWER reaches the works bus alone. -/
theorem OnlyIn.answeredDone {blocks more : List Block} {s t : State} (h : OnlyIn blocks s t)
    (hmore : ∀ b ∈ .bmu :: blocks, b ∈ more) (a : Ask) (q : Req) (body : List Field) :
    OnlyIn more s (t.answeredDone a q body) := fun b hb => by
  have hb1 : b ∉ blocks := fun hin => hb (hmore b (List.mem_cons_of_mem _ hin))
  have hb2 : b ≠ .bmu := fun e => hb (hmore b (e ▸ List.mem_cons_self))
  have hst := h b hb1
  cases b with
  | bmu => exact absurd rfl hb2
  | _ => exact hst

/-- One record update, answered with the revision after it. -/
theorem State.recordDone {s : State} {n : Nat} {r : Record} (hr : s.recAt n = some r) (h : Ask) (q : Req)
    (f : Record → Record) : RecordDone s ((s.update n h.station f).answeredDone h q [.u16 ((s.update n h.station f).revAt n)])
      h q n r (f r) := by
  refine ⟨State.update_recordUpdate hr h.station f, ?_, ?_⟩
  · rw [State.answeredDone_bmu (State.update_bmu s n h.station f), State.revAt_update_same hr]
  · exact (State.update_onlyIn s n h.station f).answeredDone (by decide) _ _ _

/-- A served request whose own checks end in a record update. -/
theorem Served.doneRev {s : State} {h : Ask} {q : Req} (hs : Served s h q) (t : State) (n : Nat) :
    s.take h q.code (Machine.doneRev t n) = .next (t.answeredDone h q [.u16 (t.revAt n)]) := hs.done t _

/-! ## AMEND and BORED (R17, R18) -/

theorem execAmend_served {s : State} {h : Ask} {slot rev : Nat} {cls : Option Nat} {freeOv bondOv : OverrideAction}
    {r : Record} (hs : Served s h .amend) (hgood : slot < 512 ∧ (∀ c, cls = some c → c < 16) ∧
      (∀ f, freeOv = .set f → 3000 ≤ f ∧ f ≤ 60000) ∧ ∀ b, bondOv = .set b → 3000 ≤ b ∧ b ≤ 20000)
    (hr : s.recAt slot = some r) (hrev : rev = s.revAt slot) :
    exec (.amend h slot rev cls freeOv bondOv) s = s.take h Req.amend.code
      (if r.state = .planned ∨ r.state = .bored then
        doneRev (s.update slot h.station (fun q => { q with
          cls := cls.getD q.cls
          freeOv := OverrideAction.apply freeOv q.freeOv
          bondOv := OverrideAction.apply bondOv q.bondOv })) slot
      else refuse s .wrongState) := by
  refine hs.onRecord ?_ hr (by simp [hrev]) _
  obtain ⟨hslot, hcls, hfree, hbond⟩ := hgood
  have hall : cls.all classOk = true := by cases cls <;> simp_all
  simp only [slotOk_iff, hall, freeLenOk_iff, bondLenOk_iff, overrideValue_eq_some, decide_eq_true_eq]
  exact ⟨hslot, trivial, hfree, hbond⟩

theorem execBored_served {s : State} {h : Ask} {slot rev : Nat} {r : Record} (hs : Served s h .bored) (hslot : slot < 512)
    (hr : s.recAt slot = some r) (hrev : rev = s.revAt slot) :
    exec (.bored h slot rev) s = s.take h Req.bored.code
      (if r.state = .planned then doneRev (s.update slot h.station (fun q => { q with state := .bored })) slot
      else refuse s .wrongState) :=
  hs.onRecord (slotOk_iff.2 hslot) hr (by simp [hrev]) _

/-- Settles O8: both are one record update in the states that allow them. -/
theorem amendAndBoredChangeAnEarlyRecord : Obligations.AmendAndBoredChangeAnEarlyRecord := by
  refine ⟨fun h slot rev cls freeOv bondOv s hs good hgood => ⟨fun hbad => ?_, fun r hg hr hrev => ⟨fun hst => ?_, fun hp hb => ?_⟩⟩,
    fun h slot rev s r hs hslot hr hrev => ⟨fun hst => ?_, fun hst => ?_⟩⟩
  · obtain ⟨hout, -⟩ := (namesRecord_amend h slot rev cls freeOv bondOv s).screened hs
    refine hout fun hin => hbad (hgood.2 ⟨hin.1, fun c hc => Nat.lt_succ_of_le (hin.2.1 c hc), hin.2.2⟩)
  · rw [execAmend_served hs (hgood.1 hg) hr hrev, if_pos hst, hs.doneRev]
    refine ⟨_, rfl, ?_⟩
    have hdone := State.recordDone hr h .amend (fun q => { q with
      cls := cls.getD q.cls, freeOv := OverrideAction.apply freeOv q.freeOv, bondOv := OverrideAction.apply bondOv q.bondOv })
    cases freeOv <;> cases bondOv <;> exact hdone
  · rw [execAmend_served hs (hgood.1 hg) hr hrev, if_neg fun h => h.elim hp hb]
    exact hs.refused _ _
  · rw [execBored_served hs hslot hr hrev, if_pos hst, hs.doneRev]
    exact ⟨_, rfl, State.recordDone hr h .bored fun q => { q with state := .bored }⟩
  · rw [execBored_served hs hslot hr hrev, if_neg hst]
    exact hs.refused _ _

end Sys2Proof.Machine
end

section
/-! New records (R4, R15, R16, R21, R22): CREATE and REPLACE. -/

namespace Sys2Proof.Machine

/-! ## The generation and the slot of a new record (R1, R4) -/

/-- The generation of a new record at a position is given by the records there. -/
theorem NewGeneration.unique {s : State} {row bay g g' : Nat} (h : NewGeneration s row bay g)
    (h' : NewGeneration s row bay g') : g = g' := by
  have hle : ∀ {a b : Nat}, NewGeneration s row bay a → NewGeneration s row bay b → a ≤ b := by
    rintro a b ⟨-, rfl | ⟨m, r, hr, hrow, hbay, rfl⟩⟩ ⟨hb, -⟩
    · exact Nat.zero_le b
    · exact hb m r hr hrow hbay
  exact Nat.le_antisymm (hle h h') (hle h' h)

/-- What a fold over slots forms is its start value or one above the generation of a record of the position. -/
theorem genStep_fold_cases (row bay : Nat) (l : List (Nat × Slot)) (g : Nat) :
    l.foldl (genStep row bay) g = g ∨ ∃ p ∈ l, ∃ r, p.2.rec? = some r ∧ r.row = row ∧ r.bay = bay ∧
      l.foldl (genStep row bay) g = r.gen + 1 := by
  induction l generalizing g with
  | nil => exact .inl rfl
  | cons x l ih =>
    rw [List.foldl_cons]
    rcases ih (genStep row bay g x) with h | ⟨p, hp, r, hr⟩
    · rw [h]
      unfold genStep
      split
      · next r hx =>
        split
        · next hpos =>
          rcases Nat.le_total (r.gen + 1) g with hle | hle
          · exact .inl (Nat.max_eq_left hle)
          · exact .inr ⟨x, List.mem_cons_self, r, hx, hpos.1, hpos.2, Nat.max_eq_right hle⟩
        · exact .inl rfl
      · exact .inl rfl
    · exact .inr ⟨p, List.mem_cons_of_mem _ hp, r, hr⟩

/-- In canonical form the model's generation is that of R4. -/
theorem State.nextGen_newGeneration {s : State} (hw : s.tbc.slots.wf) (row bay : Nat) :
    NewGeneration s row bay (s.nextGen row bay) := by
  refine ⟨fun m r hr hrow hbay => ?_, ?_⟩
  · subst hrow hbay
    exact State.gen_lt_nextGen hr
  · rcases genStep_fold_cases row bay s.tbc.slots 0 with h | ⟨⟨m, x⟩, hm, r, hr, hrow, hbay, h⟩
    · exact .inl h
    · exact .inr ⟨m, r, by rw [State.recAt, State.slotAt, Table.get?_of_mem hw hm]; exact hr, hrow, hbay, h⟩

theorem State.nextGen_eq {s : State} (hw : s.tbc.slots.wf) {row bay g : Nat} (h : NewGeneration s row bay g) :
    s.nextGen row bay = g := (State.nextGen_newGeneration hw row bay).unique h

theorem State.lowestFree_eq {s : State} {n : Nat} (h : LowestFree s n) : s.lowestFree = some n := by
  obtain ⟨hn, hfree, hlow⟩ := h
  refine List.find?_range_eq_some.2 ⟨by simp [hfree], List.mem_range.2 hn, fun m hm => ?_⟩
  simpa [Option.isSome_iff_ne_none] using hlow m hm

theorem State.lowestFree_none {s : State} (h : ∀ n, n < 512 → s.recAt n ≠ none) : s.lowestFree = none := by
  refine List.find?_eq_none.2 fun n hn => ?_
  simpa using h n (List.mem_range.1 hn)

/-! ## A record placed in a slot (R1, R16) -/

theorem State.slotAt_place (s : State) (n m : Nat) (r : Record) : (s.place n r).slotAt m =
    if m = n then { rev := (s.revAt n + 1) % 65536, rec? := some r } else s.slotAt m := by
  rw [State.slotAt_congr (State.place_slots s n r)]
  by_cases e : m = n
  · subst e; simp [Config.revisionModulus]
  · rw [if_neg e, State.slotAt_putSlot_ne _ _ _ _ e]

theorem State.revAt_place (s : State) (n m : Nat) (r : Record) : (s.place n r).revAt m =
    if m = n then (s.revAt n + 1) % 65536 else s.revAt m := by
  rw [State.revAt_eq, State.slotAt_place]
  split <;> rfl

@[simp] theorem State.place_isi (s : State) (n : Nat) (r : Record) : (s.place n r).isi = s.isi.handed [.slot n] := by
  simp [State.place]

theorem State.place_tbc_rest (s : State) (n : Nat) (r : Record) :
    (s.place n r).tbc = { s.tbc with slots := (s.place n r).tbc.slots } := by
  simp only [State.place, State.hand_tbc]
  rfl

/-- A key that held nothing and is set hands the slot that it names to the write queue. -/
theorem State.setMap_new_isi {s : State} {key : Nat} (h : s.tbc.map.get? key = none) (n : Nat) :
    (s.setMap key (some n)).isi = s.isi.handed [.slot n] := by
  simp [State.setMap, h]

/-! ## CREATE (R15, R16) -/

theorem isRelied_iff {s : State} {row : Nat} :
    s.isRelied row = true ↔ 1 ≤ row ∧ row ≤ s.tbc.site.digRow ∧ s.isRelieved row = false := decide_eq_true_iff

/-- The part once CREATE has placed the record and set the position's map entry. -/
def State.created (s : State) (n : Nat) (r : Record) : State := (s.place n r).setMap (posKey r.row r.bay) (some n)

theorem State.created_tbc (s : State) (n : Nat) (r : Record) : (s.created n r).tbc =
    { s.tbc with slots := (s.created n r).tbc.slots, map := (s.created n r).tbc.map } := by
  unfold State.created
  rw [State.setMap_tbc_rest, State.place_tbc_rest]

theorem State.created_isi {s : State} {n : Nat} {r : Record} (h : s.liveAt r.row r.bay = none) :
    (s.created n r).isi = s.isi.handed [.slot n] := by
  unfold State.created
  rw [State.setMap_new_isi (by rw [State.place_map]; exact h), State.place_isi, Isi.handed_again _ List.mem_cons_self,
    Isi.handed_nil]

theorem State.created_onlyIn (s : State) (n : Nat) (r : Record) : OnlyIn [.tbc, .isi] s (s.created n r) := by
  intro b hb
  cases b <;> simp_all [Block.agrees, State.created]

/-- The own checks of CREATE passed: the record is placed. -/
theorem State.createOwn_placed {s : State} {row bay cls g n : Nat} {freeOv bondOv : Option Nat}
    (hlive : s.liveAt row bay = none) (hrel : s.isRelied row = false) (hgen : s.nextGen row bay = g) (hg : g ≤ 3)
    (hn : s.lowestFree = some n) : s.createOwn row bay cls freeOv bondOv =
      done (s.created n (newRecord row bay g cls freeOv bondOv none { time := s.wck.time, station := 0 }))
        [.u16 n, .u16 ((s.revAt n + 1) % 65536)] := by
  have hrev : (s.created n (newRecord row bay g cls freeOv bondOv none { time := s.wck.time, station := 0 })).revAt n =
      (s.revAt n + 1) % 65536 := by rw [State.created, State.revAt_setMap, State.revAt_place, if_pos rfl]
  rw [← hrev]
  unfold State.createOwn
  rw [if_neg (by simp [hlive]), if_neg (by simp [hrel]), if_neg (by rw [hgen]; exact Nat.not_lt.2 hg), hn, hgen]
  rfl

theorem execCreate_served {s : State} {h : Ask} {row bay cls : Nat} {freeOv bondOv : Option Nat} (hs : Served s h .create)
    (hrow : 1 ≤ row ∧ row ≤ 12) (hbay : 1 ≤ bay ∧ bay ≤ 400) (hcls : cls < 16) (hov : OverridesInRange freeOv bondOv) :
    exec (.create h row bay cls freeOv bondOv) s = s.take h Req.create.code (s.createOwn row bay cls freeOv bondOv) :=
  hs.inRange (decide_eq_true ⟨rowOk_iff.2 hrow, bayOk_iff.2 hbay, classOk_iff.2 hcls, freeLenOk_iff.2 hov.1,
    bondLenOk_iff.2 hov.2⟩) _

/-- Settles O7: the own checks in their order, and then a record in the lowest FREE slot. -/
theorem createPlacesAPlannedRecord : Obligations.CreatePlacesAPlannedRecord := by
  refine ⟨fun h row bay cls freeOv bondOv s hs hbad => ?_, ?_⟩
  · refine hs.outOfRange (Bool.eq_false_iff.2 fun hr => ?_) _
    obtain ⟨hrow, hbay, hcls, hfree, hbond⟩ := of_decide_eq_true hr
    rw [rowOk_iff] at hrow
    rw [bayOk_iff] at hbay
    rw [classOk_iff] at hcls
    have hov : OverridesInRange freeOv bondOv := ⟨freeLenOk_iff.1 hfree, bondLenOk_iff.1 hbond⟩
    rcases hbad with h | h | h | h | h | h
    · omega
    · omega
    · omega
    · omega
    · omega
    · exact h hov
  · intro h row bay cls freeOv bondOv s g hs htable hrow1 hrow2 hbay1 hbay2 hcls hfree hbond hgen
    have hgen := State.nextGen_eq htable.1 hgen
    rw [execCreate_served hs ⟨hrow1, hrow2⟩ ⟨hbay1, hbay2⟩ hcls ⟨hfree, hbond⟩]
    refine ⟨fun hlive => ?_, fun hlive hdig hrel => ?_, fun hlive hdig => ?_⟩
    · rw [State.createOwn, if_pos (Option.isSome_iff_ne_none.2 hlive)]
      exact hs.refused _ _
    · rw [State.createOwn, if_neg (by simp [hlive]), if_pos (isRelied_iff.2 ⟨hrow1, hdig, hrel⟩)]
      exact hs.refused _ _
    · have hrel : s.isRelied row = false := Bool.eq_false_iff.2 fun hr => by
        obtain ⟨-, hle, hflag⟩ := isRelied_iff.1 hr
        rcases hdig with hd | hd
        · omega
        · rw [hflag] at hd; cases hd
      refine ⟨fun hg => ?_, fun hg hfull => ?_, fun n hg hn => ?_⟩
      · rw [State.createOwn, if_neg (by simp [hlive]), if_neg (by simp [hrel]), if_pos (by rw [hgen]; exact hg)]
        exact hs.refused _ _
      · rw [State.createOwn, if_neg (by simp [hlive]), if_neg (by simp [hrel]),
          if_neg (by rw [hgen]; exact Nat.not_lt.2 hg), State.lowestFree_none hfull]
        exact hs.refused _ _
      · rw [State.createOwn_placed hlive hrel hgen hg (State.lowestFree_eq hn), hs.done]
        refine ⟨_, rfl, ?_, fun m hm => ?_, State.setMap_get? _ _ _, fun key hkey => ?_, State.created_tbc s n _,
          State.created_isi hlive, State.answeredDone_bmu (State.created_onlyIn s n _ .bmu (by decide)) _ _ _,
          (State.created_onlyIn s n _).answeredDone (by decide) _ _ _⟩
        · rw [State.answeredDone_slotAt, State.created, State.slotAt_setMap, State.slotAt_place, if_pos rfl]
        · rw [State.answeredDone_slotAt, State.created, State.slotAt_setMap, State.slotAt_place, if_neg hm]
        · exact (State.setMap_get?_ne _ _ _ _ hkey).trans (by rw [State.place_map])

end Sys2Proof.Machine
end

section
/-! REPLACE and PURGE (R20 to R22): the links of records to each other. -/

namespace Sys2Proof.Machine

/-! ## REPLACE (R21, R22) -/

/-- The part once REPLACE has linked the old record and placed the new one. -/
def State.replaced (s : State) (slot sender n : Nat) (q : Record) : State :=
  (s.update slot sender (fun r => { r with replacedBy := some n })).place n q

theorem setReplacedBy_ne {r : Record} (h : r.replacedBy = none) (n : Nat) : { r with replacedBy := some n } ≠ r := fun e => by
  have := congrArg Record.replacedBy e
  rw [h] at this; cases this

theorem slot_ne_of_free {s : State} {slot n : Nat} {r : Record} (hr : s.recAt slot = some r) (hn : s.recAt n = none) :
    slot ≠ n := by
  rintro rfl
  rw [hn] at hr; cases hr

section
variable {s : State} {slot n : Nat} {r : Record} (hr : s.recAt slot = some r) (hlink : r.replacedBy = none)
  (hn : s.recAt n = none)
include hr

include hlink hn in
/-- The two slots that a REPLACE writes, and every other. -/
theorem State.slotAt_replaced (sender : Nat) (q : Record) :
    (s.replaced slot sender n q).slotAt slot = stepped s slot sender { r with replacedBy := some n } ∧
      (s.replaced slot sender n q).slotAt n = Slot.mk ((s.revAt n + 1) % 65536) (some q) ∧
      ∀ m, m ≠ slot → m ≠ n → (s.replaced slot sender n q).slotAt m = s.slotAt m := by
  have hne : slot ≠ n := slot_ne_of_free hr hn
  have hrev : (s.update slot sender (fun r => { r with replacedBy := some n })).revAt n = s.revAt n := by
    rw [State.revAt_eq, State.update_slotAt_ne _ _ _ _ _ hne.symm]; rfl
  unfold State.replaced
  refine ⟨?_, ?_, fun m hm hmn => ?_⟩
  · rw [State.slotAt_place, if_neg hne]
    exact State.slotAt_update_same hr sender (setReplacedBy_ne hlink n)
  · rw [State.slotAt_place, if_pos rfl, hrev]
  · rw [State.slotAt_place, if_neg hmn, State.update_slotAt_ne _ _ _ _ _ hm]

include hlink in
theorem State.replaced_isi (sender : Nat) (q : Record) :
    (s.replaced slot sender n q).isi = s.isi.handed [.slot slot, .slot n] := by
  rw [State.replaced, State.place_isi, State.update_isi_eq hr sender (setReplacedBy_ne hlink n), Isi.handed_handed]
  rfl

include hlink hn in
/-- The own checks of REPLACE passed: the records are linked. -/
theorem State.replaceOwn_placed {g sender : Nat} {cls : Option Nat}
    (hok : ¬ (s.isLive slot r = false ∨ r.state.isWork = true ∨ r.state = .suspect))
    (hgen : s.nextGen r.row r.bay = g) (hg : g ≤ 3) (hfree : s.lowestFree = some n) :
    s.replaceOwn slot sender cls r = done (s.replaced slot sender n
        (newRecord r.row r.bay g (cls.getD r.cls) none none (some slot) { time := s.wck.time, station := 0 }))
      [.u16 n, .u16 ((s.revAt n + 1) % 65536), .u16 ((s.revAt slot + 1) % 65536)] := by
  obtain ⟨h1, h2, -⟩ := State.slotAt_replaced hr hlink hn sender
    (newRecord r.row r.bay g (cls.getD r.cls) none none (some slot) { time := s.wck.time, station := 0 })
  rw [← State.revAt_stepped h1, show (s.revAt n + 1) % 65536 = _ from (congrArg Slot.rev h2).symm, ← State.revAt_eq,
    State.replaceOwn, if_neg hok, if_neg (by simp [hlink]), if_neg (by rw [hgen]; exact Nat.not_lt.2 hg), hfree, hgen]
  rfl

end

theorem State.replaced_tbc (s : State) (slot sender n : Nat) (q : Record) : (s.replaced slot sender n q).tbc =
    { s.tbc with slots := (s.replaced slot sender n q).tbc.slots } := by
  unfold State.replaced
  rw [State.place_tbc_rest, State.update_tbc_rest]

theorem State.replaced_onlyIn (s : State) (slot sender n : Nat) (q : Record) :
    OnlyIn [.tbc, .isi] s (s.replaced slot sender n q) := by
  intro b hb
  cases b <;> simp_all [Block.agrees, State.replaced]

theorem execReplace_served {s : State} {h : Ask} {slot rev : Nat} {cls : Option Nat} {r : Record} (hs : Served s h .replace)
    (hslot : slot < 512) (hcls : ∀ c, cls = some c → c < 16) (hr : s.recAt slot = some r) (hrev : rev = s.revAt slot) :
    exec (.replace h slot rev cls) s = s.take h Req.replace.code (s.replaceOwn slot h.station cls r) := by
  have hall : cls.all classOk = true := by cases cls <;> simp_all
  exact hs.onRecord (decide_eq_true ⟨slotOk_iff.2 hslot, hall⟩) hr (by simp [hrev]) _

/-- Settles O11: the own checks in their order, and then the two linked records. -/
theorem replaceLinksANewRecord : Obligations.ReplaceLinksANewRecord := by
  intro h slot rev cls s r g hs htable hslot hcls hr hrev hgen
  have hgen := State.nextGen_eq htable.1 hgen
  rw [execReplace_served hs hslot hcls hr hrev]
  refine ⟨fun hbad => ?_, fun hlive hwork hsuspect => ?_⟩
  · have hbad : s.isLive slot r = false ∨ r.state.isWork = true ∨ r.state = .suspect :=
      hbad.imp_left fun hl => decide_eq_false hl
    rw [State.replaceOwn, if_pos hbad]
    exact hs.refused _ _
  have hok : ¬ (s.isLive slot r = false ∨ r.state.isWork = true ∨ r.state = .suspect) := by
    rw [State.isLive, hlive]; simp [hwork, hsuspect]
  refine ⟨fun hby => ?_, fun hby hg => ?_, fun hby hg hfull => ?_, fun n hby hg hn => ?_⟩
  · rw [State.replaceOwn, if_neg hok, if_pos (Option.isSome_iff_ne_none.2 hby)]
    exact hs.refused _ _
  · rw [State.replaceOwn, if_neg hok, if_neg (by simp [hby]), if_pos (by rw [hgen]; exact hg)]
    exact hs.refused _ _
  · rw [State.replaceOwn, if_neg hok, if_neg (by simp [hby]), if_neg (by rw [hgen]; exact Nat.not_lt.2 hg),
      State.lowestFree_none hfull]
    exact hs.refused _ _
  · have hslots := State.slotAt_replaced hr hby hn.2.1 h.station
      (newRecord r.row r.bay g (cls.getD r.cls) none none (some slot) { time := s.wck.time, station := 0 })
    obtain ⟨hold, hnew, hrest⟩ := hslots
    rw [State.replaceOwn_placed hr hby hn.2.1 hok hgen hg (State.lowestFree_eq hn), hs.done]
    exact ⟨_, rfl, hold, hnew, hrest, State.replaced_tbc _ _ _ _ _, State.replaced_isi hr hby _ _,
      State.answeredDone_bmu (State.replaced_onlyIn _ _ _ _ _ .bmu (by decide)) _ _ _,
      (State.replaced_onlyIn _ _ _ _ _).answeredDone (by decide) _ _ _⟩

/-! ## PURGE (R20) -/

/-- Updates of distinct slots hand those that change, in their order (R5). -/
theorem State.updates_isi (st : Nat) (f : Record → Record) {l : List Nat} (hl : l.Nodup) (s : State) :
    (l.foldl (fun t n => t.update n st f) s).isi =
      s.isi.handed ((l.filter (fun n => (s.recAt n).any (fun r => decide (f r ≠ r)))).map Item.slot) := by
  induction l generalizing s with
  | nil => rfl
  | cons n l ih =>
    obtain ⟨hnl, hl⟩ := List.nodup_cons.1 hl
    have hrest : l.filter (fun m => ((s.update n st f).recAt m).any (fun r => decide (f r ≠ r))) =
        l.filter (fun m => (s.recAt m).any (fun r => decide (f r ≠ r))) :=
      List.filter_congr fun m hm => by rw [State.recAt_update_ne _ _ _ _ _ (fun (e : m = n) => hnl (e ▸ hm))]
    rw [List.foldl_cons, ih hl, hrest]
    cases hr : s.recAt n with
    | none => rw [State.update_none hr, List.filter_cons_of_neg (by simp [hr])]
    | some r =>
      by_cases hf : f r = r
      · rw [State.update_same hr st hf, List.filter_cons_of_neg (by simp [hr, hf])]
      · rw [State.update_isi_eq hr st hf, Isi.handed_handed, List.filter_cons_of_pos (by simp [hr, hf])]
        rfl

theorem unlink_ne_iff {n : Nat} {r : Record} : unlink n r ≠ r ↔ r.replaces = some n ∨ r.replacedBy = some n := by
  constructor
  · intro h
    by_contra hno
    rw [not_or] at hno
    refine h ?_
    rw [unlink, if_neg hno.1, if_neg hno.2]
  · rintro (h | h) e
    · have := congrArg Record.replaces e
      simp [unlink, h] at this
    · have := congrArg Record.replacedBy e
      simp [unlink, h] at this

theorem State.recAt_purged (s : State) (n m : Nat) : (s.purged n).recAt m = if m = n then none else s.recAt m := by
  rw [State.recAt, State.slotAt_purged]
  split <;> rfl

/-- The slots that a PURGE hands: its own, and then each that held a link to it. -/
theorem State.purge_isi {s : State} (h : TableLaw s) (n st : Nat) : (s.purge n st).isi =
    s.isi.handed (.slot n :: ((List.range 512).filter (fun m => decide (m ≠ n) &&
      (s.recAt m).any (fun q => decide (q.replaces = some n ∨ q.replacedBy = some n)))).map Item.slot) := by
  obtain ⟨hw, -, hrecs, -⟩ := h
  have hpw := State.purged_wf hw n
  have hlt : ∀ m r, (s.purged n).recAt m = some r → m < 512 := fun m r hr => by
    rw [State.recAt_purged] at hr
    split at hr
    · cases hr
    · exact (hrecs m r hr).1
  have hcut : (s.purged n).isi = s.isi.handed [.slot n] := by simp [State.purged]
  have hholds : ∀ m, ((s.purged n).recAt m).any (fun r => decide (unlink n r ≠ r)) = (decide (m ≠ n) &&
      (s.recAt m).any (fun q => decide (q.replaces = some n ∨ q.replacedBy = some n))) := fun m => by
    rw [State.recAt_purged]
    by_cases e : m = n
    · simp [e]
    · rw [if_neg e]
      simp only [unlink_ne_iff]
      simp [e]
  rw [State.purge_eq, State.updates_isi st _ ((State.usedSlots_sorted hpw).imp Nat.ne_of_lt), hcut, Isi.handed_handed,
    State.filter_usedSlots hpw hlt (fun m hm => by
      obtain ⟨r, hr, -⟩ := (Option.any_eq_true _ _).1 hm
      rw [hr]; rfl), List.singleton_append]
  simp only [hholds]

theorem State.purge_tbc (s : State) (n st : Nat) : (s.purge n st).tbc = { s.tbc with slots := (s.purge n st).tbc.slots } := by
  have hrest : ∀ t : State, ∀ m, ({ (t.update m st (unlink n)).tbc with slots := [] } : Tbc) = { t.tbc with slots := [] } :=
    fun t m => by rw [State.update_tbc_rest]
  have hfold := foldl_same (fun t : State => ({ t.tbc with slots := [] } : Tbc)) (fun t m => t.update m st (unlink n)) hrest
    (s.purged n).usedSlots (s.purged n)
  have hcut : (s.purged n).tbc = { s.tbc with slots := (s.purged n).tbc.slots } := by
    simp only [State.purged, State.untell_tbc, State.hand_tbc]; rfl
  rw [← State.purge_eq, hcut] at hfold
  have key : ∀ a b : Tbc, ({ a with slots := [] } : Tbc) = { b with slots := [] } → a = { b with slots := a.slots } := by
    rintro ⟨⟩ ⟨⟩ h
    cases h; rfl
  exact key _ _ hfold

theorem State.purge_onlyIn (s : State) (n st : Nat) : OnlyIn [.tbc, .isi, .atu] s (s.purge n st) := by
  have hcut : OnlyIn [.tbc, .isi, .atu] s (s.purged n) := by
    intro b hb
    cases b <;> simp_all [Block.agrees, State.purged]
  rw [State.purge_eq]
  exact hcut.trans (OnlyIn.foldl (fun t m => (State.update_onlyIn t m st _).mono (by decide)) _ _)

/-- What a slot other than the purged one holds after it (R20). -/
theorem State.slotAt_purge_linked {s : State} (hw : s.tbc.slots.wf) {n m st : Nat} {q : Record} (hm : m ≠ n)
    (hq : s.recAt m = some q) (hlink : q.replaces = some n ∨ q.replacedBy = some n) :
    (s.purge n st).slotAt m = stepped s m st (unlink n q) := by
  rw [State.slotAt_purge hw, if_neg hm, ← State.slotAt_update]
  exact State.slotAt_update_same hq st (unlink_ne_iff.2 hlink)

theorem State.slotAt_purge_unlinked {s : State} (hw : s.tbc.slots.wf) {n m st : Nat} (hm : m ≠ n)
    (hno : ∀ q, s.recAt m = some q → q.replaces ≠ some n ∧ q.replacedBy ≠ some n) :
    (s.purge n st).slotAt m = s.slotAt m := by
  rw [State.slotAt_purge hw, if_neg hm, ← State.slotAt_update]
  cases hq : s.recAt m with
  | none => rw [State.update_none hq]
  | some q =>
    have hf : unlink n q = q := by_contra fun hne => (unlink_ne_iff.1 hne).elim (hno q hq).1 (hno q hq).2
    rw [State.update_same hq st hf]

theorem execPurge_served {s : State} {h : Ask} {slot : Nat} {r : Record} (hs : Served s h .purge) (hslot : slot < 512)
    (hr : s.recAt slot = some r) : exec (.purge h slot) s = s.take h Req.purge.code
      (if r.state = .retired then done (s.purge slot h.station) [] else refuse s .wrongState) :=
  hs.onRecord (slotOk_iff.2 hslot) hr (by simp) _

/-- Settles O10: the slot is freed, and every record that is linked to it loses the link in its own update. -/
theorem purgeFreesARetiredSlot : Obligations.PurgeFreesARetiredSlot := by
  intro h slot s r hs htable hslot hr
  have hw := htable.1
  rw [execPurge_served hs hslot hr]
  refine ⟨fun hst => ?_, fun hst => ?_⟩
  · rw [if_neg hst]
    exact hs.refused _ _
  · rw [if_pos hst, hs.done]
    refine ⟨_, rfl, ?_, fun m q hm hq hlink => State.slotAt_purge_linked hw hm hq hlink,
      fun m hm hno => State.slotAt_purge_unlinked hw hm hno, State.purge_tbc s slot _, State.purge_isi htable slot _,
      State.purge_atu s slot _, State.answeredDone_bmu (State.purge_onlyIn s slot _ .bmu (by decide)) _ _ _,
      (State.purge_onlyIn s slot _).answeredDone (by decide) _ _ _⟩
    rw [State.answeredDone_slotAt, State.slotAt_purge hw, if_pos rfl]

end Sys2Proof.Machine
end

section
/-! Entry to RETIRED (R8, R10): RETIRE, CLOSE ABANDON (R19, R56) and CERTIFY (R24, R25). -/

namespace Sys2Proof.Machine

/-! ## The two links of a record that retires (R8, R10) -/

/-- The live record that `r` of slot `n` was to replace. -/
def retireOld (s : State) (n : Nat) (r : Record) : Option Nat :=
  r.replaces.filter (fun m => (s.recAt m).any (fun q => q.replacedBy = some n ∧ s.liveAt q.row q.bay = some m))

/-- The record that the map entry of `r` goes to. -/
def retireNext (s : State) (r : Record) : Option Nat :=
  r.replacedBy.filter (fun m => (s.recAt m).any (fun q => q.state ≠ .retired))

theorem State.unlinkOld_none {t : State} {n : Nat} {r : Record} (h : retireOld t n r = none) (st : Nat) :
    t.unlinkOld n st r = t := by
  unfold State.unlinkOld
  split
  · rfl
  · next m hm =>
    split
    · rfl
    · next q hq =>
      refine if_neg fun ⟨hby, hlive⟩ => ?_
      rw [retireOld, hm, Option.filter_some, if_pos] at h
      · cases h
      · rw [hq]; exact decide_eq_true ⟨hby, of_decide_eq_true hlive⟩

/-- What makes a record the one that `r` was to replace. -/
theorem retireOld_eq_some {t : State} {n m : Nat} {r : Record} (h : retireOld t n r = some m) :
    r.replaces = some m ∧ ∃ q, t.recAt m = some q ∧ q.replacedBy = some n ∧ t.liveAt q.row q.bay = some m := by
  obtain ⟨hm, h⟩ := Option.filter_eq_some_iff.1 h
  obtain ⟨q, hq, h⟩ := (Option.any_eq_true _ _).1 h
  obtain ⟨hby, hlive⟩ := of_decide_eq_true h
  exact ⟨hm, q, hq, hby, hlive⟩

theorem State.unlinkOld_some {t : State} {n m : Nat} {r : Record} (h : retireOld t n r = some m) (st : Nat) :
    t.unlinkOld n st r = t.update m st (fun q => { q with replacedBy := none }) := by
  obtain ⟨hm, q, hq, hby, hlive⟩ := retireOld_eq_some h
  simp only [State.unlinkOld, hm, hq]
  exact if_pos ⟨hby, decide_eq_true hlive⟩

theorem State.successor_eq (t : State) (r : Record) : t.successor r = retireNext t r := by
  unfold State.successor retireNext
  cases r.replacedBy with
  | none => rfl
  | some m =>
    cases hq : t.recAt m with
    | none => simp [hq, Option.filter_some]
    | some q => by_cases hst : q.state = .retired <;> simp [hq, hst, Option.filter_some]

/-- A key that held a slot and is set to another value hands both. -/
theorem State.setMap_isi {s : State} {key n : Nat} {v? : Option Nat} (h : s.tbc.map.get? key = some n) (hv : v? ≠ some n) :
    (s.setMap key v?).isi = s.isi.handed (.slot n :: v?.toList.map Item.slot) := by
  unfold State.setMap
  rw [h]
  dsimp only
  rw [if_neg fun e => hv e.symm]
  cases v? with
  | none => rw [State.hand_isi_eq]; rfl
  | some m => rw [State.hand_isi_eq, State.hand_isi_eq, Isi.handed_handed]; rfl

/-! ## The record, its channel and its entries (R8) -/

/-- The part once the record of an entry to RETIRED has made its update and left its channel and the attention list. -/
def State.retiring (s : State) (n st : Nat) (reason : RetireReason) (f : Record → Record) (r : Record) : State :=
  ((s.update n st (fun q => retireFields reason (f q))).freeChannel r.binding).untell (fun e => e.subject = .record n)

section
variable {s : State} {n : Nat} {r : Record} (hr : s.recAt n = some r) (hne : r.state ≠ .retired) (st : Nat)
  (reason : RetireReason) (f : Record → Record)

include hne in
theorem retireFields_ne : retireFields reason (f r) ≠ r := fun e => hne (congrArg Record.state e).symm

@[simp] theorem State.retiring_tbc : (s.retiring n st reason f r).tbc =
    (s.update n st (fun q => retireFields reason (f q))).tbc := by simp [State.retiring]

theorem State.slotAt_retiring_ne {m : Nat} (hm : m ≠ n) : (s.retiring n st reason f r).slotAt m = s.slotAt m :=
  (State.slotAt_congr (s := s.update n st fun q => retireFields reason (f q)) (by rw [State.retiring_tbc]) m).trans
    (State.update_slotAt_ne _ _ _ _ _ hm)

theorem State.recAt_retiring_ne {m : Nat} (hm : m ≠ n) : (s.retiring n st reason f r).recAt m = s.recAt m :=
  congrArg Slot.rec? (State.slotAt_retiring_ne st reason f hm)

include hr hne in
theorem State.slotAt_retiring :
    (s.retiring n st reason f r).slotAt n = stepped s n st (retireFields reason (f r)) :=
  (State.slotAt_congr (s := s.update n st fun q => retireFields reason (f q)) (by rw [State.retiring_tbc]) n).trans
    (State.slotAt_update_same (f := fun q => retireFields reason (f q)) hr st (retireFields_ne hne reason f))

include hr hne in
theorem State.retiring_isi : (s.retiring n st reason f r).isi = s.isi.handed [.slot n] := by
  rw [State.retiring, State.untell_isi, State.freeChannel_isi]
  exact State.update_isi_eq (f := fun q => retireFields reason (f q)) hr st (retireFields_ne hne reason f)

/-- Another slot steps from the part on the way as it does from the part before. -/
theorem stepped_retiring {m : Nat} (hm : m ≠ n) (st' : Nat) (q : Record) :
    stepped (s.retiring n st reason f r) m st' q = stepped s m st' q := by
  have hwck : (s.retiring n st reason f r).wck = s.wck := by simp [State.retiring]
  rw [stepped, stepped, State.revAt_eq, State.revAt_eq, State.slotAt_retiring_ne st reason f hm, hwck]

theorem State.liveAt_retiring (row bay : Nat) : (s.retiring n st reason f r).liveAt row bay = s.liveAt row bay := by
  rw [State.liveAt, State.retiring_tbc, State.update_map]; rfl

theorem retireOld_retiring (hself : r.replaces ≠ some n) : retireOld (s.retiring n st reason f r) n r = retireOld s n r := by
  unfold retireOld
  cases hm : r.replaces with
  | none => rfl
  | some m =>
    have hmn : m ≠ n := fun e => hself (by rw [hm, e])
    simp only [Option.filter_some, State.recAt_retiring_ne st reason f hmn, State.liveAt_retiring]

end

/-! ## The old record's link (R8) -/

/-- What stands once the record of slot `n` and the one it was to replace have made their updates. -/
structure RetiredFirst (s v : State) (n st : Nat) (r q : Record) : Prop where
  own : v.slotAt n = stepped s n st q
  old : ∀ m x, retireOld s n r = some m → s.recAt m = some x → v.slotAt m = stepped s m st { x with replacedBy := none }
  other : ∀ m, m ≠ n → retireOld s n r ≠ some m → v.slotAt m = s.slotAt m
  isi : v.isi = s.isi.handed (.slot n :: (retireOld s n r).toList.map Item.slot)
  tbc : v.tbc = { s.tbc with slots := v.tbc.slots }
  channels : v.channels = (s.freeChannel r.binding).channels

theorem State.retireFirst_spec {s : State} {n : Nat} {r : Record} (hr : s.recAt n = some r) (hne : r.state ≠ .retired)
    (hself : r.replaces ≠ some n) (st : Nat) (reason : RetireReason) (f : Record → Record) :
    RetiredFirst s (s.retireFirst n st reason f r) n st r (retireFields reason (f r)) := by
  have hown := State.slotAt_retiring hr hne st reason f
  have hisi := State.retiring_isi hr hne st reason f
  have htbc : (s.retiring n st reason f r).tbc = { s.tbc with slots := (s.retiring n st reason f r).tbc.slots } := by
    rw [State.retiring_tbc, State.update_tbc_rest]
  have hch : (s.retiring n st reason f r).channels = (s.freeChannel r.binding).channels := by
    unfold State.retiring State.freeChannel
    cases r.binding <;> simp
  have hold := retireOld_retiring (s := s) st reason f hself
  rw [show s.retireFirst n st reason f r = (s.retiring n st reason f r).unlinkOld n st r from rfl]
  cases ho : retireOld s n r with
  | none =>
    rw [ho] at hold
    rw [State.unlinkOld_none hold]
    exact {
      own := hown
      old := fun m x h => by rw [ho] at h; cases h
      other := fun m hm _ => State.slotAt_retiring_ne st reason f hm
      isi := by rw [hisi, ho]; rfl
      tbc := htbc
      channels := hch }
  | some m =>
    rw [ho] at hold
    obtain ⟨hm, q, hq, hby, -⟩ := retireOld_eq_some ho
    have hmn : m ≠ n := fun e => hself (by rw [hm, e])
    have hq' : (s.retiring n st reason f r).recAt m = some q := by rw [State.recAt_retiring_ne st reason f hmn, hq]
    have hch' : ({ q with replacedBy := none } : Record) ≠ q := fun e => by
      have := congrArg Record.replacedBy e
      rw [hby] at this; cases this
    rw [State.unlinkOld_some hold]
    exact {
      own := by rw [State.update_slotAt_ne _ _ _ _ _ hmn.symm, hown]
      old := fun k x hk hx => by
        rw [ho] at hk; cases hk
        rw [hq] at hx; cases hx
        rw [State.slotAt_update_same (f := fun q => { q with replacedBy := none }) hq' st hch',
          stepped_retiring st reason f hmn]
      other := fun k hk hko => by
        rw [State.update_slotAt_ne _ _ _ _ _ (fun (e : k = m) => hko (by rw [ho, e])),
          State.slotAt_retiring_ne st reason f hk]
      isi := by
        rw [State.update_isi_eq (f := fun q => { q with replacedBy := none }) hq' st hch', hisi, Isi.handed_handed, ho]; rfl
      tbc := by rw [State.update_tbc_rest, htbc]
      channels := by rw [State.update_channels, hch] }

/-! ## The map entry (R10) -/

/-- The record that follows is the same before and after. -/
theorem retireNext_of_first {s v : State} {n st : Nat} {r q : Record} (h : RetiredFirst s v n st r q)
    (hself : r.replacedBy ≠ some n) : retireNext v r = retireNext s r := by
  unfold retireNext
  cases hm : r.replacedBy with
  | none => rfl
  | some m =>
    have hmn : m ≠ n := fun e => hself (by rw [hm, e])
    have hstate : (v.recAt m).any (fun q => decide (q.state ≠ .retired)) =
        (s.recAt m).any (fun q => decide (q.state ≠ .retired)) := by
      by_cases ho : retireOld s n r = some m
      · obtain ⟨-, x, hx, -⟩ := retireOld_eq_some ho
        rw [State.recAt, h.old m x ho hx, hx]; rfl
      · rw [State.recAt, h.other m hmn ho]; rfl
    simp only [Option.filter_some, hstate]

theorem retireNext_ne {s : State} {n : Nat} {r : Record} (hself : r.replacedBy ≠ some n) : retireNext s r ≠ some n :=
  fun h => hself (Option.filter_eq_some_iff.1 h).1

/-- Entry to RETIRED with all that R8 and R10 give. -/
theorem State.retireRecord_retires {s : State} {n : Nat} {r r0 : Record} (hr : s.recAt n = some r)
    (hne : r.state ≠ .retired) (hself : r.replaces ≠ some n) (hself' : r.replacedBy ≠ some n) (st : Nat)
    (reason : RetireReason) {f : Record → Record} (hf : retireFields reason (f r) = retireFields reason r0) :
    EntersRetired s (s.retireRecord n st reason f) n st reason r r0 := by
  refine ⟨?_, State.retireRecord_atu hr st reason f⟩
  have hfirst := State.retireFirst_spec hr hne hself st reason f
  rw [State.retireRecord_eq hr, State.successor_eq, retireNext_of_first hfirst hself']
  generalize s.retireFirst n st reason f r = v at hfirst
  obtain ⟨hown, hold, hother, hisi, htbc, hch⟩ := hfirst
  have hmap : v.tbc.map = s.tbc.map := by rw [htbc]
  have hchannels : (s.freeChannel r.binding).channels = (match r.binding with
      | some b => s.channels.erase (channelKey b)
      | none => s.channels) := by cases r.binding <;> rfl
  rw [hf] at hown
  by_cases hlive : s.isLive n r = true
  · have hl : s.liveAt r.row r.bay = some n := of_decide_eq_true hlive
    have hkey : v.tbc.map.get? (posKey r.row r.bay) = some n := by rw [hmap]; exact hl
    rw [if_pos hlive]
    refine ⟨by rw [State.slotAt_setMap]; exact hown, fun m q ho hq => by rw [State.slotAt_setMap]; exact hold m q ho hq,
      fun m hm ho => by rw [State.slotAt_setMap]; exact hother m hm ho, fun _ => State.setMap_get? _ _ _,
      fun key hk => ?_, ?_, fun _ => ?_, fun h => absurd hl h, ?_⟩
    · rw [State.setMap_get?_ne _ _ _ _ (fun e => hk ⟨hl, e⟩), hmap]
    · exact (State.setMap_tbc_rest _ _ _).trans (by rw [State.setMap_slots, htbc])
    · rw [State.setMap_isi hkey (retireNext_ne hself'), hisi, Isi.handed_again _ List.mem_cons_self, Isi.handed_handed,
        List.map_append]
      rfl
    · exact (State.setMap_channels _ _ _).trans (hch.trans hchannels)
  · have hl : s.liveAt r.row r.bay ≠ some n := fun e => hlive (decide_eq_true e)
    rw [if_neg hlive]
    exact ⟨hown, hold, hother, fun h => absurd h hl, fun key _ => by rw [hmap], by rw [htbc], fun h => absurd h hl,
      fun _ => hisi, hch.trans hchannels⟩

theorem State.retireRecord_onlyIn (s : State) (n st : Nat) (reason : RetireReason) (f : Record → Record) :
    OnlyIn [.tbc, .isi, .channels, .atu] s (s.retireRecord n st reason f) := by
  cases hr : s.recAt n with
  | none => unfold State.retireRecord; rw [hr]; exact OnlyIn.refl _ s
  | some r =>
    have hfirst : OnlyIn [.tbc, .isi, .channels, .atu] s (s.retireFirst n st reason f r) := by
      intro b hb
      cases b <;> simp_all [Block.agrees, State.retireFirst]
    rw [State.retireRecord_eq hr]
    split
    · refine hfirst.trans fun b hb => ?_
      cases b <;> simp_all [Block.agrees]
    · exact hfirst

/-! ## RETIRE and CLOSE ABANDON (R19, R56) -/

theorem liveAndRelied_iff {s : State} {n : Nat} {r : Record} :
    LiveAndRelied s n r ↔ s.isLive n r = true ∧ s.isRelied r.row = true := by
  rw [isRelied_iff, State.isLive, decide_eq_true_eq]
  rfl

/-- A record that may retire does, and the ANSWER gives its new revision. -/
theorem Served.retires {s : State} {h : Ask} {q : Req} (hs : Served s h q) {n : Nat} {r r0 : Record}
    (hr : s.recAt n = some r) (hne : r.state ≠ .retired) (hself : r.replaces ≠ some n) (hself' : r.replacedBy ≠ some n)
    (reason : RetireReason) {f : Record → Record} (hf : retireFields reason (f r) = retireFields reason r0) :
    ∃ t, s.take h q.code (Machine.doneRev (s.retireRecord n h.station reason f) n) = .next t ∧
      EntersRetired s t n h.station reason r r0 ∧
      t.bmu = s.bmu.answering h (answerTo q .done [.u16 ((s.revAt n + 1) % 65536)]) ∧
      OnlyIn [.tbc, .isi, .channels, .atu, .bmu] s t := by
  have hret := State.retireRecord_retires hr hne hself hself' h.station reason hf
  have hrev := State.revAt_stepped hret.1.1
  rw [hs.doneRev, hrev]
  exact ⟨_, rfl, hret, State.answeredDone_bmu (State.retireRecord_onlyIn s n h.station reason f .bmu (by decide)) _ _ _,
    (State.retireRecord_onlyIn s n h.station reason f).answeredDone (by decide) _ _ _⟩

theorem execRetire_served {s : State} {h : Ask} {slot rev code : Nat} {reason : RetireReason} {r : Record}
    (hs : Served s h .retire) (hcode : retireCode code = some reason) (hslot : slot < 512) (hr : s.recAt slot = some r)
    (hrev : rev = s.revAt slot) : exec (.retire h slot rev code) s = s.take h Req.retire.code
      (if r.state.isWork = true ∨ r.state = .retired then refuse s .wrongState
      else if s.isLive slot r = true ∧ s.isRelied r.row = true then refuse s .reliedOn
      else doneRev (s.retireRecord slot h.station reason id) slot) := by
  have hexec : exec (.retire h slot rev code) s = s.take h Req.retire.code
      (if r.state.isWork = true ∨ r.state = .retired then refuse s .wrongState
      else if s.isLive slot r = true ∧ s.isRelied r.row = true then refuse s .reliedOn
      else doneRev (s.retireRecord slot h.station ((retireCode code).getD .supervisor) id) slot) :=
    hs.onRecord (decide_eq_true ⟨slotOk_iff.2 hslot, by rw [hcode]; rfl⟩) hr (by simp [hrev]) _
  rw [hexec, hcode]
  rfl

theorem execCloseAbandon_served {s : State} {h : Ask} {slot rev : Nat} {r : Record} (hs : Served s h .close)
    (hslot : slot < 512) (hr : s.recAt slot = some r) (hrev : rev = s.revAt slot) :
    exec (.closeAbandon h slot rev) s = s.take h Req.close.code
      (if r.state = .failed then
        if s.isLive slot r = true ∧ s.isRelied r.row = true then refuse s .reliedOn
        else doneRev (s.retireRecord slot h.station .failed id) slot
      else refuse s .wrongState) :=
  hs.onRecord (slotOk_iff.2 hslot) hr (by simp [hrev]) _

/-- Settles O9: both end in one entry to RETIRED, after the checks of their own. -/
theorem retireAndAbandonEnterRetired : Obligations.RetireAndAbandonEnterRetired := by
  intro c h q slot rev reason s r hc hs hslot hr hrev
  rcases hc with ⟨rfl, hc⟩ | ⟨rfl, rfl, rfl⟩
  · have hexec : exec c s = s.take h Req.retire.code
        (if r.state.isWork = true ∨ r.state = .retired then refuse s .wrongState
        else if s.isLive slot r = true ∧ s.isRelied r.row = true then refuse s .reliedOn
        else doneRev (s.retireRecord slot h.station reason id) slot) := by
      rcases hc with ⟨rfl, rfl⟩ | ⟨rfl, rfl⟩ <;> exact execRetire_served hs rfl hslot hr hrev
    rw [hexec]
    simp only [if_true]
    refine ⟨fun hst => ?_, fun hst => ⟨fun hl => ?_, fun hl hself hself' => ?_⟩⟩
    · rw [if_pos hst]; exact hs.refused _ _
    · rw [if_neg (by simp [hst.1, hst.2]), if_pos (liveAndRelied_iff.1 hl)]; exact hs.refused _ _
    · rw [if_neg (by simp [hst.1, hst.2]), if_neg (mt liveAndRelied_iff.2 hl)]
      exact hs.retires hr hst.2 hself hself' reason rfl
  · rw [execCloseAbandon_served hs hslot hr hrev]
    simp only [reduceCtorEq, if_false]
    refine ⟨fun hst => ?_, fun hst => ⟨fun hl => ?_, fun hl hself hself' => ?_⟩⟩
    · rw [if_neg hst]; exact hs.refused _ _
    · rw [if_pos hst, if_pos (liveAndRelied_iff.1 hl)]; exact hs.refused _ _
    · rw [if_pos hst, if_neg (mt liveAndRelied_iff.2 hl)]
      exact hs.retires hr (by rw [hst]; nofun) hself hself' .failed rfl

end Sys2Proof.Machine
end

section
/-! CERTIFY (R24, R25): a SUSPECT record takes a target state with the values that it needs. -/

namespace Sys2Proof.Machine

/-- A value that is there just where it is needed, and then in its range. -/
theorem needed_value {p : Prop} [Decidable p] {o : Option Nat} {P : Nat → Prop}
    (h : if p then ∃ e, o = some e ∧ P e else o = none) : (o.isSome = true ↔ p) ∧ ∀ n, o = some n → P n := by
  split at h
  · next hp =>
    obtain ⟨e, rfl, he⟩ := h
    exact ⟨iff_of_true rfl hp, fun n hn => by cases hn; exact he⟩
  · next hp => subst h; exact ⟨iff_of_false nofun hp, nofun⟩

section
variable {s : State} {h : Ask} {slot rev code cls : Nat} {target : RecState}
  {freeOv bondOv cureEnd lockoff reason : Option Nat} {r : Record}

/-- A served CERTIFY in range meets its own checks. -/
theorem execCertify_served (hs : Served s h .certify) (hslot : slot < 512) (hcls : cls < 16)
    (hov : OverridesInRange freeOv bondOv) (htarget : certifyTarget code = some target)
    (hvalues : certifyValuesOk target cureEnd lockoff reason = true) (hr : s.recAt slot = some r) (hrev : rev = s.revAt slot) :
    exec (.certify h slot rev code cls freeOv bondOv cureEnd lockoff reason) s = s.take h Req.certify.code
      (if r.state ≠ .suspect then refuse s .wrongState
      else if s.isLive slot r = true ∧ s.isRelied r.row = true ∧ target ≠ .locked then refuse s .reliedOn
      else doneRev (s.certify slot h.station target cls freeOv bondOv cureEnd lockoff reason) slot) := by
  refine (hs.onRecord (decide_eq_true ⟨slotOk_iff.2 hslot, classOk_iff.2 hcls, freeLenOk_iff.2 hov.1, bondLenOk_iff.2 hov.2,
    by rw [htarget]; exact hvalues⟩) hr (by simp [hrev]) _).trans ?_
  rw [htarget]

/-- A CERTIFY to a state other than RETIRED is one update, and takes the entry of IMAGE_SUSPECT from the list (R25). -/
theorem State.certify_ne_retired (sender : Nat) (ht : target ≠ .retired) :
    s.certify slot sender target cls freeOv bondOv cureEnd lockoff reason =
      (s.update slot sender (certifyFields target cls freeOv bondOv cureEnd lockoff)).untellOne (.record slot) .imageSuspect :=
  if_neg ht

/-- The update of a CERTIFY takes the record out of SUSPECT, so it changes it. -/
theorem certifyFields_ne (hst : r.state = .suspect) (ht : target ≠ .suspect) :
    certifyFields target cls freeOv bondOv cureEnd lockoff r ≠ r := fun e =>
  ht ((congrArg Record.state e).trans hst)

/-- What a CERTIFY to a state other than RETIRED leaves and answers (R25). -/
theorem Served.certified (hs : Served s h .certify) (hr : s.recAt slot = some r) (hst : r.state = .suspect)
    (ht : target ≠ .retired) (ht' : target ≠ .suspect) :
    ∃ t, s.take h Req.certify.code (Machine.doneRev (s.certify slot h.station target cls freeOv bondOv cureEnd lockoff reason)
        slot) = .next t ∧
      SlotIs s t slot (stepped s slot h.station (certifyFields target cls freeOv bondOv cureEnd lockoff r)) ∧
      t.isi = s.isi.handed [.slot slot] ∧
      t.atu = (s.atu.drop (fun e => e.subject = .record slot ∧ e.cond = .imageSuspect)).sound s.tbc.site.alarm ∧
      t.bmu = s.bmu.answering h (answerTo .certify .done [.u16 ((s.revAt slot + 1) % 65536)]) ∧
      OnlyIn [.tbc, .isi, .atu, .bmu] s t := by
  have hf := certifyFields_ne (cls := cls) (freeOv := freeOv) (bondOv := bondOv) (cureEnd := cureEnd) (lockoff := lockoff)
    hst ht'
  have hslot := State.update_slotIs hr h.station hf
  have honly : OnlyIn [.tbc, .isi, .atu] s ((s.update slot h.station
      (certifyFields target cls freeOv bondOv cureEnd lockoff)).untellOne (.record slot) .imageSuspect) := by
    intro b hb
    cases b <;> simp_all [Block.agrees]
  have hrev : ((s.update slot h.station (certifyFields target cls freeOv bondOv cureEnd lockoff)).untellOne (.record slot)
      .imageSuspect).revAt slot = (s.revAt slot + 1) % 65536 := State.revAt_stepped hslot.1
  rw [State.certify_ne_retired h.station ht, hs.doneRev, hrev]
  refine ⟨_, rfl, hslot, State.update_isi_eq hr h.station hf, ?_,
    State.answeredDone_bmu (honly .bmu (by decide)) _ _ _, honly.answeredDone (by decide) _ _ _⟩
  simp [State.answeredDone, State.untellOne, State.untell]

end

/-- The retire reason that a code in range names. -/
theorem retireReason_of_code {reason : Option Nat} {k : Nat} (hk : reason = some k) (hrange : 1 ≤ k ∧ k ≤ 4) :
    ofCode RetireReason.all (reason.getD 0) = some ((reason.bind (ofCode RetireReason.all)).getD .supervisor) := by
  subst hk
  obtain ⟨x, hx⟩ := Option.isSome_iff_exists.1 (codeOk_iff (all := RetireReason.all).2 hrange)
  simp [hx]

/-- Settles O12: the checks of CERTIFY in their order, then one update, or the entry to RETIRED. -/
theorem certifyMovesASuspectRecord : Obligations.CertifyMovesASuspectRecord := by
  intro h slot rev code target cls freeOv bondOv cureEnd lockoff reason s r hs hslot hcls hfree hbond hcode hcure hlock hwhy
    hr hrev
  obtain ⟨hcure1, hcure2⟩ := needed_value hcure
  obtain ⟨hlock1, hlock2⟩ := needed_value hlock
  obtain ⟨hwhy1, hwhy2⟩ := needed_value hwhy
  have htarget : certifyTarget code = some target ∧ target ≠ .suspect := by
    rcases hcode with ⟨rfl, rfl⟩ | ⟨rfl, rfl⟩ | ⟨rfl, rfl⟩ | ⟨rfl, rfl⟩ | ⟨rfl, rfl⟩ | ⟨rfl, rfl⟩ | ⟨rfl, rfl⟩ <;>
      exact ⟨rfl, nofun⟩
  rw [execCertify_served hs hslot hcls ⟨hfree, hbond⟩ htarget.1
    (certifyValuesOk_iff.2 ⟨hcure1, hlock1, hwhy1, hcure2, hlock2, hwhy2⟩) hr hrev]
  have hrelied : LiveAndRelied s slot r ∧ target ≠ .locked ↔
      s.isLive slot r = true ∧ s.isRelied r.row = true ∧ target ≠ .locked := by
    rw [liveAndRelied_iff, and_assoc]
  refine ⟨fun hst => ?_, fun hst hl ht => ?_, fun hst hl ht => ?_, fun hst hl ht hno1 hno2 => ?_⟩
  · rw [if_pos hst]; exact hs.refused _ _
  · rw [if_neg (not_not_intro hst), if_pos (hrelied.1 ⟨hl, ht⟩)]; exact hs.refused _ _
  · rw [if_neg (not_not_intro hst), if_neg fun hbad => (hrelied.2 hbad).2 (hl (hrelied.2 hbad).1)]
    exact hs.certified hr hst ht htarget.2
  · subst ht
    rw [if_pos rfl] at hwhy
    rw [if_neg nofun] at hcure hlock
    subst hcure hlock
    obtain ⟨k, hk, hrange⟩ := hwhy
    rw [if_neg (not_not_intro hst), if_neg fun hbad => hl (hrelied.2 hbad).1]
    obtain ⟨t, ht, hret, hbmu, honly⟩ := hs.retires (r0 := { r with
        cls := cls, freeOv := freeOv, bondOv := bondOv, cureEnd := none, lockoffLoad := none }) hr (by rw [hst]; nofun)
      (by rw [hno1]; nofun) (by rw [hno2]; nofun) ((reason.bind (ofCode RetireReason.all)).getD .supervisor)
      (f := certifyFields .retired cls freeOv bondOv none none) rfl
    exact ⟨t, _, ht, retireReason_of_code hk hrange, hret, hbmu, honly⟩

end Sys2Proof.Machine
end

section
/-! CLEAR (R139): the condition leaves its subject and its entry the list. -/

namespace Sys2Proof.Machine

/-! ## What a CLEAR names (R133, R139) -/

theorem subjectOf_spec {kind ident : Nat} {subj : Subject} (h : subjectOf kind ident = some subj) :
    Subject.kindCode subj = kind ∧ Subject.ident subj = ident := by
  unfold subjectOf at h
  split at h
  · split at h <;> cases h
    exact ⟨rfl, rfl⟩
  · split at h <;> cases h
    exact ⟨rfl, rfl⟩
  · obtain ⟨l, hl, rfl⟩ := Option.map_eq_some_iff.1 h
    exact ⟨rfl, ((ofCode_eq_some_iff (by decide)).1 hl).2.symm⟩
  · split at h <;> cases h
    next hi => exact ⟨rfl, hi.symm⟩
  · cases h

theorem ofCode_cond (c : Cond) : ofCode Cond.all (codeIn Cond.all c) = some c :=
  (ofCode_eq_some_iff (by decide)).2 ⟨by cases c <;> decide, rfl⟩

theorem ofCode_line (l : LineId) : ofCode LineId.all (codeIn LineId.all l) = some l := by cases l <;> rfl

/-- A condition that Table 7-1 does not give for what a kind and an identity name has no target. -/
theorem clearTarget_none {kind ident : Nat} {c : Cond}
    (h : ∀ subj, Subject.kindCode subj = kind → Subject.ident subj = ident → Cond.allowedOn c subj = false) :
    clearTarget kind ident (codeIn Cond.all c) = none := by
  unfold clearTarget
  rw [ofCode_cond]
  cases hs : subjectOf kind ident with
  | none => rfl
  | some subj =>
    obtain ⟨hk, hi⟩ := subjectOf_spec hs
    simp [h subj hk hi]

theorem clearTarget_outOfRange {kind ident code : Nat}
    (h : code = 0 ∨ 20 < code ∨ kind = 1 ∧ 512 ≤ ident ∨ kind = 2 ∧ 16 ≤ ident) : clearTarget kind ident code = none := by
  unfold clearTarget
  split
  · next subj c hs hc =>
    obtain ⟨hlo, hhi⟩ : 1 ≤ code ∧ code ≤ 20 := codeOk_iff.1 (Option.isSome_iff_exists.2 ⟨c, hc⟩)
    rcases h with h | h | ⟨rfl, h⟩ | ⟨rfl, h⟩
    · omega
    · omega
    · rw [subjectOf, if_neg (Nat.not_lt.2 h)] at hs; cases hs
    · rw [subjectOf, if_neg (Nat.not_lt.2 h)] at hs; cases hs
  · rfl

theorem clearTarget_some {kind ident : Nat} {subj : Subject} {c : Cond} (hs : subjectOf kind ident = some subj)
    (hc : Cond.allowedOn c subj = true) : clearTarget kind ident (codeIn Cond.all c) = some (subj, c) := by
  simp [clearTarget, hs, ofCode_cond, hc]

theorem execClear_refused {s : State} {h : Ask} {kind ident code : Nat} (hs : Served s h .clear)
    (hn : clearTarget kind ident code = none) : exec (.clear h kind ident code) s = .next (Answered s h .clear .badValue []) :=
  hs.outOfRange (by rw [hn]; rfl) _

theorem execClear_served {s : State} {h : Ask} {kind ident code : Nat} {subj : Subject} {c : Cond} (hs : Served s h .clear)
    (hn : clearTarget kind ident code = some (subj, c)) :
    exec (.clear h kind ident code) s = s.take h Req.clear.code (s.clearOwn h.station subj c) := by
  refine (hs.inRange (by rw [hn]; rfl) _).trans ?_
  rw [hn]

/-! ## A record's condition (R6, R139) -/

theorem dropCond_of_not_mem {c : Cond} {l : List Cond} (h : c ∉ l) : dropCond c l = l :=
  List.filter_eq_self.2 fun d hd => decide_eq_true fun (e : d = c) => h (e ▸ hd)

theorem dropConds_ne {c : Cond} {r : Record} (h : c ∈ r.conds) : { r with conds := dropCond c r.conds } ≠ r := fun e => by
  have hmem : c ∈ dropCond c r.conds := by rw [show dropCond c r.conds = r.conds from congrArg Record.conds e]; exact h
  exact (mem_dropCond.1 hmem).2 rfl

theorem State.unraise_marked {s : State} {n : Nat} {r : Record} (hr : s.recAt n = some r) (st : Nat) {c : Cond}
    (hc : c ∈ r.conds) : s.unraise n st c =
      (s.update n st (fun r => { r with conds := dropCond c r.conds })).untellOne (.record n) c := by
  unfold State.unraise
  rw [hr]
  exact if_pos hc

theorem State.unraise_unmarked {s : State} {n : Nat} {r : Record} (hr : s.recAt n = some r) (st : Nat) {c : Cond}
    (hc : c ∉ r.conds) : s.unraise n st c = s := by
  unfold State.unraise
  rw [hr]
  exact if_neg hc

/-- What removing a condition from a record leaves: one update, and its entry gone where it stood. -/
theorem State.unraise_spec {s : State} {n : Nat} {r : Record} (hr : s.recAt n = some r) (st : Nat) (c : Cond) :
    RecordUpdate s (s.unraise n st c) n st r { r with conds := dropCond c r.conds } ∧
      (s.unraise n st c).revAt n = revAfter s n r { r with conds := dropCond c r.conds } ∧
      (s.unraise n st c).atu = (if c ∈ r.conds then
        (s.atu.drop (fun e => e.subject = .record n ∧ e.cond = c)).sound s.tbc.site.alarm else s.atu) ∧
      OnlyIn [.tbc, .isi, .atu] s (s.unraise n st c) := by
  by_cases hc : c ∈ r.conds
  · rw [State.unraise_marked hr st hc, if_pos hc]
    refine ⟨State.update_recordUpdate hr st fun q => { q with conds := dropCond c q.conds },
      State.revAt_update_same hr st fun q => { q with conds := dropCond c q.conds }, ?_, ?_⟩
    · simp [State.untellOne, State.untell]
    · intro b hb
      cases b <;> simp_all [Block.agrees]
  · rw [State.unraise_unmarked hr st hc, if_neg hc, dropCond_of_not_mem hc]
    exact ⟨by simp [RecordUpdate], by simp [revAfter], rfl, OnlyIn.refl _ s⟩

/-! ## The mark of a station, a line or the site (R134, R139) -/

/-- Of the works bus and the image store at most marks differ, and nothing but these and the attention list. -/
structure MarksOnly (s u : State) : Prop where
  bmu : u.bmu = { s.bmu with stations := u.bmu.stations, lineA := u.bmu.lineA, lineB := u.bmu.lineB }
  stations : ∀ n, u.stationAt n = { s.stationAt n with faultMark := (u.stationAt n).faultMark }
  lines : ∀ l, u.lineAt l = { s.lineAt l with faultMark := (u.lineAt l).faultMark, noiseMark := (u.lineAt l).noiseMark }
  isi : u.isi = { s.isi with suspectMark := u.isi.suspectMark, writeMark := u.isi.writeMark }
  rest : OnlyIn [.isi, .atu, .bmu] s u

theorem MarksOnly.refl (s : State) : MarksOnly s s := ⟨rfl, fun _ => rfl, fun _ => rfl, rfl, OnlyIn.refl _ s⟩

theorem MarksOnly.putLine (s : State) (l : LineId) {x : Line}
    (hx : x = { s.lineAt l with faultMark := x.faultMark, noiseMark := x.noiseMark }) : MarksOnly s (s.putLine l x) where
  bmu := by cases l <;> rfl
  stations n := by cases l <;> rfl
  lines m := by
    rw [State.lineAt_putLine]
    split
    · next e => rw [e]; exact hx
    · rfl
  isi := by cases l <;> rfl
  rest := by
    clear hx
    intro b hb
    cases b <;> simp_all [Block.agrees]

theorem MarksOnly.putStation (s : State) (n : Nat) (on : Bool) :
    MarksOnly s (s.putStation n { s.stationAt n with faultMark := on }) where
  bmu := rfl
  stations m := by
    rw [State.stationAt_putStation]
    split
    · next e => rw [e.1]
    · rfl
  lines _ := rfl
  isi := rfl
  rest := by
    intro b hb
    cases b <;> simp_all [Block.agrees]

theorem MarksOnly.setMark (s : State) (subj : Subject) (c : Cond) (on : Bool) : MarksOnly s (s.setMark subj c on) := by
  unfold State.setMark
  split
  · exact MarksOnly.putStation s _ on
  · exact MarksOnly.putLine s _ rfl
  · exact MarksOnly.putLine s _ rfl
  · exact ⟨rfl, fun _ => rfl, fun _ => rfl, rfl, fun b hb => by cases b <;> simp_all [Block.agrees]⟩
  · exact ⟨rfl, fun _ => rfl, fun _ => rfl, rfl, fun b hb => by cases b <;> simp_all [Block.agrees]⟩
  · exact MarksOnly.refl s

theorem MarksOnly.untellOne {s u : State} (h : MarksOnly s u) (subj : Subject) (c : Cond) : MarksOnly s (u.untellOne subj c) :=
  ⟨h.bmu, h.stations, h.lines, h.isi, h.rest.trans fun b hb => by cases b <;> simp_all [Block.agrees]⟩

theorem MarksOnly.clearMark (s : State) (subj : Subject) (c : Cond) : MarksOnly s (s.clearMark subj c) := by
  unfold State.clearMark
  split
  · exact (MarksOnly.setMark s subj c false).untellOne subj c
  · exact MarksOnly.refl s

theorem State.untellOne_marked (s : State) (subj other : Subject) (c d : Cond) :
    (s.untellOne subj c).marked other d = s.marked other d := by cases other <;> rfl

/-- A mark that is cleared is not marked. -/
theorem State.setMark_cleared (s : State) {subj : Subject} {c : Cond}
    (h : (∃ n, n < 16 ∧ subj = .station n ∧ c = .stationFault) ∨ (∃ l, subj = .line l ∧ (c = .lineFault ∨ c = .lineNoise)) ∨
      subj = .site ∧ (c = .imageSuspect ∨ c = .imageWrite)) : (s.setMark subj c false).marked subj c = false := by
  rcases h with ⟨n, hn, rfl, rfl⟩ | ⟨l, rfl, rfl | rfl⟩ | ⟨rfl, rfl | rfl⟩
  · simp [State.setMark, State.marked, State.stationAt_putStation, hn]
  · simp [State.setMark, State.marked, State.lineAt_putLine]
  · simp [State.setMark, State.marked, State.lineAt_putLine]
  · simp [State.setMark, State.marked]
  · simp [State.setMark, State.marked]

/-- What clearing a mark leaves of the marks and of the attention list. -/
theorem State.clearMark_spec (s : State) {subj : Subject} {c : Cond}
    (h : (s.setMark subj c false).marked subj c = false) : (s.clearMark subj c).marked subj c = false ∧
      (∀ other d, (other, d) ≠ (subj, c) → (s.clearMark subj c).marked other d = s.marked other d) ∧
      (s.clearMark subj c).atu = (if s.marked subj c then
        (s.atu.drop (fun e => e.subject = subj ∧ e.cond = c)).sound s.tbc.site.alarm else s.atu) := by
  unfold State.clearMark
  split
  · refine ⟨by rw [State.untellOne_marked]; exact h, fun other d hne => ?_, ?_⟩
    · rw [State.untellOne_marked, State.setMark_marked_ne _ _ _ _ _ _ hne]
    · simp [State.untellOne, State.untell]
  · next hno => exact ⟨by simpa using hno, fun _ _ _ => rfl, rfl⟩

theorem State.answeredDone_marked (t : State) (h : Ask) (q : Req) (body : List Field) (subj : Subject) (c : Cond) :
    (t.answeredDone h q body).marked subj c = t.marked subj c := by
  cases subj with
  | line l => cases l <;> rfl
  | _ => rfl

/-- A condition of a station, a line or the site, as the statement lists them, is one that Table 7-1 gives for it. -/
theorem clearTarget_mark {subj : Subject} {c : Cond}
    (h : (∃ n, n < 16 ∧ subj = .station n ∧ c = .stationFault) ∨ (∃ l, subj = .line l ∧ (c = .lineFault ∨ c = .lineNoise)) ∨
      subj = .site ∧ (c = .imageSuspect ∨ c = .imageWrite)) :
    clearTarget (Subject.kindCode subj) (Subject.ident subj) (codeIn Cond.all c) = some (subj, c) := by
  rcases h with ⟨n, hn, rfl, rfl⟩ | ⟨l, rfl, hc⟩ | ⟨rfl, hc⟩
  · exact clearTarget_some (if_pos hn) rfl
  · refine clearTarget_some ?_ (decide_eq_true hc)
    show (ofCode LineId.all (codeIn LineId.all l)).map Subject.line = _
    rw [ofCode_line]; rfl
  · exact clearTarget_some rfl (decide_eq_true (.inr hc))

theorem State.clearOwn_mark (s : State) (sender : Nat) {subj : Subject} {c : Cond}
    (h : (∃ n, n < 16 ∧ subj = .station n ∧ c = .stationFault) ∨ (∃ l, subj = .line l ∧ (c = .lineFault ∨ c = .lineNoise)) ∨
      subj = .site ∧ (c = .imageSuspect ∨ c = .imageWrite)) : s.clearOwn sender subj c = done (s.clearMark subj c) [] := by
  rcases h with ⟨n, hn, rfl, rfl⟩ | ⟨l, rfl, rfl | rfl⟩ | ⟨rfl, rfl | rfl⟩ <;> rfl

/-! ## CLEAR (R139) -/

theorem execClear_record {s : State} {h : Ask} {n : Nat} {c : Cond} (hs : Served s h .clear) (hn : n < 512)
    (hc : c ≠ .siteStop ∧ c ≠ .lineFault ∧ c ≠ .lineNoise) : exec (.clear h 1 n (codeIn Cond.all c)) s =
      s.take h Req.clear.code (s.named n none (s.clearRecord n h.station c)) :=
  execClear_served (subj := .record n) hs (clearTarget_some (if_pos hn) (decide_eq_true hc))

/-- Settles O35: what the kind and the identity name, and then the record's update or the subject's mark. -/
theorem clearRemovesACondition : Obligations.ClearRemovesACondition := by
  intro h s c hs
  refine ⟨fun kind ident hout => execClear_refused hs (clearTarget_none hout),
    fun kind ident code hout => execClear_refused hs (clearTarget_outOfRange hout), fun n hn hc1 hc2 hc3 => ?_,
    fun hstop => ?_, fun hstop => ?_, fun subj hsubj => ?_⟩
  · rw [execClear_record hs hn ⟨hc1, hc2, hc3⟩]
    refine ⟨fun hr => ?_, fun r hr hc hst => ?_, fun r hr hok => ?_⟩
    · rw [State.named, hr]; exact hs.refused _ _
    · have hown : s.named n none (s.clearRecord n h.station c) = refuse s .wrongState := by
        have hbad : c = .imageSuspect ∧ r.state = .suspect := ⟨hc, hst⟩
        rw [State.named, hr]
        exact if_pos hbad
      rw [hown]; exact hs.refused _ _
    · obtain ⟨hupd, hrev, hatu, honly⟩ := State.unraise_spec hr h.station c
      have hown : s.named n none (s.clearRecord n h.station c) = doneRev (s.unraise n h.station c) n := by
        rw [State.named, hr]
        exact if_neg hok
      rw [hown, hs.doneRev, hrev]
      exact ⟨_, rfl, hupd, hatu, State.answeredDone_bmu (honly .bmu (by decide)) _ _ _, honly.answeredDone (by decide) _ _ _⟩
  · rw [execClear_served (subj := .site) (c := .siteStop) hs rfl]
    exact (congrArg (s.take h Req.clear.code) (if_pos (Option.isSome_iff_ne_none.2 hstop))).trans (hs.refused _ _)
  · rw [execClear_served (subj := .site) (c := .siteStop) hs rfl]
    exact (congrArg (s.take h Req.clear.code) (if_neg (by simp [hstop]))).trans (hs.done s [])
  · obtain ⟨hoff, hother, hatu⟩ := s.clearMark_spec (s.setMark_cleared hsubj)
    obtain ⟨hbmu, hstations, hlines, hisi, hrest⟩ := MarksOnly.clearMark s subj c
    rw [execClear_served hs (clearTarget_mark hsubj), State.clearOwn_mark s h.station hsubj, hs.done]
    refine ⟨_, rfl, by rw [State.answeredDone_marked]; exact hoff, fun other d hne => ?_, hatu,
      congrArg (fun b => Bmu.answering b h (answerTo .clear .done [])) hbmu, hstations, fun l => ?_, hisi,
      hrest.answeredDone (by decide) _ _ _⟩
    · rw [State.answeredDone_marked]; exact hother other d hne
    · cases l
      · exact hlines .a
      · exact hlines .b

end Sys2Proof.Machine
end

section
/-! What a used reply of a bound jack does to the part (R57, R60, R109, R166): the frame around the phase logic, and the four
ways in which the phase logic ends. -/

namespace Sys2Proof.Machine

/-! ## What the turn after a reply leaves (R164, R166) -/

/-- What a used reply is about stands in `t` as in `s`: the TBC, the contexts, the write queue, the channel map, the time,
and the bindings of the stations. -/
structure SameWork (s t : State) : Prop where
  tbc : t.tbc = s.tbc
  cxp : t.cxp = s.cxp
  isi : t.isi = s.isi
  channels : t.channels = s.channels
  wck : t.wck = s.wck
  ctx : ∀ m, (t.stationAt m).ctx = (s.stationAt m).ctx

theorem SameWork.trans {s t u : State} (h : SameWork s t) (k : SameWork t u) : SameWork s u where
  tbc := k.tbc.trans h.tbc
  cxp := k.cxp.trans h.cxp
  isi := k.isi.trans h.isi
  channels := k.channels.trans h.channels
  wck := k.wck.trans h.wck
  ctx m := (k.ctx m).trans (h.ctx m)

/-- A change to the works bus that leaves the stations leaves the work. -/
theorem SameWork.of_bmu (s : State) {b : Bmu} (h : b.stations = s.bmu.stations) : SameWork s { s with bmu := b } where
  tbc := rfl
  cxp := rfl
  isi := rfl
  channels := rfl
  wck := rfl
  ctx m := congrArg Station.ctx (by simp only [State.stationAt, h])

theorem SameWork.refl (s : State) : SameWork s s := ⟨rfl, rfl, rfl, rfl, rfl, fun _ => rfl⟩

theorem SameWork.putLine (s : State) (l : LineId) (x : Line) : SameWork s (s.putLine l x) where
  tbc := by simp
  cxp := by simp
  isi := by simp
  channels := by simp
  wck := by simp
  ctx m := by simp

theorem SameWork.raiseIf (s : State) (l : LineId) {c : Cond} (hc : c = .lineFault ∨ c = .lineNoise) (shows : Bool) :
    SameWork s (s.raiseIf l c shows) := by
  unfold State.raiseIf State.raiseMark
  split
  · split
    · exact SameWork.refl s
    · have hput : ∃ x, s.setMark (.line l) c true = s.putLine l x := by rcases hc with rfl | rfl <;> exact ⟨_, rfl⟩
      obtain ⟨x, hx⟩ := hput
      rw [hx]
      refine (SameWork.putLine s l x).trans ⟨by simp, by simp, by simp, by simp, by simp, fun m => ?_⟩
      rw [State.stationAt_congr (State.tell_bmu _ _ _)]
  · exact SameWork.refl s

theorem SameWork.endScan (s : State) : SameWork s s.endScan :=
  ((((SameWork.of_bmu s (b := ((({ s with bmu := { s.bmu with turn := none } } : State).eachLine Line.completeScan)).bmu) rfl).trans
    (SameWork.raiseIf _ .a (.inr rfl) _)).trans (SameWork.raiseIf _ .b (.inr rfl) _)).trans
      (SameWork.raiseIf _ .a (.inl rfl) _)).trans (SameWork.raiseIf _ .b (.inl rfl) _)

theorem SameWork.moveTurn (s : State) : SameWork s s.moveTurn := by
  unfold State.moveTurn State.turnFrom
  split
  · split
    · exact SameWork.of_bmu s rfl
    · exact SameWork.endScan s
  · exact SameWork.refl s

theorem SameWork.afterReply (s : State) (l : LineId) (srq : Bool) : SameWork s (s.afterReply l srq) := by
  unfold State.afterReply
  split
  · split
    · exact SameWork.of_bmu s rfl
    · exact SameWork.moveTurn s
  · exact SameWork.refl s

/-- SRQ keeps the turn from ending the scan, so that nothing is judged. -/
theorem State.afterReply_atu (s : State) (l : LineId) : (s.afterReply l true).atu = s.atu := by
  unfold State.afterReply
  split <;> rfl

/-! ## The statement's terms, read in states that agree -/

theorem SlotBecomes.congr {s s0 t0 t : State} {n : Nat} {z : Slot} (hs : SameWork s s0) (ht : SameWork t0 t)
    (h : SlotBecomes s0 t0 n z) : SlotBecomes s t n z := by
  obtain ⟨⟨hown, hother, htbc⟩, hisi⟩ := h
  have hslot (m : Nat) : s0.slotAt m = s.slotAt m := State.slotAt_congr (by rw [hs.tbc]) m
  have hslot' (m : Nat) : t.slotAt m = t0.slotAt m := State.slotAt_congr (by rw [ht.tbc]) m
  refine ⟨⟨(hslot' n).trans hown, fun m hm => ((hslot' m).trans (hother m hm)).trans (hslot m), ?_⟩, ?_⟩
  · rw [ht.tbc, ← hs.tbc]; exact htbc
  · rw [ht.isi, hisi, hslot, hs.isi]

theorem SlotBecomes.refl (s : State) (n : Nat) : SlotBecomes s s n (s.slotAt n) :=
  ⟨⟨rfl, fun _ _ => rfl, rfl⟩, (if_pos rfl).symm⟩

/-- A slot as it stood, or one record update on. -/
def OneStep (z0 z : Slot) : Prop := z = z0 ∨ z.rev = (z0.rev + 1) % 65536

theorem updatedSlot_oneStep (s : State) (st : Nat) (f : Record → Record) (z : Slot) : OneStep z (updatedSlot s st f z) := by
  unfold updatedSlot
  split
  · split
    · exact .inl rfl
    · exact .inr rfl
  · exact .inl rfl

/-- One or two steps away, the slot is not what it was. -/
theorem OneStep.ne {z0 z w : Slot} (h : OneStep z0 z) (hw : w.rev = (z.rev + 1) % 65536) : w ≠ z0 := by
  intro e
  have hrev : z0.rev = (z.rev + 1) % 65536 := e ▸ hw
  rcases h with rfl | h <;> omega

theorem Isi.handed_same (i : Isi) (x : Item) : (i.handed [x]).handed [x] = i.handed [x] :=
  Isi.handed_again i List.mem_cons_self []

/-- One more update of the same slot (R5). -/
theorem SlotBecomes.update {s t : State} {n : Nat} {z : Slot} (h : SlotBecomes s t n z) (hz : OneStep (s.slotAt n) z)
    (hwck : t.wck = s.wck) (st : Nat) (f : Record → Record) :
    SlotBecomes s (t.update n st f) n (updatedSlot s st f z) := by
  obtain ⟨⟨hown, hother, htbc⟩, hisi⟩ := h
  have hslot : (t.update n st f).slotAt n = updatedSlot s st f z := by
    rw [State.slotAt_update, hown, updatedSlot, updatedSlot, hwck]
  refine ⟨⟨hslot, fun m hm => (State.update_slotAt_ne t n m st f hm).trans (hother m hm), ?_⟩, ?_⟩
  · rw [State.update_tbc_rest, htbc]
  · cases hr : z.rec? with
    | none =>
      rw [updatedSlot_free s st f hr, State.update_none ((congrArg Slot.rec? hown).trans hr), hisi]
    | some r =>
      have hrt : t.recAt n = some r := (congrArg Slot.rec? hown).trans hr
      by_cases hf : f r = r
      · rw [State.update_same hrt st hf, hisi]
        simp only [updatedSlot, hr, hf, if_true]
      · have hw : (updatedSlot s st f z).rev = (z.rev + 1) % 65536 := by simp only [updatedSlot, hr, hf, if_false]
        rw [State.update_isi_eq hrt st hf, hisi, if_neg (hz.ne hw)]
        split
        · rfl
        · exact Isi.handed_same _ _

/-- An update that raises conditions is one update of its slot (R5, R6). -/
theorem SlotBecomes.updateRaising {s t : State} {n : Nat} {z : Slot} (h : SlotBecomes s t n z)
    (hz : OneStep (s.slotAt n) z) (hwck : t.wck = s.wck) (st : Nat) (cs : List Cond) (f : Record → Record) :
    SlotBecomes s (t.updateRaising n st cs f) n
      (updatedSlot s st (fun r => { f r with conds := addConds cs (f r).conds }) z) := by
  obtain ⟨⟨hown, hother, htbc⟩, hisi⟩ := h.update hz hwck st (fun r => { f r with conds := addConds cs (f r).conds })
  have hslot (m : Nat) := State.slotAt_congr (s := t.update n st fun r => { f r with conds := addConds cs (f r).conds })
    (t := t.updateRaising n st cs f) (by rw [State.updateRaising_tbc]) m
  refine ⟨⟨(hslot n).trans hown, fun m hm => (hslot m).trans (hother m hm), ?_⟩, ?_⟩
  · rw [State.updateRaising_tbc]; exact htbc
  · rw [State.updateRaising_isi]; exact hisi

/-! ## What the attention list is told (R6, R136) -/

theorem State.tells_atu (s : State) (subj : Subject) (cs : List Cond) :
    (cs.foldl (fun t c => t.tell subj c) s).atu = cs.foldl (tellAtu s subj) s.atu := by
  have hkeep : ∀ (t : State) (c : Cond), (t.tell subj c).atu = tellAtu t subj t.atu c := fun t c => by
    unfold State.tell State.tellAt tellAtu
    split <;> rfl
  have hgen : ∀ (l : List Cond) (t : State), t.tbc.site = s.tbc.site → t.wck = s.wck →
      (l.foldl (fun t c => t.tell subj c) t).atu = l.foldl (tellAtu s subj) t.atu := by
    intro l
    induction l with
    | nil => exact fun _ _ _ => rfl
    | cons c l ih =>
      intro t hsite hwck
      have hstep : (t.tell subj c).atu = tellAtu s subj t.atu c := by
        rw [hkeep, tellAtu, tellAtu, hsite, hwck]
      rw [List.foldl_cons, List.foldl_cons, ih _ (by simpa using hsite) (by simpa using hwck), hstep]
  exact hgen cs s rfl rfl

/-- An update that raises conditions tells of those that its record does not hold. -/
theorem State.updateRaising_atu {s t : State} {n : Nat} {r : Record} (hr : t.recAt n = some r)
    (hsite : t.tbc.site = s.tbc.site) (hwck : t.wck = s.wck) (hatu : t.atu = s.atu) (st : Nat) (cs : List Cond)
    (f : Record → Record) : (t.updateRaising n st cs f).atu = toldNew s (.record n) r.conds cs := by
  have htell (u : State) (h1 : u.tbc.site = s.tbc.site) (h2 : u.wck = s.wck) : tellAtu u (.record n) = tellAtu s (.record n) := by
    funext a c; rw [tellAtu, tellAtu, h1, h2]
  have hnew : t.newConds n cs = cs.filter (fun c => c ∉ r.conds) := by rw [State.newConds, hr]
  rw [State.updateRaising, State.tells_atu, hnew, State.update_atu, hatu,
    htell _ (by rw [State.update_site, hsite]) (by rw [State.update_wck, hwck])]
  rfl

end Sys2Proof.Machine
end

section
/-! A used reply of a bound jack, from the event to the phase logic (R57, R60, R109, R110, R166). -/

namespace Sys2Proof.Machine

/-! ## The event (R156, R160, R166) -/

/-- The part as it hands on the reply of station `n`: the exchange is over, and the station has been heard. -/
def State.heardFrom (s : State) (n : Nat) (l : LineId) (y : Reply) : State :=
  ((s.setExchange .idle).putLine l (s.lineAt l).succeed).putStation n ((s.stationAt n).heard l y.data)

/-- STATION_FAULT on the record of slot `m`, where the reply carries FAULT (R166). -/
def State.raiseFaultOf (s : State) (y : Reply) (m n : Nat) : State :=
  if y.fault then s.raise m n .stationFault else s

/-- The part after a used reply of the station that context `c` binds. -/
def State.afterUsed (s : State) (n : Nat) (l : LineId) (y : Reply) (c : Nat) (x : Context) : State :=
  ((((s.heardFrom n l y).putCtx c (heardContext s x)).useReply c (heardContext s x) y).raiseFaultOf y x.slot n).afterReply
    l y.srq

theorem State.heardFrom_ctxOf (s : State) (n : Nat) (l : LineId) (y : Reply) (m : Nat) :
    ((s.heardFrom n l y).stationAt m).ctx = (s.stationAt m).ctx := by
  unfold State.heardFrom
  rw [State.stationAt_putStation]
  split
  · next h => rw [h.1]; rfl
  · rw [State.stationAt_putLine]; rfl

theorem State.heardFrom_same (s : State) (n : Nat) (l : LineId) (y : Reply) : SameWork s (s.heardFrom n l y) where
  tbc := by simp [State.heardFrom]
  cxp := by simp [State.heardFrom]
  isi := by simp [State.heardFrom]
  channels := by simp [State.heardFrom]
  wck := by simp [State.heardFrom]
  ctx := s.heardFrom_ctxOf n l y

/-- A reply without BUSY ends a suspension (R57). -/
theorem Context.afterReply_heard (s : State) (x : Context) :
    x.afterReply false s.ifu.stop.isSome = heardContext s x := by
  unfold Context.afterReply Context.answered heardContext
  cases hrun : x.run <;> cases hstop : s.ifu.stop <;> simp

theorem heardContext_run (s : State) (x : Context) : (heardContext s x).run ≠ .suspended := by
  unfold heardContext
  split
  · dsimp only; split <;> nofun
  · assumption

theorem heardContext_bond (s : State) (x : Context) : (heardContext s x).slot = x.slot ∧
    (heardContext s x).station = x.station ∧ (heardContext s x).prog = x.prog := by
  unfold heardContext
  split <;> exact ⟨rfl, rfl, rfl⟩

section
variable {s : State} {n : Nat} {l : LineId} {y : Reply} {c : Nat} {x : Context} {r : Record} {cls : ClassEntry}

/-- The reply of a jack fits the station that is enrolled as one. -/
theorem replyError_jack {u : Station} {pressure stroke : Nat} {seated lifted restroking released : Bool}
    (h : u.kind = declaredKind (.jack pressure stroke seated lifted restroking released)) :
    replyError u (.jack pressure stroke seated lifted restroking released) = none := by
  simp [replyError, h, lengthFits]

theorem UsedReply.exec_eq (h : UsedReply s n l y c x r cls) (hfit : replyError (s.stationAt n) y.data = none) :
    exec (.replyReceived n l y) s = .next (s.afterUsed n l y c x) := by
  obtain ⟨-, -, hup, hex, -, -, hbusy, hctx, hx, -, -, -⟩ := h
  have hhand : (s.heardFrom n l y).handOn n y =
      ((s.heardFrom n l y).putCtx c (heardContext s x)).useReply c (heardContext s x) y := by
    have hc : (s.heardFrom n l y).ctxAt c = some x := by rw [State.ctxAt, (s.heardFrom_same n l y).cxp]; exact hx
    have hifu : (s.heardFrom n l y).ifu = s.ifu := by simp [State.heardFrom]
    simp only [State.handOn, State.heardFrom_ctxOf, hctx, hc, State.handToContext, hbusy, hifu, Context.afterReply_heard,
      if_neg (heardContext_run s x)]
  have hfault : ((s.setExchange .idle).putLine l (s.lineAt l).succeed).faultSubject n = .record x.slot := by
    have hst : (((s.setExchange .idle).putLine l (s.lineAt l).succeed).stationAt n).ctx = some c := by
      rw [State.stationAt_putLine]; exact hctx
    have hc : ((s.setExchange .idle).putLine l (s.lineAt l).succeed).ctxAt c = some x := by
      rw [State.ctxAt, State.putLine_cxp]; exact hx
    simp only [State.faultSubject, hst, Option.bind_some, hc]
  have htake : ((s.setExchange .idle).putLine l (s.lineAt l).succeed).takeReply n l y =
      (((s.heardFrom n l y).putCtx c (heardContext s x)).useReply c (heardContext s x) y).raiseFaultOf y x.slot n := by
    have hput : ((s.setExchange .idle).putLine l (s.lineAt l).succeed).putStation n
        ((((s.setExchange .idle).putLine l (s.lineAt l).succeed).stationAt n).heard l y.data) = s.heardFrom n l y := by
      rw [State.stationAt_putLine]; rfl
    simp only [State.takeReply, hput, hhand, hfault, State.raiseFault, State.raiseFaultOf]
  have hexec : exec (.replyReceived n l y) s = .next (s.replyInWindow n l y) := by
    show execReplyReceived n l y s = _
    simp [execReplyReceived, hup, hex]
  rw [hexec, State.replyInWindow, hfit]
  dsimp only
  rw [htake]
  rfl

end

/-! ## The unit of a jack (R95, R109, R110, R124) -/

/-- What the phase logic of a bound jack reads. -/
def envOf (cls : ClassEntry) (cal : List CalPoint) (r : Record) : JackEnv := { cls := cls, cal := cal, rcd := r }

/-- The slot of a record after a lift-off load that this reply fixes has been written (R124). -/
def liftedSlot (s : State) (n : Nat) (p : JackProg) (t : JackReading) (z : Slot) : Slot :=
  if p.phase = .liftoff ∧ p.liftoff = none ∧ t.lifted then
    updatedSlot s n (fun v => { v with liftoffLoad := some t.load }) z
  else z

/-- The part before the phase logic of a jack's reply decides: a destressing has written its lift-off load. -/
def State.beforeLogic (s : State) (stress : Bool) (x : Context) (p : JackProg) (t : JackReading) : State :=
  if stress then s else s.writeLiftoff x p t

theorem State.stressReply_logic (s : State) (c : Nat) (x : Context) (p : JackProg) (fault : Bool) {env : JackEnv}
    {t : JackReading} (hend : loadEnding env t = none) : s.stressReply c x p fault env t =
      s.finishJack c x env .stress (p.useReply env true (x.run = .running) fault t) := by
  rw [State.stressReply, hend]

theorem State.destressReply_logic (s : State) (c : Nat) (x : Context) {p : JackProg} (fault : Bool) {env : JackEnv}
    {t : JackReading} (hend : loadEnding env t = none) (hno : noLiftoff p env t = false) :
    s.destressReply c x p fault env t =
      (s.writeLiftoff x p t).finishJack c x env .destress (p.useReply env false (x.run = .running) fault t) := by
  rw [State.destressReply, hend]
  exact if_neg (by rw [hno]; nofun)

/-- A reply that passes the load checks, and does not end a search for the lift-off, meets the phase logic. -/
theorem State.useReply_jack {s : State} {c : Nat} {x : Context} {y : Reply} {r : Record} {cls : ClassEntry}
    {cal : List CalPoint} {stress : Bool} {p : JackProg} {pressure stroke : Nat} {seated lifted restroking released : Bool}
    (hr : s.recAt x.slot = some r) (hcls : s.classOf r = some cls) (hcal : s.calAt x.station = some cal)
    (hprog : x.prog = jackProgress stress p) (hdata : y.data = .jack pressure stroke seated lifted restroking released)
    (hload : LoadPasses cls cal pressure) {t : JackReading}
    (ht : takeReading cal pressure stroke seated lifted restroking released = t)
    (hno : stress = false → noLiftoff p (envOf cls cal r) t = false) :
    s.useReply c x y = (s.beforeLogic stress x p t).finishJack c x (envOf cls cal r) (jackProgress stress)
      (p.useReply (envOf cls cal r) stress (x.run = .running) y.fault t) := by
  have henv : s.jackEnv x = some (envOf cls cal r) := by simp only [State.jackEnv, hr, hcls, hcal]; rfl
  have hend : loadEnding (envOf cls cal r) t = none := by
    obtain ⟨hover, hrange⟩ := hload
    have h1 : ¬ overloadLimit (envOf cls cal r).cls < t.load := by rw [← ht]; exact Nat.not_lt.2 hover
    have h2 : t.overrange = false := by rw [← ht]; exact hrange
    rw [loadEnding, if_neg h1, h2]
    rfl
  unfold State.useReply
  cases stress with
  | true =>
    have hp : x.prog = .stress p := hprog
    rw [hp, hdata, henv]
    exact (congrArg (s.stressReply c x p y.fault (envOf cls cal r)) ht).trans (s.stressReply_logic c x p y.fault hend)
  | false =>
    have hp : x.prog = .destress p := hprog
    rw [hp, hdata, henv]
    exact (congrArg (s.destressReply c x p y.fault (envOf cls cal r)) ht).trans
      (s.destressReply_logic c x y.fault hend (hno rfl))

end Sys2Proof.Machine
end

section
/-! The four ways in which the phase logic of a jack's reply ends, each applied to the part (R119, R120, R126). -/

namespace Sys2Proof.Machine

/-! ## Entries to RETIRED and to LOCKED, read in states that agree (R8, R10) -/

/-- Two parts that an entry to RETIRED or to LOCKED does not tell apart. -/
structure SameRecords (s t : State) : Prop where
  tbc : t.tbc = s.tbc
  isi : t.isi = s.isi
  channels : t.channels = s.channels
  wck : t.wck = s.wck

theorem RetiresRecord.congr {s s0 t0 t : State} {n st : Nat} {reason : RetireReason} {r r0 : Record}
    (h : RetiresRecord s0 t0 n st reason r r0) (hs : SameRecords s s0) (ht : SameWork t0 t) :
    RetiresRecord s t n st reason r r0 := by
  cases s; cases s0; cases t0; cases t
  obtain ⟨htbc, hisi, hch, hwck⟩ := hs
  obtain ⟨ttbc, -, tisi, tch, -, -⟩ := ht
  dsimp only at htbc hisi hch hwck ttbc tisi tch
  subst htbc hisi hch hwck ttbc tisi tch
  exact h

/-- Entry of the record `r` of slot `n` to LOCKED, its other fields as `f` gives them (R10): the record update, and the map
entry of its position, which moves to it where it replaces the live record. -/
def LocksRecord (s t : State) (n st : Nat) (r : Record) (f : Record → Record) : Prop :=
  t.slotAt n = updatedSlot s st (fun v => { f v with state := .locked }) (s.slotAt n) ∧
    (∀ m, m ≠ n → t.slotAt m = s.slotAt m) ∧
    t.tbc = { s.tbc with slots := t.tbc.slots, map := t.tbc.map } ∧
    (∀ m, r.replaces = some m → s.liveAt r.row r.bay = some m →
      t.liveAt r.row r.bay = some n ∧ t.isi = s.isi.handed [.slot n, .slot m] ∧
      ∀ key, key ≠ posKey r.row r.bay → t.tbc.map.get? key = s.tbc.map.get? key) ∧
    ((∀ m, r.replaces = some m → s.liveAt r.row r.bay ≠ some m) →
      t.tbc.map = s.tbc.map ∧ t.isi = s.isi.handed [.slot n])

theorem LocksRecord.congr {s s0 t0 t : State} {n st : Nat} {r : Record} {f : Record → Record}
    (h : LocksRecord s0 t0 n st r f) (hs : SameRecords s s0) (ht : SameWork t0 t) : LocksRecord s t n st r f := by
  cases s; cases s0; cases t0; cases t
  obtain ⟨htbc, hisi, hch, hwck⟩ := hs
  obtain ⟨ttbc, -, tisi, tch, -, -⟩ := ht
  dsimp only at htbc hisi hch hwck ttbc tisi tch
  subst htbc hisi hch hwck ttbc tisi tch
  exact h

/-- What a change of a map entry that held `m` to slot `n`, handed already, leaves in the write queue. -/
theorem State.setMap_isi_handed {s : State} {i : Isi} {key n m : Nat} (hkey : s.tbc.map.get? key = some m)
    (hisi : s.isi = i.handed [.slot n]) : (s.setMap key (some n)).isi = i.handed [.slot n, .slot m] := by
  by_cases hmn : m = n
  · subst hmn
    have hsame : s.setMap key (some m) = s := by rw [State.setMap]; exact if_pos hkey
    rw [hsame, hisi]
    exact (Isi.handed_same i _).symm.trans (Isi.handed_handed i _ _)
  · rw [State.setMap_isi hkey (fun e => hmn (Option.some.inj e).symm), hisi, Isi.handed_handed]
    show i.handed ([.slot n, .slot m] ++ [.slot n]) = _
    rw [← Isi.handed_handed, Isi.handed_again i List.mem_cons_self, Isi.handed_nil]

theorem State.lockRecord_locks {s : State} {n : Nat} {r : Record} (hr : s.recAt n = some r) (hne : r.state ≠ .locked)
    (st : Nat) (f : Record → Record) : LocksRecord s (s.lockRecord n st f) n st r f := by
  have hf : { f r with state := .locked } ≠ r := fun e => hne (congrArg Record.state e).symm
  have hown := s.slotAt_update n st (fun q => { f q with state := .locked })
  have hother := fun m (hm : m ≠ n) => s.update_slotAt_ne n m st (fun q => { f q with state := .locked }) hm
  have htbc := s.update_tbc_rest n st (fun q => { f q with state := .locked })
  have hisi := State.update_isi_eq (f := fun q => { f q with state := .locked }) hr st hf
  have hmap := s.update_map n st (fun q => { f q with state := .locked })
  unfold State.lockRecord
  rw [hr]
  dsimp only
  generalize s.update n st (fun q => { f q with state := .locked }) = u at hown hother htbc hisi hmap
  have hplain : u.tbc = { s.tbc with slots := u.tbc.slots, map := u.tbc.map } := by rw [htbc]
  have hlive : u.liveAt r.row r.bay = s.liveAt r.row r.bay := by rw [State.liveAt, hmap]; rfl
  cases hrep : r.replaces with
  | none =>
    dsimp only
    exact ⟨hown, hother, hplain, fun m hm _ => absurd (hrep.symm.trans hm) nofun, fun _ => ⟨hmap, hisi⟩⟩
  | some m =>
    by_cases hm : s.liveAt r.row r.bay = some m
    · have hkey : u.tbc.map.get? (posKey r.row r.bay) = some m := hlive.trans hm
      dsimp only
      rw [if_pos hm]
      refine ⟨by rw [State.slotAt_setMap]; exact hown, fun k hk => by rw [State.slotAt_setMap]; exact hother k hk, ?_,
        fun k hk _ => ?_, fun hno => absurd hm (hno m hrep)⟩
      · exact (State.setMap_tbc_rest _ _ _).trans (by rw [State.setMap_slots, htbc])
      · obtain rfl : m = k := Option.some.inj (hrep.symm.trans hk)
        refine ⟨State.setMap_get? _ _ _, State.setMap_isi_handed hkey hisi, fun key hne => ?_⟩
        rw [State.setMap_get?_ne _ _ _ _ hne, hmap]
    · dsimp only
      rw [if_neg hm]
      exact ⟨hown, hother, hplain, fun k hk hl => absurd (hl.trans (hk.symm.trans hrep)) hm, fun _ => ⟨hmap, hisi⟩⟩

/-! ## The part before the phase logic decides -/

/-- The part `w` as the phase logic of context `c` finds it: its own context aside, nothing has changed since `s` but the slot
of its record, to `z`. -/
structure BeforeLogic (s w : State) (c : Nat) (x : Context) (r : Record) (z : Slot) : Prop where
  others : ∀ d, d ≠ c → w.ctxAt d = s.ctxAt d
  parting : w.cxp.parting = s.cxp.parting
  ctx : ∀ m, (w.stationAt m).ctx = (s.stationAt m).ctx
  slot : SlotBecomes s w x.slot z
  oneStep : OneStep (s.slotAt x.slot) z
  channels : w.channels = s.channels
  wck : w.wck = s.wck
  atu : w.atu = s.atu
  conds : ∃ q, w.recAt x.slot = some q ∧ q.conds = r.conds

section
variable {s w : State} {n c : Nat} {x : Context} {r : Record} {z : Slot} {y : Reply} {l : LineId}

theorem BeforeLogic.site (h : BeforeLogic s w c x r z) : w.tbc.site = s.tbc.site := by
  obtain ⟨⟨-, -, htbc⟩, -⟩ := h.slot
  rw [htbc]

/-- The part once it has heard the station, its context answered. -/
theorem beforeLogic_heard (hr : s.recAt x.slot = some r) :
    BeforeLogic s ((s.heardFrom n l y).putCtx c (heardContext s x)) c x r (s.slotAt x.slot) := by
  have h0 := s.heardFrom_same n l y
  have hslot : (s.heardFrom n l y).slotAt x.slot = s.slotAt x.slot := State.slotAt_congr (by rw [h0.tbc]) _
  have hbecomes := (SlotBecomes.refl (s.heardFrom n l y) x.slot).congr h0 (SameWork.refl _)
  rw [hslot] at hbecomes
  exact {
    others := fun d hd => by rw [State.ctxAt_putCtx_ne _ _ _ _ hd, State.ctxAt, h0.cxp]; rfl
    parting := by rw [State.putCtx_parting, h0.cxp]
    ctx := h0.ctx
    slot := hbecomes
    oneStep := .inl rfl
    channels := h0.channels
    wck := h0.wck
    atu := by simp [State.heardFrom]
    conds := ⟨r, (State.recAt_congr (congrArg Tbc.slots h0.tbc) _).trans hr, rfl⟩ }

/-- A destressing writes the lift-off load that its reply fixes (R124). -/
theorem BeforeLogic.writeLiftoff (h : BeforeLogic s w c x r (s.slotAt x.slot)) (x' : Context) (hslot : x'.slot = x.slot)
    (hst : x'.station = n) (p : JackProg) (t : JackReading) :
    BeforeLogic s (w.writeLiftoff x' p t) c x r (liftedSlot s n p t (s.slotAt x.slot)) := by
  unfold liftedSlot State.writeLiftoff
  split
  · rw [hslot, hst]
    obtain ⟨q, hq, hconds⟩ := h.conds
    obtain ⟨stamp, hq'⟩ := State.recAt_update hq n (fun v => { v with liftoffLoad := some t.load })
    exact {
      others := fun d hd => (State.ctxAt_update ..).trans (h.others d hd)
      parting := by rw [State.update_cxp]; exact h.parting
      ctx := fun m => by rw [State.stationAt_congr (State.update_bmu ..)]; exact h.ctx m
      slot := h.slot.update h.oneStep h.wck n _
      oneStep := updatedSlot_oneStep s n _ _
      channels := by rw [State.update_channels]; exact h.channels
      wck := by rw [State.update_wck]; exact h.wck
      atu := by rw [State.update_atu]; exact h.atu
      conds := ⟨_, hq', hconds⟩ }
  · exact h

/-! ## The work goes on -/

/-- The progress is kept, and STATION_FAULT is raised where the reply carries FAULT (R166). -/
theorem BeforeLogic.goesOn (h : BeforeLogic s w c x r z) (n : Nat) (l : LineId) (y : Reply) (prog : Progress) {t : State}
    (ht : t = ((w.putCtx c { heardContext s x with prog := prog }).raiseFaultOf y x.slot n).afterReply l y.srq) :
    GoesOn s t c x prog ∧ Told s t y x.slot r [] ∧
      SlotBecomes s t x.slot (raisedSlot s n .stationFault y.fault z) := by
  have hput : SlotBecomes s (w.putCtx c { heardContext s x with prog := prog }) x.slot z := h.slot
  obtain ⟨q, hq, hconds⟩ := h.conds
  generalize hu : w.putCtx c { heardContext s x with prog := prog } = u at ht hput
  have hself : u.ctxAt c = some { heardContext s x with prog := prog } := by rw [← hu, State.ctxAt_putCtx_same]
  have hothers : ∀ d, d ≠ c → u.ctxAt d = s.ctxAt d := fun d hd => by
    rw [← hu, State.ctxAt_putCtx_ne _ _ _ _ hd, h.others d hd]
  have hparting : u.cxp.parting = s.cxp.parting := by rw [← hu, State.putCtx_parting, h.parting]
  have hraise : (u.raiseFaultOf y x.slot n).cxp = u.cxp ∧
      (u.raiseFaultOf y x.slot n).atu = toldNew s (.record x.slot) r.conds (if y.fault = true then [.stationFault] else []) ∧
      SlotBecomes s (u.raiseFaultOf y x.slot n) x.slot (raisedSlot s n .stationFault y.fault z) := by
    unfold State.raiseFaultOf raisedSlot
    cases y.fault with
    | true =>
      refine ⟨by simp, ?_, hput.updateRaising h.oneStep (by rw [← hu]; exact h.wck) n [.stationFault] id⟩
      have hqu : u.recAt x.slot = some q := by rw [← hu]; exact hq
      rw [← hconds]
      exact State.updateRaising_atu hqu (by rw [← hu]; exact h.site) (by rw [← hu]; exact h.wck)
        (by rw [← hu]; exact h.atu) n _ id
    | false => exact ⟨rfl, by rw [← hu]; exact h.atu, hput⟩
  obtain ⟨hcxp, hatu, hbecomes⟩ := hraise
  generalize u.raiseFaultOf y x.slot n = v at ht hcxp hatu hbecomes
  have hafter : SameWork v t := by rw [ht]; exact SameWork.afterReply v l y.srq
  have hctxt (d : Nat) : t.ctxAt d = u.ctxAt d := by rw [State.ctxAt, hafter.cxp, hcxp]; rfl
  refine ⟨⟨(hctxt c).trans hself, fun d hd => (hctxt d).trans (hothers d hd), ?_⟩, fun hsrq => ?_,
    hbecomes.congr (SameWork.refl s) hafter⟩
  · rw [hafter.cxp, hcxp]; exact hparting
  · rw [ht, hsrq, State.afterReply_atu]; exact hatu

/-! ## The work ends -/

/-- The context is released, whatever has become of the record (R53, R54). -/
theorem BeforeLogic.freed (h : BeforeLogic s w c x r z) (hlt : x.station < 16) (p : Parting) {u t : State}
    (hcxp : u.cxp = (w.freeCtx c (heardContext s x) p).cxp) (hbmu : u.bmu = (w.freeCtx c (heardContext s x) p).bmu)
    (ht : SameWork u t) : Freed s t c x p := by
  obtain ⟨-, hst, -⟩ := heardContext_bond s x
  have hctxt (d : Nat) : t.ctxAt d = (w.freeCtx c (heardContext s x) p).ctxAt d := by rw [State.ctxAt, ht.cxp, hcxp]; rfl
  have hpart : t.cxp.parting = s.cxp.parting.put x.station p := by
    rw [ht.cxp, hcxp, ← h.parting, ← hst]; rfl
  have hstation (m : Nat) : (t.stationAt m).ctx = if m = x.station then none else (s.stationAt m).ctx := by
    rw [ht.ctx, State.stationAt_congr hbmu, State.freeCtx_stationAt, hst]
    by_cases hm : m = x.station
    · rw [if_pos ⟨hm, hlt⟩, if_pos hm]
    · rw [if_neg fun e => hm e.1, if_neg hm]; exact h.ctx m
  refine ⟨(hctxt c).trans (State.ctxAt_freeCtx_same ..), fun d hd => ?_, ?_, fun m hm => ?_, ?_, fun m hm => ?_⟩
  · rw [hctxt, State.ctxAt_freeCtx_ne _ _ _ _ _ hd]; exact h.others d hd
  · rw [hpart, Table.get?_put_same]
  · rw [hpart, Table.get?_put_ne _ _ _ _ hm]
  · rw [hstation, if_pos rfl]
  · rw [hstation, if_neg hm]

/-- A failing seating: the record is FAILED with LOCKOFF_FAIL (R120). -/
theorem BeforeLogic.fails (h : BeforeLogic s w c x r z) (hlt : x.station < 16) (l : LineId) {y : Reply}
    (hfault : y.fault = false) (p : Parting) (result : StressResult) {t : State}
    (ht : t = ((w.freeCtx c (heardContext s x) p).updateRaising x.slot x.station [.lockoffFail] (fun v => { v with
      state := .failed, context := none, stress := some result })).afterReply l y.srq) :
    Freed s t c x p ∧ Told s t y x.slot r [.lockoffFail] ∧
      SlotBecomes s t x.slot (updatedSlot s x.station (failedRecord result .lockoffFail) z) := by
  obtain ⟨q, hq, hconds⟩ := h.conds
  have hbecomes : SlotBecomes s (w.freeCtx c (heardContext s x) p) x.slot z := h.slot
  have hraised := hbecomes.updateRaising h.oneStep (by rw [State.freeCtx_wck]; exact h.wck) x.station [.lockoffFail]
    (fun v => { v with state := .failed, context := none, stress := some result })
  have hatu := State.updateRaising_atu (s := s) (t := w.freeCtx c (heardContext s x) p) hq
    h.site (by rw [State.freeCtx_wck]; exact h.wck) (by rw [State.freeCtx_atu]; exact h.atu) x.station [.lockoffFail]
    (fun v => { v with state := .failed, context := none, stress := some result })
  have hafter := SameWork.afterReply ((w.freeCtx c (heardContext s x) p).updateRaising x.slot x.station [.lockoffFail]
    (fun v => { v with state := .failed, context := none, stress := some result })) l y.srq
  rw [← ht] at hafter
  refine ⟨h.freed hlt p (by simp) (by simp) hafter, fun hsrq => ?_, hraised.congr (SameWork.refl s) hafter⟩
  rw [ht, hsrq, State.afterReply_atu, hatu, hconds, hfault]
  rfl

/-- A release: the record enters RETIRED (R8, R126). -/
theorem BeforeLogic.retires (h : BeforeLogic s w c x r z) (htbc : w.tbc = s.tbc) (hisi : w.isi = s.isi)
    (hlt : x.station < 16) (l : LineId) (y : Reply) (p : Parting) (hr : s.recAt x.slot = some r) (hne : r.state ≠ .retired)
    (hself : r.replaces ≠ some x.slot) (hself' : r.replacedBy ≠ some x.slot) (reason : RetireReason) {t : State}
    (ht : t = ((w.freeCtx c (heardContext s x) p).retireRecord x.slot x.station reason id).afterReply l y.srq) :
    Freed s t c x p ∧ RetiresRecord s t x.slot x.station reason r r ∧
      (y.srq = true → t.atu = (s.atu.drop (fun e => e.subject = .record x.slot)).sound s.tbc.site.alarm) := by
  have hrw : (w.freeCtx c (heardContext s x) p).recAt x.slot = some r :=
    (State.recAt_congr (congrArg Tbc.slots htbc) _).trans hr
  obtain ⟨hret, hatu⟩ := State.retireRecord_retires hrw hne hself hself' x.station reason
    (r0 := r) (f := id) rfl
  have hafter := SameWork.afterReply ((w.freeCtx c (heardContext s x) p).retireRecord x.slot x.station reason id) l y.srq
  rw [← ht] at hafter
  refine ⟨h.freed hlt p (by simp) (by simp) hafter, hret.congr ?_ hafter, fun hsrq => ?_⟩
  · exact ⟨htbc, hisi, h.channels, h.wck⟩
  · rw [ht, hsrq, State.afterReply_atu, hatu, State.freeCtx_atu, h.atu, State.freeCtx_tbc, htbc]

/-- A passing seating: the record is LOCKED (R10, R119). -/
theorem BeforeLogic.locks (h : BeforeLogic s w c x r z) (htbc : w.tbc = s.tbc) (hisi : w.isi = s.isi)
    (hlt : x.station < 16) (l : LineId) {y : Reply} (hfault : y.fault = false) (p : Parting)
    (hr : s.recAt x.slot = some r) (hne : r.state ≠ .locked) (f : Record → Record) {t : State}
    (ht : t = ((w.freeCtx c (heardContext s x) p).lockRecord x.slot x.station f).afterReply l y.srq) :
    Freed s t c x p ∧ Told s t y x.slot r [] ∧ LocksRecord s t x.slot x.station r f := by
  have hrw : (w.freeCtx c (heardContext s x) p).recAt x.slot = some r :=
    (State.recAt_congr (congrArg Tbc.slots htbc) _).trans hr
  have hlocks := State.lockRecord_locks hrw hne x.station f
  have hafter := SameWork.afterReply ((w.freeCtx c (heardContext s x) p).lockRecord x.slot x.station f) l y.srq
  rw [← ht] at hafter
  refine ⟨h.freed hlt p (by simp) (by simp) hafter, fun hsrq => ?_, hlocks.congr ?_ hafter⟩
  · rw [ht, hsrq, State.afterReply_atu, State.lockRecord_atu, State.freeCtx_atu, h.atu, hfault]
    rfl
  · exact ⟨htbc, hisi, h.channels, h.wck⟩

end

end Sys2Proof.Machine
end

section
/-! The phases that end the work of a jack (R103, R104, R119 to R121, R124 to R126). -/

namespace Sys2Proof.Machine

/-! ## Steps 3 to 6 of R109 in the phases SEATING, LIFTOFF and FREE -/

section
variable (p q : JackProg) (env : JackEnv) (t : JackReading) (stress fault : Bool) (s : State) (x : Context)

/-- The progress after steps 3 and 4 of R109. -/
def JackProg.heard : JackProg := replied env.cls env.rcd env.cal stress p fault t.pressure t.load t.stroke t.restroking

/-- Step 6 of R109 as it is made, or deferred, for a context that has been heard. -/
def JackProg.outcome : JackProg × JackEnd :=
  p.useReply env stress ((heardContext s x).run = .running) fault t

theorem JackProg.outcome_inFull (h : InFull s x p stress fault) : p.outcome env t stress fault s x =
    ((p.heard env t stress fault).takeReadings env t).phaseLogic env t := by
  obtain ⟨hrun, hfault, hreg⟩ := h
  unfold JackProg.outcome JackProg.useReply
  dsimp only
  rw [replied_eq, if_pos]
  · rfl
  · refine ⟨decide_eq_true hrun, hfault, ?_⟩
    cases stress with
    | true => exact .inr (hreg rfl)
    | false => exact .inl rfl

theorem JackProg.outcome_notInFull (h : ¬ InFull s x p stress fault) : p.outcome env t stress fault s x =
    (((p.heard env t stress fault).takeReadings env t).defer env t, .goesOn) := by
  unfold JackProg.outcome JackProg.useReply
  dsimp only
  rw [replied_eq, if_neg]
  · rfl
  · rintro ⟨hrun, hfault, hreg⟩
    exact h ⟨of_decide_eq_true hrun, hfault, fun hs => hreg.resolve_left (by rw [hs]; nofun)⟩

theorem restroked_kept (cls : ClassEntry) (r : Record) (cal : List CalPoint) (p : JackProg) (load stroke : Nat)
    (restroking : Bool) : (restroked cls r cal p load stroke restroking).phase = p.phase ∧
      (restroked cls r cal p load stroke restroking).afterSeat = p.afterSeat ∧
      (restroked cls r cal p load stroke restroking).liftoff = p.liftoff := by
  unfold restroked
  dsimp only
  split_ifs <;> exact ⟨rfl, rfl, rfl⟩

/-- Steps 3 and 4 leave what the last phases read. -/
theorem JackProg.heard_kept : (p.heard env t stress fault).phase = p.phase ∧
    (p.heard env t stress fault).afterSeat = p.afterSeat ∧ (p.heard env t stress fault).liftoff = p.liftoff := by
  unfold JackProg.heard replied
  cases stress
  · exact ⟨rfl, rfl, rfl⟩
  · exact restroked_kept env.cls env.rcd env.cal { p with faultHold := fault } t.load t.stroke t.restroking

/-- The progress with the stroke after seating that this reply gives (R119). -/
def JackProg.seatRead : JackProg :=
  if t.seated = true ∧ q.afterSeat = none then { q with afterSeat := some t.stroke } else q

/-- The progress with the lift-off load and its steps that this reply gives (R124). -/
def JackProg.liftRead : JackProg :=
  if t.lifted = true ∧ q.liftoff = none then { q with
    liftoff := some t.load
    steps := (stepTargets t.load env.cls.destStep).map (fun k => (k, (pressureOf env.cal k).1)) }
  else q

variable {q}

theorem JackProg.takeReadings_seating (h : q.phase = .seating) : q.takeReadings env t = q.seatRead t := by
  cases q; subst h; rfl

theorem JackProg.takeReadings_liftoff (h : q.phase = .liftoff) : q.takeReadings env t = q.liftRead env t := by
  cases q; subst h; rfl

theorem JackProg.takeReadings_free (h : q.phase = .free) : q.takeReadings env t = q := by
  cases q; subst h; rfl

theorem JackProg.seatRead_phase : (q.seatRead t).phase = q.phase := by unfold JackProg.seatRead; split <;> rfl

theorem JackProg.liftRead_phase : (q.liftRead env t).phase = q.phase := by unfold JackProg.liftRead; split <;> rfl

theorem JackProg.liftRead_isSome (h : q.liftoff ≠ none ∨ t.lifted = true) : (q.liftRead env t).liftoff.isSome = true := by
  unfold JackProg.liftRead
  split
  · rfl
  · next hno =>
    cases hq : q.liftoff with
    | some v => rfl
    | none => exact absurd ⟨h.resolve_left (fun hne => hne hq), hq⟩ hno

theorem JackProg.phaseLogic_seating (h : q.phase = .seating) : q.phaseLogic env t = q.seatingVerdict env := by
  cases q; subst h; rfl

theorem JackProg.phaseLogic_free (h : q.phase = .free) : q.phaseLogic env t =
    if releaseSeen t then (q, .released) else ({ q with pendingAdv := false }, .goesOn) := by
  cases q; subst h; rfl

theorem JackProg.phaseLogic_liftoff (h : q.phase = .liftoff) : q.phaseLogic env t =
    if q.liftoff.isSome then
      if q.steps.isEmpty then (q.enter env .free 0, .goesOn) else (q.enter env .step 1, .goesOn)
    else (q, .goesOn) := by
  cases q; subst h; rfl

theorem JackProg.phaseLogic_liftoff_none (h : q.phase = .liftoff) (hl : q.liftoff = none) :
    q.phaseLogic env t = (q, .goesOn) := by
  rw [JackProg.phaseLogic_liftoff env t h, if_neg (by rw [hl]; nofun)]

theorem JackProg.phaseLogic_liftoff_done (h : q.phase = .liftoff) (hl : q.liftoff.isSome = true) (hs : q.steps = []) :
    q.phaseLogic env t = (entering q .free 0 .free, .goesOn) := by
  rw [JackProg.phaseLogic_liftoff env t h, if_pos hl, if_pos (by rw [hs]; rfl)]
  rfl

theorem JackProg.phaseLogic_liftoff_steps (h : q.phase = .liftoff) (hl : q.liftoff.isSome = true) {target kpa : Nat}
    {rest : List (Nat × Nat)} (hs : q.steps = (target, kpa) :: rest) :
    q.phaseLogic env t = (entering q .step 1 (.pressure kpa), .goesOn) := by
  rw [JackProg.phaseLogic_liftoff env t h, if_pos hl, if_neg (by rw [hs]; nofun), enter_eq]
  simp [entryOrder, JackProg.approach, hs]

theorem JackProg.defer_seating (h : q.phase = .seating) :
    q.defer env t = if q.afterSeat = none then q else { q with pendingAdv := true } := by
  have hdefer : q.defer env t = if q.afterSeat.isSome then { q with pendingAdv := true } else q := by cases q; subst h; rfl
  rw [hdefer]
  by_cases ha : q.afterSeat = none
  · rw [if_pos ha, if_neg (by rw [ha]; nofun)]
  · rw [if_neg ha, if_pos (Option.isSome_iff_ne_none.2 ha)]

theorem JackProg.defer_liftoff (h : q.phase = .liftoff) :
    q.defer env t = if q.liftoff.isSome then { q with pendingAdv := true } else q := by
  cases q; subst h; rfl

theorem JackProg.defer_free (h : q.phase = .free) :
    q.defer env t = if releaseSeen t then { q with pendingAdv := true } else q := by
  cases q; subst h; rfl

/-- A seating without both its figures goes on. -/
theorem JackProg.seatingVerdict_open (h : q.beforeSeat = none ∨ q.afterSeat = none) :
    q.seatingVerdict env = (q, .goesOn) := by
  unfold JackProg.seatingVerdict
  rcases h with h | h
  · rw [h]
  · rw [h]; cases q.beforeSeat <;> rfl

/-- A seating with both its figures gives its verdict on the residual (R103, R119). -/
theorem JackProg.seatingVerdict_passes {load at0 at1 : Nat} (hb : q.beforeSeat = some (load, at0))
    (ha : q.afterSeat = some at1)
    (hp : lockoffPasses env.cls (residualLoad env.cls load (at0 - at1) (q.freeLength.getD 0)) = true) :
    q.seatingVerdict env = (q, .passes (residualLoad env.cls load (at0 - at1) (q.freeLength.getD 0))) := by
  simp only [JackProg.seatingVerdict, hb, ha, drawIn, hp, if_true]

theorem JackProg.seatingVerdict_fails {load at0 at1 : Nat} (hb : q.beforeSeat = some (load, at0))
    (ha : q.afterSeat = some at1)
    (hp : lockoffPasses env.cls (residualLoad env.cls load (at0 - at1) (q.freeLength.getD 0)) = false) :
    q.seatingVerdict env = (q, .fails .lockoffFail) := by
  simp only [JackProg.seatingVerdict, hb, ha, drawIn, hp, Bool.false_eq_true, if_false]

theorem JackProg.residualOf_closed {load at0 at1 : Nat} (hb : q.beforeSeat = some (load, at0))
    (ha : q.afterSeat = some at1) :
    q.residualOf env = some (residualLoad env.cls load (at0 - at1) (q.freeLength.getD 0)) := by
  simp only [JackProg.residualOf, hb, ha, drawIn]

end

end Sys2Proof.Machine
end

section
/-! Seating, lift-off and release (R103, R104, R119 to R121, R124 to R126). -/

namespace Sys2Proof.Machine

/-- What a used reply leaves where the work goes on with `q`, `z` being the slot of the record but for STATION_FAULT. -/
def KeepsOn (s t : State) (n c : Nat) (x : Context) (r : Record) (y : Reply) (stress : Bool) (q : JackProg) (z : Slot) : Prop :=
  GoesOn s t c x (jackProgress stress q) ∧ Told s t y x.slot r [] ∧
    SlotBecomes s t x.slot (raisedSlot s n .stationFault y.fault z)

section
variable {n : Nat} {l : LineId} {y : Reply} {s : State} {c : Nat} {x : Context} {r : Record} {cls : ClassEntry}
  {cal : List CalPoint} {stress : Bool} {p : JackProg} {pressure stroke : Nat} {seated lifted restroking released : Bool}

theorem State.beforeLogic_eq (s : State) (stress : Bool) (x : Context) {p : JackProg} (hp : p.phase ≠ .liftoff)
    (t : JackReading) : s.beforeLogic stress x p t = s := by
  unfold State.beforeLogic State.writeLiftoff
  split
  · rfl
  · exact if_neg fun h => hp h.1

/-- The part after a used reply of a bound jack that reaches the phase logic. -/
theorem JackReply.afterUsed_eq (h : JackReply s n l y c x r cls cal stress p)
    (hdata : y.data = .jack pressure stroke seated lifted restroking released) (hload : LoadPasses cls cal pressure)
    {t : JackReading} (ht : takeReading cal pressure stroke seated lifted restroking released = t)
    (hno : stress = false → noLiftoff p (envOf cls cal r) t = false) :
    s.afterUsed n l y c x = (((((s.heardFrom n l y).putCtx c (heardContext s x)).beforeLogic stress (heardContext s x) p
      t).finishJack c (heardContext s x) (envOf cls cal r) (jackProgress stress)
        (p.outcome (envOf cls cal r) t stress y.fault s x)).raiseFaultOf y x.slot n).afterReply l y.srq := by
  obtain ⟨⟨-, -, -, -, -, -, -, -, -, hst, hr, hcls⟩, hcal, hprog⟩ := h
  obtain ⟨hslot, hstation, hp⟩ := heardContext_bond s x
  have h0 := s.heardFrom_same n l y
  have huse := State.useReply_jack (s := (s.heardFrom n l y).putCtx c (heardContext s x)) (c := c) (x := heardContext s x)
    (r := r) (stress := stress) (p := p) (hslot ▸ (State.recAt_congr (congrArg Tbc.slots h0.tbc) _).trans hr)
    (by simpa [State.classOf, State.classAt, h0.tbc] using hcls)
    (by rw [hstation, hst]; simpa [State.calAt, State.heardFrom] using hcal) (hp.trans hprog) hdata hload ht hno
  rw [State.afterUsed, huse]
  rfl

/-- Where the phase logic goes on, the progress is kept. -/
theorem JackReply.keeps (h : JackReply s n l y c x r cls cal stress p)
    (hdata : y.data = .jack pressure stroke seated lifted restroking released) (hload : LoadPasses cls cal pressure)
    {t : JackReading} (ht : takeReading cal pressure stroke seated lifted restroking released = t)
    (hno : stress = false → noLiftoff p (envOf cls cal r) t = false) {q : JackProg}
    (hout : p.outcome (envOf cls cal r) t stress y.fault s x = (q, .goesOn)) :
    KeepsOn s (s.afterUsed n l y c x) n c x r y stress q
      (if stress then s.slotAt x.slot else liftedSlot s n p t (s.slotAt x.slot)) := by
  have hafter := h.afterUsed_eq hdata hload ht hno
  obtain ⟨⟨-, -, -, -, -, -, -, -, -, hst, hr, -⟩, -, -⟩ := h
  obtain ⟨hslot, hstation, -⟩ := heardContext_bond s x
  have hheard : BeforeLogic s ((s.heardFrom n l y).putCtx c (heardContext s x)) c x r (s.slotAt x.slot) :=
    beforeLogic_heard hr
  rw [hout] at hafter
  cases stress with
  | true => exact hheard.goesOn n l y (.stress q) hafter
  | false => exact (hheard.writeLiftoff (heardContext s x) hslot (hstation.trans hst) p t).goesOn n l y (.destress q) hafter

/-- Outside LIFTOFF the record is left alone where the work goes on. -/
theorem JackReply.keeps_same (h : JackReply s n l y c x r cls cal stress p)
    (hdata : y.data = .jack pressure stroke seated lifted restroking released) (hload : LoadPasses cls cal pressure)
    {t : JackReading} (ht : takeReading cal pressure stroke seated lifted restroking released = t)
    (hp : p.phase ≠ .liftoff) {q : JackProg}
    (hout : p.outcome (envOf cls cal r) t stress y.fault s x = (q, .goesOn)) :
    KeepsOn s (s.afterUsed n l y c x) n c x r y stress q (s.slotAt x.slot) := by
  have hkeeps := h.keeps hdata hload ht (fun _ => decide_eq_false fun e => hp e.1) hout
  have hz : (if stress then s.slotAt x.slot else liftedSlot s n p t (s.slotAt x.slot)) = s.slotAt x.slot := by
    split
    · rfl
    · exact if_neg fun e => hp e.1
  rw [hz] at hkeeps
  exact hkeeps

/-! ## Seating (R103, R119 to R121) -/

/-- A used reply in SEATING that is not made in full marks the advance that its figures have earned. -/
theorem JackReply.seating_deferred (h : JackReply s n l y c x r cls cal stress p)
    (hdata : y.data = .jack pressure stroke seated lifted restroking released) (hload : LoadPasses cls cal pressure)
    {t : JackReading} (ht : takeReading cal pressure stroke seated lifted restroking released = t)
    (hp : p.phase = .seating) (hfull : ¬ InFull s x p stress y.fault) {j : JackProg}
    (hj : j = (p.heard (envOf cls cal r) t stress y.fault).seatRead t) :
    KeepsOn s (s.afterUsed n l y c x) n c x r y stress (if j.afterSeat = none then j else { j with pendingAdv := true })
      (s.slotAt x.slot) := by
  have hphase : (p.heard (envOf cls cal r) t stress y.fault).phase = .seating := (JackProg.heard_kept ..).1.trans hp
  refine h.keeps_same hdata hload ht (by rw [hp]; nofun) ?_
  rw [JackProg.outcome_notInFull _ _ _ _ _ _ _ hfull, JackProg.takeReadings_seating _ _ hphase, ← hj,
    JackProg.defer_seating _ _ (by rw [hj, JackProg.seatRead_phase, hphase])]

/-- Made in full, it meets the verdict on the seating. -/
theorem JackReply.seating_outcome (hp : p.phase = .seating) {t : JackReading} (hfull : InFull s x p stress y.fault)
    {j : JackProg} (hj : j = (p.heard (envOf cls cal r) t stress y.fault).seatRead t) :
    p.outcome (envOf cls cal r) t stress y.fault s x = j.seatingVerdict (envOf cls cal r) := by
  have hphase : (p.heard (envOf cls cal r) t stress y.fault).phase = .seating := (JackProg.heard_kept ..).1.trans hp
  rw [JackProg.outcome_inFull _ _ _ _ _ _ _ hfull, JackProg.takeReadings_seating _ _ hphase, ← hj,
    JackProg.phaseLogic_seating _ _ (by rw [hj, JackProg.seatRead_phase, hphase])]

/-- The part after a used reply that ends the work, in a phase other than LIFTOFF. -/
theorem JackReply.ended (h : JackReply s n l y c x r cls cal stress p)
    (hdata : y.data = .jack pressure stroke seated lifted restroking released) (hload : LoadPasses cls cal pressure)
    {t : JackReading} (ht : takeReading cal pressure stroke seated lifted restroking released = t)
    (hp : p.phase ≠ .liftoff) (hfault : y.fault = false) :
    ∃ w, BeforeLogic s w c x r (s.slotAt x.slot) ∧ w.tbc = s.tbc ∧ w.isi = s.isi ∧
      s.afterUsed n l y c x = (w.finishJack c (heardContext s x) (envOf cls cal r) (jackProgress stress)
        (p.outcome (envOf cls cal r) t stress y.fault s x)).afterReply l y.srq := by
  have hafter := h.afterUsed_eq hdata hload ht (fun _ => decide_eq_false fun e => hp e.1)
  obtain ⟨⟨-, -, -, -, -, -, -, -, -, -, hr, -⟩, -, -⟩ := h
  have h0 := s.heardFrom_same n l y
  rw [State.beforeLogic_eq _ _ _ hp, State.raiseFaultOf, hfault, if_neg nofun] at hafter
  exact ⟨_, beforeLogic_heard hr, h0.tbc, h0.isi, by rw [hafter, hfault]⟩

/-- The record of a bound jack is in work, and its station is one of the sixteen. -/
theorem JackReply.atWork (h : JackReply s n l y c x r cls cal stress p) : r.state.isWork = true ∧ x.station < 16 := by
  obtain ⟨⟨⟨-, hctx, -⟩, -, -, -, -, -, -, -, hx, -, hr, -⟩, -, -⟩ := h
  obtain ⟨-, ⟨q, hq, hstate, -⟩, hlt, -⟩ := hctx c x hx
  obtain rfl : q = r := Option.some.inj (hq.symm.trans hr)
  exact ⟨hstate ▸ WorkKind.isWork _, hlt⟩

/-- A residual outside its window fails the seating (R103, R120, R121). -/
theorem JackReply.seating_fails (h : JackReply s n l y c x r cls cal stress p)
    (hdata : y.data = .jack pressure stroke seated lifted restroking released) (hload : LoadPasses cls cal pressure)
    {t : JackReading} (ht : takeReading cal pressure stroke seated lifted restroking released = t)
    (hp : p.phase = .seating) (hfull : InFull s x p stress y.fault) {j : JackProg}
    (hj : j = (p.heard (envOf cls cal r) t stress y.fault).seatRead t) {load at0 at1 : Nat}
    (hb : j.beforeSeat = some (load, at0)) (ha : j.afterSeat = some at1) {residual : Nat}
    (hres : residual = residualLoad cls load (at0 - at1) (j.freeLength.getD 0))
    (hfails : lockoffPasses cls residual = false) :
    Freed s (s.afterUsed n l y c x) c x (Parting.plain .idle) ∧ Told s (s.afterUsed n l y c x) y x.slot r [.lockoffFail] ∧
      SlotBecomes s (s.afterUsed n l y c x) x.slot (updatedSlot s n (failedRecord (verdictResult cls j .lockoffFail
        j.freeLength (some (jackLockoff cls r, at0 - at1, residual))) .lockoffFail) (s.slotAt x.slot)) := by
  subst hres
  obtain ⟨w, hbefore, -, -, hafter⟩ := h.ended hdata hload ht (by rw [hp]; nofun) hfull.2.1
  obtain ⟨-, hlt⟩ := h.atWork
  obtain ⟨⟨-, -, -, -, -, -, -, -, -, hst, -, -⟩, -, -⟩ := h
  obtain ⟨hslot, hstation, -⟩ := heardContext_bond s x
  rw [JackReply.seating_outcome hp hfull hj, JackProg.seatingVerdict_fails (envOf cls cal r) hb ha hfails,
    State.finishJack] at hafter
  dsimp only at hafter
  rw [if_pos rfl, JackProg.residualOf_closed (envOf cls cal r) hb ha, stressResult_seated _ _ .lockoffFail (by nofun) _ _ _ _ hb ha,
    hslot, hstation] at hafter
  have hfailed := hbefore.fails hlt l hfull.2.1 (Parting.plain .idle) _ hafter
  rw [hst] at hfailed
  exact hfailed

/-- A residual in its window locks the record off (R10, R103, R119, R121). -/
theorem JackReply.seating_passes (h : JackReply s n l y c x r cls cal stress p)
    (hdata : y.data = .jack pressure stroke seated lifted restroking released) (hload : LoadPasses cls cal pressure)
    {t : JackReading} (ht : takeReading cal pressure stroke seated lifted restroking released = t)
    (hp : p.phase = .seating) (hfull : InFull s x p stress y.fault) {j : JackProg}
    (hj : j = (p.heard (envOf cls cal r) t stress y.fault).seatRead t) {load at0 at1 : Nat}
    (hb : j.beforeSeat = some (load, at0)) (ha : j.afterSeat = some at1) {residual : Nat}
    (hres : residual = residualLoad cls load (at0 - at1) (j.freeLength.getD 0))
    (hpasses : lockoffPasses cls residual = true) :
    Freed s (s.afterUsed n l y c x) c x (Parting.plain .idle) ∧ Told s (s.afterUsed n l y c x) y x.slot r [] ∧
      LocksRecord s (s.afterUsed n l y c x) x.slot n r (fun v => { v with
        context := none, lockoffLoad := some residual
        stress := some (verdictResult cls j .pass j.freeLength (some (jackLockoff cls r, at0 - at1, residual))) }) := by
  subst hres
  obtain ⟨w, hbefore, htbc, hisi, hafter⟩ := h.ended hdata hload ht (by rw [hp]; nofun) hfull.2.1
  obtain ⟨hwork, hlt⟩ := h.atWork
  obtain ⟨⟨-, -, -, -, -, -, -, -, -, hst, hr, -⟩, -, -⟩ := h
  obtain ⟨hslot, hstation, -⟩ := heardContext_bond s x
  rw [JackReply.seating_outcome hp hfull hj, JackProg.seatingVerdict_passes (envOf cls cal r) hb ha hpasses,
    State.finishJack] at hafter
  dsimp only at hafter
  rw [stressResult_seated _ _ .pass (by nofun) _ _ _ _ hb ha, hslot, hstation] at hafter
  have hlocked := hbefore.locks htbc hisi hlt l hfull.2.1 (Parting.plain .idle) hr (fun e => by rw [e] at hwork; cases hwork)
    _ hafter
  rw [hst] at hlocked
  exact hlocked

/-! ## Lift-off (R104, R124) -/

/-- The search for the lift-off is not over, or is over with the lift-off load (R124). -/
theorem noLiftoff_of (p : JackProg) {env : JackEnv} {t : JackReading}
    (h : t.load ≤ searchLimit (env.rcd.lockoffLoad.getD 0) ∨ p.liftoff ≠ none ∨ t.lifted = true) :
    noLiftoff p env t = false := by
  refine decide_eq_false fun ⟨_, hnone, hlifted, hover⟩ => ?_
  rcases h with h | h | h
  · exact absurd hover (Nat.not_lt.2 h)
  · exact h hnone
  · rw [hlifted] at h; cases h

/-- A search that finds nothing yet goes on as it is. -/
theorem JackReply.liftoff_searching (h : JackReply s n l y c x r cls cal false p)
    (hdata : y.data = .jack pressure stroke seated lifted restroking released) (hload : LoadPasses cls cal pressure)
    {t : JackReading} (ht : takeReading cal pressure stroke seated lifted restroking released = t)
    (hp : p.phase = .liftoff) (hnone : p.liftoff = none) (hlifted : t.lifted = false)
    (hlimit : t.load ≤ searchLimit (r.lockoffLoad.getD 0)) :
    KeepsOn s (s.afterUsed n l y c x) n c x r y false (p.heard (envOf cls cal r) t false y.fault) (s.slotAt x.slot) := by
  obtain ⟨hphase, -, hoff⟩ := JackProg.heard_kept p (envOf cls cal r) t false y.fault
  have hread : (p.heard (envOf cls cal r) t false y.fault).takeReadings (envOf cls cal r) t =
      p.heard (envOf cls cal r) t false y.fault := by
    rw [JackProg.takeReadings_liftoff _ _ (hphase.trans hp)]
    exact if_neg fun e => by rw [hlifted] at e; cases e.1
  have hout : p.outcome (envOf cls cal r) t false y.fault s x = (p.heard (envOf cls cal r) t false y.fault, .goesOn) := by
    by_cases hfull : InFull s x p false y.fault
    · rw [JackProg.outcome_inFull _ _ _ _ _ _ _ hfull, hread,
        JackProg.phaseLogic_liftoff_none _ _ (hphase.trans hp) (hoff.trans hnone)]
    · rw [JackProg.outcome_notInFull _ _ _ _ _ _ _ hfull, hread, JackProg.defer_liftoff _ _ (hphase.trans hp),
        if_neg (by rw [hoff, hnone]; nofun)]
  have hkeeps := h.keeps hdata hload ht (fun _ => noLiftoff_of p (.inl hlimit)) hout
  rwa [if_neg nofun, liftedSlot, if_neg (fun e => by rw [hlifted] at e; cases e.2.2)] at hkeeps

/-- A fixed lift-off load leads to its first step, or with none to FREE; deferred, the advance is pending. -/
theorem JackReply.liftoff_found (h : JackReply s n l y c x r cls cal false p)
    (hdata : y.data = .jack pressure stroke seated lifted restroking released) (hload : LoadPasses cls cal pressure)
    {t : JackReading} (ht : takeReading cal pressure stroke seated lifted restroking released = t)
    (hp : p.phase = .liftoff) (hfound : p.liftoff ≠ none ∨ t.lifted = true) {j : JackProg}
    (hj : j = (p.heard (envOf cls cal r) t false y.fault).liftRead (envOf cls cal r) t) :
    (InFull s x p false y.fault →
      (j.steps = [] → KeepsOn s (s.afterUsed n l y c x) n c x r y false (entering j .free 0 .free)
        (liftedSlot s n p t (s.slotAt x.slot))) ∧
      ∀ target kpa rest, j.steps = (target, kpa) :: rest → KeepsOn s (s.afterUsed n l y c x) n c x r y false
        (entering j .step 1 (.pressure kpa)) (liftedSlot s n p t (s.slotAt x.slot))) ∧
    (¬ InFull s x p false y.fault → KeepsOn s (s.afterUsed n l y c x) n c x r y false { j with pendingAdv := true }
      (liftedSlot s n p t (s.slotAt x.slot))) := by
  obtain ⟨hphase, -, hoff⟩ := JackProg.heard_kept p (envOf cls cal r) t false y.fault
  have hphasej : j.phase = .liftoff := by rw [hj, JackProg.liftRead_phase, hphase, hp]
  have hsome : j.liftoff.isSome = true := by
    rw [hj]; exact JackProg.liftRead_isSome _ _ (hoff ▸ hfound)
  have hno : false = false → noLiftoff p (envOf cls cal r) t = false := fun _ => noLiftoff_of p (.inr hfound)
  have hread := JackProg.takeReadings_liftoff (envOf cls cal r) t (hphase.trans hp)
  rw [← hj] at hread
  refine ⟨fun hfull => ⟨fun hs => h.keeps hdata hload ht hno ?_, fun target kpa rest hs => h.keeps hdata hload ht hno ?_⟩,
    fun hfull => h.keeps hdata hload ht hno ?_⟩
  · rw [JackProg.outcome_inFull _ _ _ _ _ _ _ hfull, hread, JackProg.phaseLogic_liftoff_done _ _ hphasej hsome hs]
  · rw [JackProg.outcome_inFull _ _ _ _ _ _ _ hfull, hread, JackProg.phaseLogic_liftoff_steps _ _ hphasej hsome hs]
  · rw [JackProg.outcome_notInFull _ _ _ _ _ _ _ hfull, hread, JackProg.defer_liftoff _ _ hphasej, if_pos hsome]

/-! ## Release (R126) -/

/-- What a used reply in FREE that does not end the work makes of the progress. -/
theorem JackReply.free_keeps (h : JackReply s n l y c x r cls cal stress p)
    (hdata : y.data = .jack pressure stroke seated lifted restroking released) (hload : LoadPasses cls cal pressure)
    {t : JackReading} (ht : takeReading cal pressure stroke seated lifted restroking released = t)
    (hp : p.phase = .free) {j : JackProg} (hj : j = p.heard (envOf cls cal r) t stress y.fault) :
    (releaseSeen t = false → InFull s x p stress y.fault →
      KeepsOn s (s.afterUsed n l y c x) n c x r y stress { j with pendingAdv := false } (s.slotAt x.slot)) ∧
    (¬ InFull s x p stress y.fault → KeepsOn s (s.afterUsed n l y c x) n c x r y stress
      (if releaseSeen t then { j with pendingAdv := true } else j) (s.slotAt x.slot)) := by
  have hphase : j.phase = .free := by rw [hj]; exact (JackProg.heard_kept ..).1.trans hp
  refine ⟨fun hseen hfull => h.keeps_same hdata hload ht (by rw [hp]; nofun) ?_,
    fun hfull => h.keeps_same hdata hload ht (by rw [hp]; nofun) ?_⟩
  · rw [JackProg.outcome_inFull _ _ _ _ _ _ _ hfull, ← hj, JackProg.takeReadings_free _ _ hphase,
      JackProg.phaseLogic_free _ _ hphase, if_neg (by rw [hseen]; nofun)]
  · rw [JackProg.outcome_notInFull _ _ _ _ _ _ _ hfull, ← hj, JackProg.takeReadings_free _ _ hphase,
      JackProg.defer_free _ _ hphase]

/-- A release retires the record. -/
theorem JackReply.free_ends (h : JackReply s n l y c x r cls cal stress p)
    (hdata : y.data = .jack pressure stroke seated lifted restroking released) (hload : LoadPasses cls cal pressure)
    {t : JackReading} (ht : takeReading cal pressure stroke seated lifted restroking released = t)
    (hp : p.phase = .free) (hseen : releaseSeen t = true) (hfull : InFull s x p stress y.fault)
    (hself : r.replaces ≠ some x.slot) (hself' : r.replacedBy ≠ some x.slot) :
    Freed s (s.afterUsed n l y c x) c x (Parting.plain .idle) ∧
      RetiresRecord s (s.afterUsed n l y c x) x.slot n .destressed r r ∧
      (y.srq = true → (s.afterUsed n l y c x).atu =
        (s.atu.drop (fun e => e.subject = .record x.slot)).sound s.tbc.site.alarm) := by
  obtain ⟨w, hbefore, htbc, hisi, hafter⟩ := h.ended hdata hload ht (by rw [hp]; nofun) hfull.2.1
  obtain ⟨hwork, hlt⟩ := h.atWork
  obtain ⟨⟨-, -, -, -, -, -, -, -, -, hst, hr, -⟩, -, -⟩ := h
  obtain ⟨hslot, hstation, -⟩ := heardContext_bond s x
  have hphase := (JackProg.heard_kept p (envOf cls cal r) t stress y.fault).1.trans hp
  rw [JackProg.outcome_inFull _ _ _ _ _ _ _ hfull, JackProg.takeReadings_free _ _ hphase,
    JackProg.phaseLogic_free _ _ hphase, if_pos hseen, State.finishJack] at hafter
  dsimp only at hafter
  rw [hslot, hstation] at hafter
  have hret := hbefore.retires htbc hisi hlt l y (Parting.plain .idle) hr (fun e => by rw [e] at hwork; cases hwork) hself
    hself' .destressed hafter
  rw [hst] at hret
  exact hret

/-! ## The figures of a reply, as the statement writes them -/

theorem seatRead_eq {q : JackProg} {t : JackReading} {b : Bool} {k : Nat} {held : Option Nat} (hb : t.seated = b)
    (hk : t.stroke = k) (hheld : q.afterSeat = held) :
    (if b = true ∧ held = none then { q with afterSeat := some k } else q) = q.seatRead t := by
  subst hb hk hheld; rfl

/-- Once the search is over, the lift-off load is fixed by this reply or was before. -/
theorem liftRead_eq {q : JackProg} {env : JackEnv} {t : JackReading} {load : Nat} {held : Option Nat} (hload : t.load = load)
    (hheld : q.liftoff = held) (hfound : held ≠ none ∨ t.lifted = true) :
    (if held = none then { q with
        liftoff := some load
        steps := (stepTargets load env.cls.destStep).map (fun k => (k, (pressureOf env.cal k).1)) } else q) =
      q.liftRead env t := by
  subst hload hheld
  unfold JackProg.liftRead
  by_cases hnone : q.liftoff = none
  · rw [if_pos hnone, if_pos ⟨hfound.resolve_left (fun hne => hne hnone), hnone⟩]
  · rw [if_neg hnone, if_neg fun e => hnone e.2]

theorem liftedSlot_eq {s : State} {n : Nat} {p : JackProg} {t : JackReading} {load : Nat} (hload : t.load = load)
    (hp : p.phase = .liftoff) (hfound : p.liftoff ≠ none ∨ t.lifted = true) (z : Slot) :
    (if p.liftoff = none then updatedSlot s n (fun v => { v with liftoffLoad := some load }) z else z) =
      liftedSlot s n p t z := by
  subst hload
  unfold liftedSlot
  by_cases hnone : p.liftoff = none
  · rw [if_pos hnone, if_pos ⟨hp, hnone, hfound.resolve_left (fun hne => hne hnone)⟩]
  · rw [if_neg hnone, if_neg fun e => hnone e.2.1]

end

/-- Settles O26: the event hands the reply to the phase logic of the jack, whose outcome in each of the three phases is kept,
or ends the work. -/
theorem seatingAndReleaseEndTheWork : Obligations.SeatingAndReleaseEndTheWork := by
  intro n l y s c x r cls cal stress p r0 pressure stroke load seated lifted restroking released h hdata hload hpass hr0
  generalize ht : takeReading cal pressure stroke seated lifted restroking released = t
  have hheard : r0 = p.heard (envOf cls cal r) t stress y.fault := by rw [hr0, hload, ← ht]; rfl
  have hseated : t.seated = seated := by rw [← ht]; rfl
  have hlifted : t.lifted = lifted := by rw [← ht]; rfl
  have hstroke : t.stroke = min stroke 30000 := by rw [← ht]; rfl
  have htload : t.load = load := by rw [← ht, hload]; rfl
  have hseen : releaseSeen t = true ↔ released = true ∧ min pressure 100000 < 500 := by
    rw [← ht]; exact decide_eq_true_iff
  obtain ⟨-, hafter, hoff⟩ := JackProg.heard_kept p (envOf cls cal r) t stress y.fault
  rw [← hheard] at hafter hoff
  have hfit : replyError (s.stationAt n) y.data = none := by
    obtain ⟨⟨-, -, -, -, -, hkind, -⟩, -⟩ := h
    rw [hdata] at hkind ⊢
    exact replyError_jack hkind
  refine ⟨s.afterUsed n l y c x, h.1.exec_eq hfit, fun keeps hkeeps => ⟨fun hp j hj => ?_, fun hstress hp => ?_,
    fun hp free hfree => ?_⟩⟩
  case refine_1 =>
    have hj' : j = (p.heard (envOf cls cal r) t stress y.fault).seatRead t := by
      rw [hj, ← hheard]; exact seatRead_eq hseated hstroke hafter
    refine ⟨fun hfull => (hkeeps _ _).2 (h.seating_deferred hdata hpass ht hp hfull hj'), fun hfull => ⟨fun hopen => ?_,
      fun before at0 at1 gone residual seat hb ha hgone hres hseat => ?_⟩⟩
    · refine (hkeeps _ _).2 (h.keeps_same hdata hpass ht (by rw [hp]; nofun) ?_)
      rw [JackReply.seating_outcome hp hfull hj', JackProg.seatingVerdict_open _ hopen]
    · subst hgone hseat
      by_cases hlock : lockoffPasses cls residual = true
      · obtain ⟨hfreed, htold, hown, hother, htbc, hmoves, hstays⟩ :=
          h.seating_passes hdata hpass ht hp hfull hj' hb ha hres hlock
        exact ⟨hfreed, fun hfails => absurd (hlock.symm.trans hfails) nofun,
          fun _ => ⟨htold, hown, hother, htbc, hmoves, hstays⟩⟩
      · have hfails := Bool.eq_false_iff.2 hlock
        obtain ⟨hfreed, hfailed⟩ := h.seating_fails hdata hpass ht hp hfull hj' hb ha hres hfails
        exact ⟨hfreed, fun _ => hfailed, fun hpasses => absurd hpasses hlock⟩
  case refine_2 =>
    subst hstress
    refine ⟨fun hnone hlift hlimit => (hkeeps _ _).2 ?_, fun hfound j z hj hz => ?_⟩
    · rw [hheard]
      exact h.liftoff_searching hdata hpass ht hp hnone (hlifted.trans hlift) (htload ▸ hlimit)
    · rw [← hlifted] at hfound
      have hj' : j = (p.heard (envOf cls cal r) t false y.fault).liftRead (envOf cls cal r) t := by
        rw [hj, ← hheard]; exact liftRead_eq (env := envOf cls cal r) htload hoff hfound
      rw [liftedSlot_eq htload hp hfound] at hz
      subst hz
      obtain ⟨hfull, hdeferred⟩ := h.liftoff_found hdata hpass ht hp hfound hj'
      exact ⟨fun hf => ⟨fun hs => (hkeeps _ _).2 ((hfull hf).1 hs),
        fun target kpa rest hs => (hkeeps _ _).2 ((hfull hf).2 target kpa rest hs)⟩,
        fun hf => (hkeeps _ _).2 (hdeferred hf)⟩
  case refine_3 =>
    have hfree' : free ↔ releaseSeen t = true := hfree.trans hseen.symm
    obtain ⟨hstays, hdeferred⟩ := h.free_keeps hdata hpass ht hp hheard
    refine ⟨fun hno hfull => (hkeeps _ _).2 (hstays (Bool.eq_false_iff.2 (mt hfree'.2 hno)) hfull),
      fun hno hfull => (hkeeps _ _).2 ?_, fun hyes hfull => (hkeeps _ _).2 ?_,
      fun hyes hfull hself hself' => h.free_ends hdata hpass ht hp (hfree'.1 hyes) hfull hself hself'⟩
    · have hkept := hdeferred hfull
      rwa [if_neg (mt hfree'.2 hno)] at hkept
    · have hkept := hdeferred hfull
      rwa [if_pos (hfree'.1 hyes)] at hkept

end Sys2Proof.Machine
end

section
/-! Exclusion (R36 to R38): bound contexts and the places of their records through a move, and the law of near conflicting
pairs kept by every move. -/

namespace Sys2Proof.Machine

/-! ## What a move makes of the bound contexts and of the places of the records -/

/-- Every context of the later state is one of the earlier, with its record, its station and its kind. -/
def CtxsFrom (s t : State) : Prop := ∀ c y, t.ctxAt c = some y → ∃ x, s.ctxAt c = some x ∧ y.bond = x.bond

theorem CtxsFrom.refl (s : State) : CtxsFrom s s := fun _ y hy => ⟨y, hy, rfl⟩

theorem CtxsFrom.trans {s t u : State} (h : CtxsFrom s t) (k : CtxsFrom t u) : CtxsFrom s u := fun c y hy => by
  obtain ⟨x, hx, e⟩ := k c y hy
  obtain ⟨z, hz, e'⟩ := h c x hx
  exact ⟨z, hz, e.trans e'⟩

theorem CtxsFrom.of_contexts {s t : State} (h : t.cxp.contexts = s.cxp.contexts) : CtxsFrom s t :=
  fun c y hy => ⟨y, by rwa [State.ctxAt, h] at hy, rfl⟩

theorem CtxsFrom.of_cxp {s t : State} (h : t.cxp = s.cxp) : CtxsFrom s t := CtxsFrom.of_contexts (by rw [h])

theorem BondsKept.ctxsFrom {s t : State} (h : BondsKept s t) : CtxsFrom s t := fun _ _ hy => h.bwd hy

/-- A freed context is gone, and the others stand. -/
theorem CtxsFrom.freeCtx (s : State) (c : Nat) (x : Context) (p : Parting) : CtxsFrom s (s.freeCtx c x p) := by
  intro d y hy
  by_cases e : d = c
  · subst e; rw [State.ctxAt_freeCtx_same] at hy; cases hy
  · rw [State.ctxAt_freeCtx_ne _ _ _ _ _ e] at hy; exact ⟨y, hy, rfl⟩

/-- A record that stands in both states has kept its row and bay. -/
def PlacesKept (s t : State) : Prop :=
  ∀ n r q, s.recAt n = some r → t.recAt n = some q → q.row = r.row ∧ q.bay = r.bay

theorem PlacesKept.of_slots {s t : State} (h : t.tbc.slots = s.tbc.slots) : PlacesKept s t := fun n r q hr hq => by
  rw [State.recAt_congr h, hr] at hq; cases hq; exact ⟨rfl, rfl⟩

theorem PlacesKept.of_recs {R : Nat → Record → Record → Prop} {s t : State} (h : RecsRel R s t)
    (hR : ∀ n r q, R n r q → q.row = r.row ∧ q.bay = r.bay) : PlacesKept s t := fun n r q hr hq => by
  obtain ⟨q', hq', k⟩ := h.fwd hr
  rw [hq] at hq'; cases hq'; exact hR n r q k

theorem PlacesKept.update {s : State} (n st : Nat) {f : Record → Record}
    (hf : ∀ r, s.recAt n = some r → (f r).row = r.row ∧ (f r).bay = r.bay) : PlacesKept s (s.update n st f) :=
  PlacesKept.of_recs (RecsRel.update (R := fun _ r q => q.row = r.row ∧ q.bay = r.bay) (fun _ _ => ⟨rfl, rfl⟩) n st
    fun r _ hr => hf r hr) fun _ _ _ h => h

theorem PlacesKept.updateRaising {s : State} (n st : Nat) (cs : List Cond) {f : Record → Record}
    (hf : ∀ r, s.recAt n = some r → (f r).row = r.row ∧ (f r).bay = r.bay) : PlacesKept s (s.updateRaising n st cs f) := by
  intro m r q hr hq
  rw [State.recAt_updateRaising] at hq
  exact PlacesKept.update (f := fun r => { f r with conds := addConds cs (f r).conds }) n st hf m r q hr hq

/-- Records that keep their places, and then a new one in a slot that was FREE. -/
theorem PlacesKept.then_place {s t : State} (h : PlacesKept s t) {n : Nat} (hs : s.recAt n = none)
    (r : Record) : PlacesKept s (t.place n r) := by
  intro m p q hp hq
  rw [State.recAt_place] at hq
  split at hq
  · next e => rw [e, hs] at hp; cases hp
  · exact h m p q hp hq

theorem PlacesKept.retireRecord (s : State) (n st : Nat) (reason : RetireReason) {f : Record → Record}
    (hf : ∀ r, s.recAt n = some r → Carries r (f r)) : PlacesKept s (s.retireRecord n st reason f) := by
  cases hr : s.recAt n with
  | none => unfold State.retireRecord; rw [hr]; exact PlacesKept.of_slots rfl
  | some r =>
    have h := PlacesKept.of_recs (State.retireFirst_recs hr st reason (hf r hr)) fun _ _ _ k => ⟨k.row, k.bay⟩
    rw [State.retireRecord_eq hr]
    split
    · intro m p q hp hq
      rw [State.recAt_setMap] at hq
      exact h m p q hp hq
    · exact h

@[simp] theorem State.purge_cxp (s : State) (n st : Nat) : (s.purge n st).cxp = s.cxp := by
  rw [State.purge_eq, foldl_same State.cxp _ (fun t m => by simp)]; simp [State.purged]

@[simp] theorem State.setDig_cxp (s : State) (row : Nat) : (s.setDig row).cxp = s.cxp := by
  unfold State.setDig; split <;> simp

@[simp] theorem State.setRelieved_cxp (s : State) (row : Nat) (on : Bool) : (s.setRelieved row on).cxp = s.cxp := by
  unfold State.setRelieved; split <;> simp

theorem State.setDig_site (s : State) (row : Nat) : (s.setDig row).tbc.site = { s.tbc.site with digRow := row } := by
  unfold State.setDig
  split
  · next h => rw [← h]
  · simp

/-- A written flag stands in the settings, also where it stood before. -/
theorem State.setRelieved_site (s : State) (row : Nat) (on : Bool) : (s.setRelieved row on).tbc.site =
    { s.tbc.site with relieved := s.tbc.site.relieved.setIfInBounds (row - 1) on } := by
  unfold State.setRelieved
  split
  · next h =>
    have hv : s.tbc.site.relieved.setIfInBounds (row - 1) on = s.tbc.site.relieved := by
      ext i hi
      simp only [Vector.getElem_setIfInBounds]
      split
      · next e => subst e; simp [State.isRelieved, hi] at h; exact h.symm
      · rfl
    rw [hv]
  · simp

/-- A move keeps the row and bay of every record that stays. -/
theorem Move.places {G : Prop} {s t : State} (h : Move G s t) (ht : TableLaw s) : PlacesKept s t := by
  cases h with
  | quiet h => exact PlacesKept.of_slots h.slots
  | hand i => exact PlacesKept.of_slots (by simp)
  | isi | clock | overflow | key | pins | putCtx | eachCtx | endStop => exact PlacesKept.of_slots rfl
  | setDig row h => exact PlacesKept.of_slots (by rw [State.setDig_tbc])
  | relieve row => exact PlacesKept.of_slots (by rw [State.setRelieved_tbc])
  | rely row hd hx => exact PlacesKept.of_slots (by rw [State.setRelieved_tbc])
  | raiseMark | clearMark | setMap | changeInputs | restartInputs => exact PlacesKept.of_slots (by simp)
  | siteApply x h => exact PlacesKept.of_slots (by rw [State.siteApply_tbc])
  | raising n st cs f hcs hf => exact PlacesKept.updateRaising n st cs fun r hr => ⟨(hf r hr).row, (hf r hr).bay⟩
  | dropping n st c f hf hlive =>
    intro m r q hr hq
    rw [State.recAt_congr (s := s.update n st f) (by simp)] at hq
    exact PlacesKept.update n st (fun r hr => ⟨(hf r hr).row, (hf r hr).bay⟩) m r q hr hq
  | place n r hn hfree hrow hbay hgen hnew hst hr => exact (PlacesKept.of_slots rfl).then_place hfree r
  | replace slot sender n r q hslot hn hfree hkey hgen hnew hst hq =>
    exact (PlacesKept.update (f := fun q => { q with replacedBy := some n }) slot sender fun _ _ => ⟨rfl, rfl⟩).then_place
      hfree q
  | purge n sender r hr hst =>
    intro m p q hp hq
    obtain ⟨-, p', hp', k, -⟩ := State.recAt_purge ht.1 n sender hq
    rw [hp] at hp'; cases hp'; exact ⟨k.row, k.bay⟩
  | retire n st reason f r hr hw hlive hf =>
    exact PlacesKept.retireRecord s n st reason fun q hq => by rw [hr] at hq; cases hq; exact hf
  | bind c k n station sender r resumed hr hup hready hnear hc =>
    intro m p q hp hq
    rw [State.recAt_bindCtx] at hq
    exact PlacesKept.update (f := bindFields k c) n sender (fun _ _ => ⟨rfl, rfl⟩) m p q hp hq
  | release c x p st cs f hx hcs hf =>
    exact PlacesKept.updateRaising (s := s.freeCtx c x p) x.slot st cs fun r hr => ⟨(hf r hr).row, (hf r hr).bay⟩
  | releaseRetire c x p st hx =>
    exact PlacesKept.retireRecord (s.freeCtx c x p) x.slot st _ fun r _ => Carries.refl r
  | setBinding n st b r hr hl hb hfree =>
    intro m p q hp hq
    rw [State.recAt_congr (s := s.update n st fun q => { q with binding := some b }) (by simp [State.setBinding])] at hq
    exact PlacesKept.update (f := fun q => { q with binding := some b }) n st (fun _ _ => ⟨rfl, rfl⟩) m p q hp hq
  | dropBinding n st r hr =>
    intro m p q hp hq
    rw [State.recAt_congr (s := s.update n st fun q => { q with binding := none }) (by simp [State.dropBinding])] at hq
    exact PlacesKept.update (f := fun q => { q with binding := none }) n st (fun _ _ => ⟨rfl, rfl⟩) m p q hp hq

/-- A move binds no context but a START, BEGIN or RESUME past its checks. -/
theorem Move.contexts {G : Prop} {s t : State} (h : Move G s t) : CtxsFrom s t ∨
    ∃ c k n station sender r resumed, s.recAt n = some r ∧ s.nearRefusal k r = none ∧
      s.readyRefusal k station r resumed = none ∧ t = s.bindCtx c k n station sender r resumed := by
  cases h with
  | bind c k n station sender r resumed hr hup hready hnear hc =>
    exact .inr ⟨c, k, n, station, sender, r, resumed, hr, hnear, hready, rfl⟩
  | quiet h => exact .inl (CtxsFrom.of_contexts h.contexts)
  | isi | clock | overflow | key | pins => exact .inl (CtxsFrom.refl s)
  | hand | raiseMark | clearMark | setMap | setDig | relieve | rely | raising | dropping | place | replace | purge | retire
  | setBinding | dropBinding =>
    exact .inl (CtxsFrom.of_cxp (by simp [State.setBinding, State.dropBinding]))
  | putCtx c x y hy hslot hstation hkind =>
    exact .inl (BondsKept.putCtx hy (by simp [Context.bond, hslot, hstation, hkind])).ctxsFrom
  | eachCtx f hf => exact .inl (BondsKept.eachCtx s fun x => by simp [Context.bond, hf x]).ctxsFrom
  | release c x p st cs f hx hcs hf => exact .inl ((CtxsFrom.freeCtx s c x p).trans (CtxsFrom.of_cxp (by simp)))
  | releaseRetire c x p st hx => exact .inl ((CtxsFrom.freeCtx s c x p).trans (CtxsFrom.of_cxp (by simp)))
  | endStop h => exact .inl (State.endStop_bonds s).ctxsFrom
  | changeInputs v => exact .inl (State.changeInputs_bonds s v).ctxsFrom
  | restartInputs => exact .inl (State.restartInputs_bonds s).ctxsFrom
  | siteApply x h => exact .inl (State.siteApply_bonds s x).ctxsFrom

/-! ## Near conflicting pairs (R36 to R38) -/

/-- At a span no two bound contexts form a near conflicting pair. -/
def NoPairAt (s : State) (span : Nat) : Prop :=
  ∀ c d x y r q, c ≠ d → s.ctxAt c = some x → s.ctxAt d = some y → s.recAt x.slot = some r → s.recAt y.slot = some q →
    ¬ (ConflictingKinds x.prog.kind y.prog.kind ∧ NearAt span r q)

theorem exclusionLaw_iff (s : State) : ExclusionLaw s ↔ NoPairAt s s.tbc.site.span := Iff.rfl

theorem ConflictingKinds.symm {k l : CtxKind} (h : ConflictingKinds k l) : ConflictingKinds l k := by
  revert h; cases k <;> cases l <;> decide

theorem NearAt.symm {span : Nat} {x y : Record} (h : NearAt span x y) : NearAt span y x := ⟨h.2.1, h.1, h.2.2.2, h.2.2.1⟩

theorem NearAt.of_places {span span' : Nat} {x y x' y' : Record} (h : NearAt span' x' y') (hs : span' ≤ span)
    (hx : x'.row = x.row ∧ x'.bay = x.bay) (hy : y'.row = y.row ∧ y'.bay = y.bay) : NearAt span x y := by
  obtain ⟨h1, h2, h3, h4⟩ := h
  refine ⟨?_, ?_, ?_, ?_⟩ <;> omega

/-- A bound context excludes work by its kind and its record's place (R37). -/
theorem State.excludes_iff (s : State) (span : Nat) (k : CtxKind) (r : Record) (x : Context) :
    s.excludes span k r x = true ↔ ∃ q, s.recAt x.slot = some q ∧ ConflictingKinds k x.prog.kind ∧ NearAt span r q := by
  unfold State.excludes
  split
  · next q hq => simp [hq, kindsConflict_iff, near_iff]
  · next hq => simp [hq]

/-- Where no context excludes the work, none forms a pair with it. -/
theorem State.excluder_none {s : State} {k : CtxKind} {r : Record} (h : s.excluder k r = none) {c : Nat} {x : Context}
    (hx : s.ctxAt c = some x) {q : Record} (hq : s.recAt x.slot = some q) :
    ¬ (ConflictingKinds k x.prog.kind ∧ NearAt s.tbc.site.span r q) := fun hp => by
  have hnone := List.find?_eq_none.1 (Option.map_eq_none_iff.1 h) (c, x) (Table.mem_of_get? hx)
  exact hnone ((s.excludes_iff _ k r x).2 ⟨q, hq, hp⟩)

/-- The checks 9 and 10 of Table 3-3 that have passed. -/
theorem State.nearRefusal_none {s : State} {k : CtxKind} {r : Record} (h : s.nearRefusal k r = none) :
    s.excluder k r = none ∧ (k = .destress → s.isRelieved r.row = true) := by
  unfold State.nearRefusal at h
  split at h
  · cases h
  · next he =>
    split at h
    · cases h
    · next hd => exact ⟨he, fun hk => by simpa [hk] using hd⟩

/-- A span that would make no pair makes none (R38). -/
theorem NoPairAt.of_spanConflicts {s : State} {span : Nat} (h : s.spanConflicts span = false) : NoPairAt s span := by
  intro c d x y r q hcd hx hy hr hq hp
  have h1 := List.any_eq_false.1 h (c, x) (Table.mem_of_get? hx)
  simp only [hr] at h1
  have h2 := List.any_eq_false.1 (Bool.eq_false_iff.2 h1) (d, y) (Table.mem_of_get? hy)
  refine h2 (decide_eq_true ⟨hcd, ?_⟩)
  exact (s.excludes_iff _ _ r y).2 ⟨q, hq, hp⟩

/-- No pair comes of contexts and records that were there, at a span that has not grown. -/
theorem NoPairAt.keep {s t : State} {span span' : Nat} (h : NoPairAt s span) (hw : WorkLaw s) (hc : CtxsFrom s t)
    (hp : PlacesKept s t) (hs : span' ≤ span) : NoPairAt t span' := by
  intro c d y y' q q' hcd hy hy' hq hq' ⟨hk, hn⟩
  obtain ⟨x, hx, e⟩ := hc c y hy
  obtain ⟨x', hx', e'⟩ := hc d y' hy'
  obtain ⟨e1, -, e3⟩ := Context.bond_eq e
  obtain ⟨e1', -, e3'⟩ := Context.bond_eq e'
  obtain ⟨-, ⟨r, hr, -⟩, -⟩ := hw.2.1 c x hx
  obtain ⟨-, ⟨r', hr', -⟩, -⟩ := hw.2.1 d x' hx'
  rw [e3, e3'] at hk
  exact h c d x x' r r' hcd hx hx' hr hr' ⟨hk, hn.of_places hs (hp _ _ _ hr (e1 ▸ hq)) (hp _ _ _ hr' (e1' ▸ hq'))⟩

/-- A binding past check 9 forms no pair (R37, R50). -/
theorem NoPairAt.bindCtx {s : State} (h : ExclusionLaw s) (hw : WorkLaw s) {k : CtxKind} {n : Nat} {r : Record}
    (hr : s.recAt n = some r) (hnear : s.excluder k r = none) (c station sender : Nat) (resumed : Bool) :
    NoPairAt (s.bindCtx c k n station sender r resumed) s.tbc.site.span := by
  have hplaces : PlacesKept s (s.bindCtx c k n station sender r resumed) := fun m p q hp hq => by
    rw [State.recAt_bindCtx] at hq
    exact PlacesKept.update (f := bindFields k c) n sender (fun _ _ => ⟨rfl, rfl⟩) m p q hp hq
  have hctx : ∀ d y, (s.bindCtx c k n station sender r resumed).ctxAt d = some y →
      d = c ∧ y.slot = n ∧ y.prog.kind = k ∨ s.ctxAt d = some y := fun d y hy => by
    rw [State.ctxAt, State.bindCtx_contexts] at hy
    by_cases e : d = c
    · subst e
      rw [Table.get?_put_same] at hy; cases hy
      exact .inl ⟨rfl, rfl, State.startProg_kind ..⟩
    · rw [Table.get?_put_ne _ _ _ _ e] at hy; exact .inr hy
  have hnew : ∀ {d : Nat} {y : Context} {p q : Record}, s.ctxAt d = some y →
      (s.bindCtx c k n station sender r resumed).recAt n = some p →
      (s.bindCtx c k n station sender r resumed).recAt y.slot = some q →
      ¬ (ConflictingKinds k y.prog.kind ∧ NearAt s.tbc.site.span p q) := fun {d y p q} hy hp hq ⟨hk, hn⟩ => by
    obtain ⟨-, ⟨q', hq', -⟩, -⟩ := hw.2.1 d y hy
    exact State.excluder_none hnear hy hq'
      ⟨hk, hn.of_places (Nat.le_refl _) (hplaces _ _ _ hr hp) (hplaces _ _ _ hq' hq)⟩
  intro d e y y' p p' hde hy hy' hp hp' hpair
  rcases hctx d y hy with ⟨rfl, hslot, hkind⟩ | hold
  · rcases hctx e y' hy' with ⟨rfl, -, -⟩ | hold'
    · exact hde rfl
    · exact hnew hold' (hslot ▸ hp) hp' (hkind ▸ hpair)
  · rcases hctx e y' hy' with ⟨rfl, hslot', hkind'⟩ | hold'
    · exact hnew hold (hslot' ▸ hp') hp ⟨(hkind' ▸ hpair.1).symm, hpair.2.symm⟩
    · obtain ⟨-, ⟨q, hq, -⟩, -⟩ := hw.2.1 d y hold
      obtain ⟨-, ⟨q', hq', -⟩, -⟩ := hw.2.1 e y' hold'
      exact h d e y y' q q' hde hold hold' hq hq'
        ⟨hpair.1, hpair.2.of_places (Nat.le_refl _) (hplaces _ _ _ hq hp) (hplaces _ _ _ hq' hp')⟩

/-- The span after a move: that of before, or one that a SITE_WRITE has checked (R38). -/
theorem Move.span {G : Prop} {s t : State} (h : Move G s t) :
    t.tbc.site.span ≤ s.tbc.site.span ∨ s.spanConflicts t.tbc.site.span = false := by
  cases h with
  | siteApply x h =>
    rw [State.siteApply_tbc]
    cases hx : x.span with
    | none => left; simp [SiteItems.apply, hx]
    | some n =>
      simp only [hx, Option.any_some, decide_eq_false_iff_not, not_and] at h
      by_cases hn : s.tbc.site.span < n
      · right; simpa [SiteItems.apply, hx] using h hn
      · left; simpa [SiteItems.apply, hx] using hn
  | quiet h => exact .inl (by rw [h.site])
  | setDig row h => exact .inl (by rw [State.setDig_site])
  | relieve row => exact .inl (by rw [State.setRelieved_site])
  | rely row hd hx => exact .inl (by rw [State.setRelieved_site])
  | isi | clock | overflow | key | pins | putCtx | eachCtx | endStop => exact .inl (Nat.le_refl _)
  | hand | raising | dropping | raiseMark | clearMark | setMap | place | replace | purge | retire | bind | release
  | releaseRetire | setBinding | dropBinding | changeInputs | restartInputs =>
    exact .inl (Nat.le_of_eq (by simp [State.setBinding, State.dropBinding, State.purge_site]))

/-- Every move keeps the exclusion (R36 to R38). -/
theorem Move.exclusion {G : Prop} {s t : State} (h : Move G s t) (ht : TableLaw s) (hw : WorkLaw s) (hx : ExclusionLaw s) :
    ExclusionLaw t := by
  rcases h.contexts with hc | ⟨c, k, n, station, sender, r, resumed, hr, hnear, -, rfl⟩
  · rcases h.span with hs | hs
    · exact NoPairAt.keep hx hw hc (h.places ht) hs
    · exact (NoPairAt.of_spanConflicts hs).keep hw hc (h.places ht) (Nat.le_refl _)
  · rw [exclusionLaw_iff, State.bindCtx_tbc, State.update_site]
    exact NoPairAt.bindCtx hx hw hr (State.nearRefusal_none hnear).1 c station sender resumed

end Sys2Proof.Machine
end

section
/-! The channel map (R128 to R130): its agreement with the monitor bindings kept by every move. -/

namespace Sys2Proof.Machine

/-! ## Records whose binding stays -/

/-- `q` has the monitor binding of `r`, and stays LOCKED with it. -/
def BindingKept (r q : Record) : Prop :=
  q.binding = r.binding ∧ ∀ b, r.binding = some b → r.state = .locked → q.state = .locked

theorem BindingKept.refl (r : Record) : BindingKept r r := ⟨rfl, fun _ _ h => h⟩

theorem BindingKept.trans {a b c : Record} (h : BindingKept a b) (k : BindingKept b c) : BindingKept a c :=
  ⟨k.1.trans h.1, fun x hx hs => k.2 x (h.1.trans hx) (h.2 x hx hs)⟩

theorem BindingKept.of_unbound {r q : Record} (h : q.binding = r.binding) (hr : r.binding = none) : BindingKept r q :=
  ⟨h, fun b hb => by rw [hr] at hb; cases hb⟩

theorem StateKept.locked {r q : Record} (h : StateKept r q) (hr : r.state = .locked) : q.state = .locked := by
  rcases h with ⟨h, -⟩ | ⟨h, -⟩
  · rw [h, hr]
  · exact absurd hr h.2.1

theorem Mild.bindingKept {r q : Record} (h : Mild r q) : BindingKept r q := ⟨h.binding, fun _ _ => h.state.locked⟩

theorem Dropped.bindingKept {c : Cond} {r q : Record} (h : Dropped c r q) : BindingKept r q := by
  refine ⟨h.binding, fun _ _ hr => ?_⟩
  rcases h.state with ⟨e, -⟩ | ⟨e, -⟩
  · rw [e, hr]
  · rw [hr] at e; cases e

theorem RecsRel.bindings_of_slots {s t : State} (h : t.tbc.slots = s.tbc.slots) : RecsRel (fun _ => BindingKept) s t :=
  RecsRel.of_slots (fun _ r => BindingKept.refl r) h

theorem RecsRel.bindings_update {s : State} (n st : Nat) {f : Record → Record}
    (hf : ∀ r, s.recAt n = some r → BindingKept r (f r)) : RecsRel (fun _ => BindingKept) s (s.update n st f) :=
  RecsRel.update (fun _ r => BindingKept.refl r) n st fun r _ hr => hf r hr

theorem RecsRel.bindings_trans {s t u : State} (h : RecsRel (fun _ => BindingKept) s t)
    (k : RecsRel (fun _ => BindingKept) t u) : RecsRel (fun _ => BindingKept) s u :=
  RecsRel.trans (R := fun _ => BindingKept) (fun _ _ _ _ => BindingKept.trans) h k

theorem State.unlinkOld_bindings (s : State) (n st : Nat) (r : Record) :
    RecsRel (fun _ => BindingKept) s (s.unlinkOld n st r) := by
  unfold State.unlinkOld
  split
  · exact RecsRel.bindings_of_slots rfl
  · split
    · exact RecsRel.bindings_of_slots rfl
    · split
      · exact RecsRel.bindings_update _ _ fun q _ => BindingKept.refl q
      · exact RecsRel.bindings_of_slots rfl

/-- A purge takes links from the records that stay, and nothing else. -/
theorem State.purge_bindings (s : State) (n st : Nat) : RecsRel (fun _ => BindingKept) (s.purged n) (s.purge n st) := by
  rw [State.purge_eq]
  generalize (s.purged n).usedSlots = l
  generalize s.purged n = t
  induction l generalizing t with
  | nil => exact RecsRel.bindings_of_slots rfl
  | cons m l ih => exact (RecsRel.bindings_update (f := unlink n) m st fun r _ => ⟨rfl, fun _ _ h => h⟩).bindings_trans (ih _)

/-! ## The channel map -/

/-- A record that is not LOCKED is bound to no channel. -/
theorem ChannelLaw.unbound {s : State} (h : ChannelLaw s) {n : Nat} {r : Record} (hr : s.recAt n = some r)
    (hst : r.state ≠ .locked) : r.binding = none := by
  cases hb : r.binding with
  | none => rfl
  | some b => exact absurd (h.1 n r b hr hb).1 hst

theorem ChannelLaw.keep {s t : State} (h : ChannelLaw s) (hr : RecsRel (fun _ => BindingKept) s t)
    (hc : t.channels = s.channels) : ChannelLaw t := by
  refine ⟨fun n q b hq hb => ?_, fun key n hk => ?_⟩
  · obtain ⟨r, hr', e, hst⟩ := hr.bwd hq
    obtain ⟨h1, h2, h3, h4, h5⟩ := h.1 n r b hr' (e ▸ hb)
    exact ⟨hst b (e ▸ hb) h1, h2, h3, h4, hc ▸ h5⟩
  · obtain ⟨r, b, hr', hb, e⟩ := h.2 key n (hc ▸ hk)
    obtain ⟨q, hq, e', -⟩ := hr.fwd hr'
    exact ⟨q, b, hq, e'.trans hb, e⟩

theorem ChannelLaw.congr {s t : State} (h : ChannelLaw s) (hslots : t.tbc.slots = s.tbc.slots)
    (hc : t.channels = s.channels) : ChannelLaw t := h.keep (RecsRel.bindings_of_slots hslots) hc

theorem ChannelLaw.update {s : State} (h : ChannelLaw s) (n st : Nat) {f : Record → Record}
    (hf : ∀ r, s.recAt n = some r → BindingKept r (f r)) : ChannelLaw (s.update n st f) :=
  h.keep (RecsRel.bindings_update n st hf) (by simp)

theorem ChannelLaw.updateRaising {s : State} (h : ChannelLaw s) (n st : Nat) (cs : List Cond) {f : Record → Record}
    (hf : ∀ r, s.recAt n = some r → BindingKept r (f r)) : ChannelLaw (s.updateRaising n st cs f) :=
  (h.update (f := fun r => { f r with conds := addConds cs (f r).conds }) n st hf).congr (by simp) (by simp)

theorem State.freeChannel_get? (s : State) (b : Option Binding) (key : Nat) :
    (s.freeChannel b).channels.get? key = if b.map channelKey = some key then none else s.channels.get? key := by
  cases b with
  | none => rfl
  | some b =>
    by_cases e : channelKey b = key
    · subst e; simp [State.freeChannel]
    · simp [State.freeChannel, e, Table.get?_erase_ne _ _ _ (Ne.symm e)]

/-- The record of one slot loses its binding, and its channel is freed (R130). -/
theorem ChannelLaw.unbind {s t : State} (h : ChannelLaw s) {n : Nat} {r : Record} (hr : s.recAt n = some r)
    (hrel : RecsRel (fun m p q => (m = n → q.binding = none) ∧ (m ≠ n → BindingKept p q)) s t)
    (hc : t.channels = (s.freeChannel r.binding).channels) : ChannelLaw t := by
  refine ⟨fun m q b hq hb => ?_, fun key m hk => ?_⟩
  · obtain ⟨p, hp, h1, h2⟩ := hrel.bwd hq
    by_cases e : m = n
    · rw [h1 e] at hb; cases hb
    · obtain ⟨e', hst⟩ := h2 e
      obtain ⟨k1, k2, k3, k4, k5⟩ := h.1 m p b hp (e' ▸ hb)
      refine ⟨hst b (e' ▸ hb) k1, k2, k3, k4, ?_⟩
      rw [hc, State.freeChannel_get?, if_neg, k5]
      intro hkey
      obtain ⟨b', hb', e2⟩ := Option.map_eq_some_iff.1 hkey
      obtain ⟨-, -, -, -, k⟩ := h.1 n r b' hr hb'
      rw [e2, k5] at k; cases k; exact e rfl
  · rw [hc, State.freeChannel_get?] at hk
    split at hk
    · cases hk
    · next hkey =>
      obtain ⟨p, b, hp, hb, e⟩ := h.2 key m hk
      have hne : m ≠ n := fun e' => by
        subst e'
        rw [hr] at hp; cases hp
        exact hkey (by rw [hb, Option.map_some, e])
      obtain ⟨q, hq, -, h2⟩ := hrel.fwd hp
      exact ⟨q, b, hq, (h2 hne).1.trans hb, e⟩

/-- An update that takes the binding of one record. -/
theorem RecsRel.unbind {s : State} (n st : Nat) {f : Record → Record} (hf : ∀ r, (f r).binding = none) :
    RecsRel (fun m p q => (m = n → q.binding = none) ∧ (m ≠ n → BindingKept p q)) s (s.update n st f) := fun m => by
  by_cases e : m = n
  · subst e
    cases hr : s.recAt m with
    | none => rw [State.recAt_update_none hr]; exact Option.Rel.none
    | some r =>
      obtain ⟨stamp, h⟩ := State.recAt_update hr st f
      rw [h]
      exact Option.Rel.some ⟨fun _ => hf r, fun k => absurd rfl k⟩
  · rw [State.recAt_update_ne _ _ _ _ _ e]
    cases s.recAt m with
    | none => exact Option.Rel.none
    | some r => exact Option.Rel.some ⟨fun k => absurd k e, fun _ => BindingKept.refl r⟩

theorem ChannelLaw.unbindUpdate {s : State} (h : ChannelLaw s) {n : Nat} {r : Record} (hr : s.recAt n = some r) (st : Nat)
    {f : Record → Record} (hf : ∀ q, (f q).binding = none) : ChannelLaw ((s.update n st f).freeChannel r.binding) := by
  refine h.unbind hr (fun m => ?_) ?_
  · rw [State.recAt_freeChannel]; exact RecsRel.unbind n st hf m
  · cases r.binding <;> simp [State.freeChannel]

/-- BIND moves one record to a channel that is free or its own (R129). -/
theorem ChannelLaw.setBinding {s : State} (h : ChannelLaw s) {n : Nat} {r : Record} {b : Binding} (st : Nat)
    (hr : s.recAt n = some r) (hl : r.state = .locked) (hb : 1 ≤ b.station ∧ b.station ≤ 15 ∧ b.channel ≤ 7)
    (hfree : ∀ m, s.channels.get? (channelKey b) = some m → m = n) : ChannelLaw (s.setBinding n st b r) := by
  have hrec : ∀ m, (s.setBinding n st b r).recAt m = (s.update n st fun q => { q with binding := some b }).recAt m :=
    fun m => State.recAt_congr (by simp [State.setBinding]) m
  have hget : ∀ key, (s.setBinding n st b r).channels.get? key = if key = channelKey b then some n else
      (s.freeChannel r.binding).channels.get? key := fun key => by
    have hch : (s.setBinding n st b r).channels = (s.freeChannel r.binding).channels.put (channelKey b) n := by
      unfold State.setBinding; cases r.binding <;> simp [State.freeChannel]
    rw [hch]
    split
    · next e => rw [e, Table.get?_put_same]
    · next e => rw [Table.get?_put_ne _ _ _ _ e]
  obtain ⟨stamp, hq⟩ := State.recAt_update hr st fun q => { q with binding := some b }
  refine ⟨fun m q b' hm hb' => ?_, fun key m hk => ?_⟩
  · rw [hrec] at hm
    by_cases e : m = n
    · subst e
      rw [hq] at hm; cases hm; cases hb'
      exact ⟨hl, hb.1, hb.2.1, hb.2.2, by rw [hget, if_pos rfl]⟩
    · rw [State.recAt_update_ne _ _ _ _ _ e] at hm
      obtain ⟨k1, k2, k3, k4, k5⟩ := h.1 m q b' hm hb'
      refine ⟨k1, k2, k3, k4, ?_⟩
      have hne : channelKey b' ≠ channelKey b := fun e' => e (hfree m (by rw [← e', k5]))
      rw [hget, if_neg hne, State.freeChannel_get?, if_neg, k5]
      intro hkey
      obtain ⟨b2, hb2, e2⟩ := Option.map_eq_some_iff.1 hkey
      obtain ⟨-, -, -, -, k⟩ := h.1 n r b2 hr hb2
      rw [e2, k5] at k; cases k; exact e rfl
  · rw [hget] at hk
    split at hk
    · next e => cases hk; exact ⟨_, b, (hrec n).trans hq, rfl, e.symm⟩
    · rw [State.freeChannel_get?] at hk
      split at hk
      · cases hk
      · next hkey =>
        obtain ⟨p, b', hp, hb', e⟩ := h.2 key m hk
        have hne : m ≠ n := fun e' => by
          subst e'
          rw [hr] at hp; cases hp
          exact hkey (by rw [hb', Option.map_some, e])
        exact ⟨p, b', by rw [hrec, State.recAt_update_ne _ _ _ _ _ hne, hp], hb', e⟩

/-- A new record is bound to nothing, and stands in a slot that no channel names. -/
theorem ChannelLaw.place {s : State} (h : ChannelLaw s) {n : Nat} {r : Record} (hfree : s.recAt n = none)
    (hb : r.binding = none) : ChannelLaw (s.place n r) := by
  refine ⟨fun m q b hq hqb => ?_, fun key m hk => ?_⟩
  · rw [State.recAt_place] at hq
    split at hq
    · cases hq; rw [hb] at hqb; cases hqb
    · rw [State.place_channels]; exact h.1 m q b hq hqb
  · obtain ⟨q, b, hq, hqb, e⟩ := h.2 key m (State.place_channels s n r ▸ hk)
    refine ⟨q, b, ?_, hqb, e⟩
    rw [State.recAt_place, if_neg fun hm => ?_, hq]
    rw [hm, hfree] at hq; cases hq

/-- A purged record is bound to nothing, since it is not LOCKED. -/
theorem ChannelLaw.purge {s : State} (h : ChannelLaw s) {n : Nat} {r : Record} (hr : s.recAt n = some r)
    (hst : r.state = .retired) (st : Nat) : ChannelLaw (s.purge n st) := by
  have hnone := h.unbound hr (by rw [hst]; nofun)
  have hpurged : ChannelLaw (s.purged n) := by
    have hch : (s.purged n).channels = s.channels := by simp [State.purged]
    refine ⟨fun m q b hq hqb => ?_, fun key m hk => ?_⟩
    · rw [State.recAt_purged] at hq
      split at hq
      · cases hq
      · rw [hch]; exact h.1 m q b hq hqb
    · obtain ⟨q, b, hq, hqb, e⟩ := h.2 key m (hch ▸ hk)
      refine ⟨q, b, ?_, hqb, e⟩
      rw [State.recAt_purged, if_neg fun hm => ?_, hq]
      rw [hm, hr] at hq; cases hq
      rw [hnone] at hqb; cases hqb
  refine hpurged.keep (State.purge_bindings s n st) ?_
  rw [State.purge_eq, foldl_same State.channels _ fun t m => by simp]

theorem ChannelLaw.retireRecord {s : State} (h : ChannelLaw s) (n st : Nat) (reason : RetireReason) (f : Record → Record) :
    ChannelLaw (s.retireRecord n st reason f) := by
  cases hr : s.recAt n with
  | none => unfold State.retireRecord; rw [hr]; exact h
  | some r =>
    have h1 : ChannelLaw ((s.update n st fun q => retireFields reason (f q)).freeChannel r.binding) :=
      h.unbindUpdate hr st fun _ => rfl
    have h2 : ChannelLaw (s.retireFirst n st reason f r) :=
      (h1.congr (t := ((s.update n st fun q => retireFields reason (f q)).freeChannel r.binding).untell fun e =>
        e.subject = .record n) (by simp) (by simp)).keep (State.unlinkOld_bindings _ n st r)
        (by simp [State.retireFirst])
    rw [State.retireRecord_eq hr]
    split
    · exact h2.congr (by simp) (by simp)
    · exact h2

/-- Only a DESTRESS takes a record that is bound to a channel (R124). -/
theorem ChannelLaw.bindCtx {s : State} (h : ChannelLaw s) {k : CtxKind} {n station : Nat} {r : Record} {resumed : Bool}
    (hr : s.recAt n = some r) (hready : s.readyRefusal k station r resumed = none) (c sender : Nat) :
    ChannelLaw (s.bindCtx c k n station sender r resumed) := by
  have hch : (s.bindCtx c k n station sender r resumed).channels =
      if k = .destress then (s.freeChannel r.binding).channels else s.channels := by
    unfold State.bindCtx
    dsimp only
    split
    · cases r.binding <;> simp [State.freeChannel]
    · simp
  by_cases hk : k = .destress
  · refine ChannelLaw.congr (h.unbindUpdate (f := bindFields k c) hr sender fun q => by rw [bindFields, if_pos hk])
      (by rw [State.bindCtx_tbc, State.freeChannel_tbc]) ?_
    rw [hch, if_pos hk]
    cases r.binding <;> simp [State.freeChannel]
  · have hst : r.state ≠ .locked := fun e => by
      have hneeded := (State.ready_of_none hready).2.2
      unfold inNeededState at hneeded
      split at hneeded
      · rw [(of_decide_eq_true hneeded).1] at e; cases e
      · rw [of_decide_eq_true hneeded] at e
        cases k with
        | destress => exact hk rfl
        | insert | grout | stress => cases e
    refine ChannelLaw.congr (h.update (f := bindFields k c) n sender fun q hq => ?_)
      (by rw [State.bindCtx_tbc]) (by rw [hch, if_neg hk, State.update_channels])
    rw [hr] at hq; cases hq
    exact BindingKept.of_unbound (by rw [bindFields, if_neg hk]) (h.unbound hr hst)

theorem State.relevel_channels (s : State) (c : Cond) (level : Nat) : (s.relevel c level).channels = s.channels := by
  unfold State.relevel
  dsimp only
  split
  · rfl
  · exact foldl_same State.channels _ (fun t subj => by split <;> simp) _ _

theorem State.siteApply_channels (s : State) (x : SiteItems) : (s.siteApply x).channels = s.channels := by
  have hlevels : (s.siteLevels x).channels = s.channels :=
    foldl_same State.channels (fun (t : State) (p : Cond × Nat) => t.relevel p.1 p.2)
      (fun t p => State.relevel_channels t p.1 p.2) (changedLevels s.tbc.site (SiteItems.apply x s.tbc.site)) (s.siteValues x)
  rw [State.siteApply_eq]
  dsimp only
  split <;> simp [hlevels]

/-- Every move keeps the channel map and the bindings in agreement (R128 to R130). -/
theorem Move.channels {G : Prop} {s t : State} (h : Move G s t) (g : G) (hw : WorkLaw s) (hs : ChannelLaw s) :
    ChannelLaw t := by
  cases h with
  | quiet h => exact hs.congr h.slots h.channels
  | isi | clock | overflow | key | pins | putCtx | eachCtx | endStop => exact hs.congr rfl rfl
  | hand | raiseMark | clearMark | setMap | changeInputs | restartInputs => exact hs.congr (by simp) (by simp)
  | setDig row h => exact hs.congr (by rw [State.setDig_tbc]) (by unfold State.setDig; split <;> simp)
  | relieve row => exact hs.congr (by rw [State.setRelieved_tbc]) (by unfold State.setRelieved; split <;> simp)
  | rely row hd hx => exact hs.congr (by rw [State.setRelieved_tbc]) (by unfold State.setRelieved; split <;> simp)
  | siteApply x h => exact hs.congr (by rw [State.siteApply_tbc]) (State.siteApply_channels s x)
  | raising n st cs f hcs hf => exact hs.updateRaising n st cs fun r hr => (hf r hr).bindingKept
  | dropping n st c f hf hlive => exact (hs.update n st fun r hr => (hf r hr).bindingKept).congr (by simp) (by simp)
  | place n r hn hfree hrow hbay hgen hnew hst hr => exact hs.place hfree hr.2.2.1
  | replace slot sender n r q hslot hn hfree hkey hgen hnew hst hq =>
    exact (hs.update (f := fun q => { q with replacedBy := some n }) slot sender fun r _ => BindingKept.refl r).place
      (State.recAt_update_none hfree _ _) hq.2.2.1
  | purge n sender r hr hst => exact hs.purge hr hst sender
  | retire n st reason f r hr hw hlive hf => exact hs.retireRecord n st reason f
  | bind c k n station sender r resumed hr hup hready hnear hc => exact hs.bindCtx hr hready c sender
  | release c x p st cs f hx hcs hf =>
    obtain ⟨-, ⟨r, hr, hst, -⟩, -⟩ := hw.2.1 c x (hx g)
    have hnone := hs.unbound hr (by rw [hst]; cases x.prog.kind <;> nofun)
    refine ChannelLaw.updateRaising (hs.congr (t := s.freeCtx c x p) (by simp) (by simp)) x.slot st cs fun q hq => ?_
    have e : q = r := Option.some.inj (hq.symm.trans hr)
    subst e
    exact BindingKept.of_unbound (hf q hq).binding hnone
  | releaseRetire c x p st hx =>
    exact (hs.congr (t := s.freeCtx c x p) (by simp) (by simp)).retireRecord x.slot st .destressed id
  | setBinding n st b r hr hl hb hfree => exact hs.setBinding st hr hl hb hfree
  | dropBinding n st r hr => exact hs.unbindUpdate hr st fun _ => rfl

end Sys2Proof.Machine
end

section
/-! Rows (R9, R39, R40): positions and their keys, the live records of a row, and the query value. -/

namespace Sys2Proof.Machine

theorem posRow_posKey {row bay : Nat} (hrow : 1 ≤ row) (hbay : 1 ≤ bay ∧ bay ≤ 400) : posRow (posKey row bay) = row := by
  simp only [posRow, posKey, Config.bayCount]
  omega

theorem posKey_inj {row bay row' bay' : Nat} (hrow : 1 ≤ row) (hbay : 1 ≤ bay ∧ bay ≤ 400) (hrow' : 1 ≤ row')
    (hbay' : 1 ≤ bay' ∧ bay' ≤ 400) (h : posKey row bay = posKey row' bay') : row = row' ∧ bay = bay' := by
  simp only [posKey, Config.bayCount] at h
  omega

/-- Every key of a row is that of one of its bays. -/
theorem exists_posKey {key row : Nat} (h : posRow key = row) : ∃ bay, 1 ≤ bay ∧ bay ≤ 400 ∧ posKey row bay = key := by
  simp only [posRow, posKey, Config.bayCount] at *
  refine ⟨key % 400 + 1, ?_, ?_, ?_⟩ <;> omega

theorem State.mem_liveInRow_of_liveAt {s : State} {row bay n : Nat} (hrow : 1 ≤ row) (hbay : 1 ≤ bay ∧ bay ≤ 400)
    (h : s.liveAt row bay = some n) : n ∈ s.liveInRow row :=
  List.mem_filterMap.2 ⟨(posKey row bay, n), Table.mem_of_get? h, if_pos (posRow_posKey hrow hbay)⟩

/-- The live records of a row stand at its bays. -/
theorem State.mem_liveInRow {s : State} (hwf : s.tbc.map.wf) {row n : Nat} (hrow : 1 ≤ row) :
    n ∈ s.liveInRow row ↔ ∃ bay, 1 ≤ bay ∧ bay ≤ 400 ∧ s.liveAt row bay = some n := by
  refine ⟨fun h => ?_, fun ⟨bay, h1, h2, h⟩ => State.mem_liveInRow_of_liveAt hrow ⟨h1, h2⟩ h⟩
  obtain ⟨⟨key, m⟩, hmem, hif⟩ := List.mem_filterMap.1 h
  dsimp only at hif
  split at hif
  · next hkey =>
    cases hif
    obtain ⟨bay, h1, h2, e⟩ := exists_posKey hkey
    exact ⟨bay, h1, h2, by rw [State.liveAt, e]; exact Table.get?_of_mem hwf hmem⟩
  · cases hif

/-- What counts as held in a query: LOCKED, and SUSPECT where it counts as that (R40, R179). -/
def Record.counts (suspectHolds : Bool) (r : Record) : Prop := r.state = .locked ∨ suspectHolds = true ∧ r.state = .suspect

theorem Record.counts_false (r : Record) : r.counts false ↔ r.state = .locked := by simp [Record.counts]

theorem State.mem_notHolding {s : State} {b : Bool} {row n : Nat} :
    n ∈ s.notHolding b row ↔ n ∈ s.liveInRow row ∧ ∃ r, s.recAt n = some r ∧ ¬ r.counts b := by
  unfold State.notHolding
  rw [List.mem_filter]
  refine and_congr_right fun _ => ?_
  cases s.recAt n with
  | none => simp
  | some r => cases b <;> simp [Record.counts]

/-- Every live record of a row counts as held. -/
def State.RowCounts (s : State) (b : Bool) (row : Nat) : Prop :=
  ∀ bay n r, 1 ≤ bay → bay ≤ 400 → s.liveAt row bay = some n → s.recAt n = some r → r.counts b

theorem State.rowCounts_of_empty {s : State} {b : Bool} {row : Nat} (hrow : 1 ≤ row)
    (h : (s.notHolding b row).isEmpty = true) : s.RowCounts b row := fun bay n r h1 h2 hl hr => by
  by_contra hn
  have hmem : n ∈ s.notHolding b row :=
    State.mem_notHolding.2 ⟨State.mem_liveInRow_of_liveAt hrow ⟨h1, h2⟩ hl, r, hr, hn⟩
  rw [List.isEmpty_iff.1 h] at hmem
  cases hmem

theorem State.notHolding_isEmpty {s : State} (hwf : s.tbc.map.wf) (b : Bool) {row : Nat} (hrow : 1 ≤ row) :
    (s.notHolding b row).isEmpty = true ↔ s.RowCounts b row := by
  refine ⟨State.rowCounts_of_empty hrow, fun h => List.isEmpty_iff.2 (List.eq_nil_iff_forall_not_mem.2 fun n hn => ?_)⟩
  obtain ⟨hlive, r, hr, hnot⟩ := State.mem_notHolding.1 hn
  obtain ⟨bay, h1, h2, hl⟩ := (State.mem_liveInRow hwf hrow).1 hlive
  exact hnot (h bay n r h1 h2 hl hr)

theorem State.rowPasses_iff (s : State) (b : Bool) (row : Nat) :
    s.rowPasses b row = true ↔ s.isRelieved row = true ∨ (s.notHolding b row).isEmpty = true := by
  simp [State.rowPasses]

/-- The search for the deepest row stops at the fuel or before a row that does not pass, and passes every row to there. -/
theorem State.deepest_spec (s : State) (b : Bool) (fuel row : Nat) :
    row ≤ s.deepest b fuel row ∧ s.deepest b fuel row ≤ row + fuel ∧
      (∀ k, row < k → k ≤ s.deepest b fuel row → s.rowPasses b k = true) ∧
      (s.deepest b fuel row < row + fuel → s.rowPasses b (s.deepest b fuel row + 1) = false) := by
  induction fuel generalizing row with
  | zero => exact ⟨Nat.le_refl _, Nat.le_refl _, fun k h1 h2 => absurd h2 (Nat.not_le.2 h1), fun h => absurd h (Nat.lt_irrefl _)⟩
  | succ fuel ih =>
    cases hp : s.rowPasses b (row + 1) with
    | true =>
      rw [State.deepest, if_pos hp]
      obtain ⟨h1, h2, h3, h4⟩ := ih (row + 1)
      refine ⟨by omega, by omega, fun k hk hle => ?_, fun h => h4 (by omega)⟩
      by_cases e : k = row + 1
      · rw [e, hp]
      · exact h3 k (by omega) hle
    | false =>
      rw [State.deepest, hp]
      exact ⟨Nat.le_refl _, Nat.le_add_right _ _, fun k h1 h2 => absurd h2 (Nat.not_le.2 h1), fun _ => hp⟩

/-- The value of R40, or of R179: every row down to it passes, and the next one, if there is one, does not. -/
theorem State.digValue_spec (s : State) (b : Bool) : s.digValue b ≤ 12 ∧
    (∀ row, 1 ≤ row → row ≤ s.digValue b → s.rowPasses b row = true) ∧
      (s.digValue b < 12 → s.rowPasses b (s.digValue b + 1) = false) := by
  obtain ⟨-, h2, h3, h4⟩ := s.deepest_spec b Config.rowCount 0
  exact ⟨h2, h3, h4⟩

/-- Down to the value a row that is not relieved holds its live records. -/
theorem State.rowCounts_of_le {s : State} {b : Bool} {row : Nat} (h1 : 1 ≤ row) (h2 : row ≤ s.digValue b)
    (hr : s.isRelieved row = false) : s.RowCounts b row := by
  have h := (s.rowPasses_iff b row).1 ((s.digValue_spec b).2.1 row h1 h2)
  rw [hr] at h
  exact State.rowCounts_of_empty h1 (h.resolve_left nofun)

end Sys2Proof.Machine
end

section
/-! Dig release (R39 to R45): what leaves the live records of the relied rows in their states, operation by operation. -/

namespace Sys2Proof.Machine

/-! ## What a change leaves firm -/

/-- A record that may stand live in a relied row (R39). -/
def Record.Holds (r : Record) : Prop := r.state = .locked ∨ r.state = .suspect

/-- A bound context names the record of slot `n` (R47). -/
def State.Named (s : State) (n : Nat) : Prop := ∃ c x, s.ctxAt c = some x ∧ x.slot = n

/-- Map, dig row, flags and start-up are as they were, no context is new, and a record that may stand in a relied row still
may, but for the slots of `P`. -/
structure FirmBut (P : Nat → Prop) (s t : State) : Prop where
  map : t.tbc.map = s.tbc.map
  dig : t.tbc.site.digRow = s.tbc.site.digRow
  relieved : t.tbc.site.relieved = s.tbc.site.relieved
  sys : t.sys = s.sys
  ctxs : CtxsFrom s t
  recs : ∀ n q, t.recAt n = some q → ∃ r, s.recAt n = some r ∧ q.row = r.row ∧ (r.Holds → ¬ P n → q.Holds)

/-- As `FirmBut`, for all records but those in work. -/
abbrev Firm (s t : State) : Prop := FirmBut s.Named s t

theorem CtxsFrom.named {s t : State} (h : CtxsFrom s t) {n : Nat} (hn : t.Named n) : s.Named n := by
  obtain ⟨c, y, hy, e⟩ := hn
  obtain ⟨x, hx, hb⟩ := h c y hy
  exact ⟨c, x, hx, (Context.bond_eq hb).1.symm.trans e⟩

theorem FirmBut.trans {P Q : Nat → Prop} {s t u : State} (h : FirmBut P s t) (k : FirmBut Q t u) (hQ : ∀ n, Q n → P n) :
    FirmBut P s u where
  map := k.map.trans h.map
  dig := k.dig.trans h.dig
  relieved := k.relieved.trans h.relieved
  sys := k.sys.trans h.sys
  ctxs := h.ctxs.trans k.ctxs
  recs n q hq := by
    obtain ⟨p, hp, e1, h1⟩ := k.recs n q hq
    obtain ⟨r, hr, e2, h2⟩ := h.recs n p hp
    exact ⟨r, hr, e1.trans e2, fun hold hn => h1 (h2 hold hn) fun hq => hn (hQ n hq)⟩

theorem Firm.trans {s t u : State} (h : Firm s t) (k : Firm t u) : Firm s u := FirmBut.trans h k fun _ => h.ctxs.named

/-- What changes no record keeps the rows firm. -/
theorem FirmBut.of_slots {P : Nat → Prop} {s t : State} (hslots : t.tbc.slots = s.tbc.slots) (hmap : t.tbc.map = s.tbc.map)
    (hsite : t.tbc.site.digRow = s.tbc.site.digRow ∧ t.tbc.site.relieved = s.tbc.site.relieved) (hsys : t.sys = s.sys)
    (hc : CtxsFrom s t) : FirmBut P s t :=
  ⟨hmap, hsite.1, hsite.2, hsys, hc, fun n q hq => ⟨q, by rwa [State.recAt_congr hslots] at hq, rfl, fun h _ => h⟩⟩

theorem Firm.of_tbc {s t : State} (htbc : t.tbc = s.tbc) (hsys : t.sys = s.sys) (hc : CtxsFrom s t) : Firm s t :=
  FirmBut.of_slots (by rw [htbc]) (by rw [htbc]) (by rw [htbc]; exact ⟨rfl, rfl⟩) hsys hc

/-- What reaches neither TBC, contexts nor start-up. -/
theorem Firm.same {s t : State} (htbc : t.tbc = s.tbc) (hcxp : t.cxp = s.cxp) (hsys : t.sys = s.sys) : Firm s t :=
  Firm.of_tbc htbc hsys (CtxsFrom.of_cxp hcxp)

theorem Firm.refl (s : State) : Firm s s := Firm.same rfl rfl rfl

theorem Quiet.firm {s t : State} (h : Quiet s t) : Firm s t :=
  FirmBut.of_slots h.slots h.map (by rw [h.site]; exact ⟨rfl, rfl⟩) h.sys (CtxsFrom.of_contexts h.contexts)

theorem BondsKept.firm {s t : State} (h : BondsKept s t) (htbc : t.tbc = s.tbc) : Firm s t :=
  Firm.of_tbc htbc h.sys h.ctxsFrom

theorem Firm.foldl {β : Type} {f : State → β → State} (h : ∀ t x, Firm t (f t x)) (l : List β) (s : State) :
    Firm s (l.foldl f s) := by
  induction l generalizing s with
  | nil => exact Firm.refl s
  | cons x l ih => exact (h s x).trans (ih _)

theorem FirmBut.update {P : Nat → Prop} {s : State} (n st : Nat) {f : Record → Record}
    (hf : ∀ r, s.recAt n = some r → (f r).row = r.row ∧ (r.Holds → ¬ P n → (f r).Holds)) : FirmBut P s (s.update n st f) where
  map := by simp
  dig := by simp
  relieved := by simp
  sys := by simp
  ctxs := CtxsFrom.of_cxp (by simp)
  recs m q hq := by
    obtain ⟨r, hr, ⟨-, rfl⟩ | ⟨rfl, stamp, rfl⟩⟩ := State.recAt_update_cases hq
    · exact ⟨q, hr, rfl, fun h _ => h⟩
    · exact ⟨r, hr, hf r hr⟩

theorem FirmBut.updateRaising {P : Nat → Prop} {s : State} (n st : Nat) (cs : List Cond) {f : Record → Record}
    (hf : ∀ r, s.recAt n = some r → (f r).row = r.row ∧ (r.Holds → ¬ P n → (f r).Holds)) :
    FirmBut P s (s.updateRaising n st cs f) :=
  FirmBut.trans (FirmBut.update (f := fun r => { f r with conds := addConds cs (f r).conds }) n st hf)
    (FirmBut.of_slots (P := P) (by simp) (by simp) (by simp) (by simp) (CtxsFrom.of_cxp (by simp))) fun _ => id

theorem looseState.not_holds {r : Record} (h : looseState r.state) : ¬ r.Holds :=
  fun k => k.elim h.2.1 h.2.2.2

theorem StateKept.holds {r q : Record} (h : StateKept r q) (hr : r.Holds) : q.Holds := by
  rcases h with ⟨h, -⟩ | ⟨h, -⟩
  · unfold Record.Holds; rw [h]; exact hr
  · exact absurd hr h.not_holds

/-- A record that stays in or out of LOCKED and SUSPECT as it is. -/
theorem Firm.mild {s : State} (n st : Nat) (cs : List Cond) {f : Record → Record}
    (hf : ∀ r, s.recAt n = some r → Mild r (f r)) : Firm s (s.updateRaising n st cs f) :=
  FirmBut.updateRaising n st cs fun r hr => ⟨(hf r hr).row, fun h _ => (hf r hr).state.holds h⟩

theorem Firm.update {s : State} (n st : Nat) {f : Record → Record} (hf : ∀ r, s.recAt n = some r → Mild r (f r)) :
    Firm s (s.update n st f) := State.updateRaising_nil s n st f ▸ Firm.mild n st [] hf

/-- The end of work on a record, whatever becomes of it in its place. -/
theorem Firm.release {s : State} {c : Nat} {x : Context} (hx : s.ctxAt c = some x) (p : Parting) (st : Nat) (cs : List Cond)
    {f : Record → Record} (hf : ∀ r, (f r).row = r.row) : Firm s ((s.freeCtx c x p).updateRaising x.slot st cs f) :=
  FirmBut.trans (t := s.freeCtx c x p) (FirmBut.of_slots (P := s.Named) rfl rfl ⟨rfl, rfl⟩ rfl (CtxsFrom.freeCtx s c x p))
    (FirmBut.updateRaising (P := s.Named) x.slot st cs fun r _ => ⟨hf r, fun _ hn => absurd ⟨c, x, hx, rfl⟩ hn⟩) fun _ => id

/-! ## The law through a firm change -/

/-- The records in work stand in no relied row, so what is firm but for them keeps the law. -/
theorem FirmBut.digLaw {P : Nat → Prop} {s t : State} (h : FirmBut P s t) (hd : DigLaw s)
    (hex : ∀ n row bay r, P n → 1 ≤ row → 1 ≤ bay ∧ bay ≤ 400 → s.liveAt row bay = some n → s.recAt n = some r → r.Holds →
      s.isRelied row = false) : DigLaw t := by
  have hrel : ∀ row, t.isRelieved row = s.isRelieved row := fun row => by rw [State.isRelieved, h.relieved]; rfl
  refine ⟨fun row bay n q h1 h2 h3 h4 h5 hl hq => ?_, fun c y q hy hk hq => ?_, fun hp => ?_⟩
  · rw [State.liveAt, h.map] at hl
    rw [hrel] at h3
    obtain ⟨r, hr, -, hkeep⟩ := h.recs n q hq
    have hold := hd.1 row bay n r h1 (h.dig ▸ h2) h3 h4 h5 hl hr
    refine hkeep hold fun hn => ?_
    have := hex n row bay r hn h1 ⟨h4, h5⟩ hl hr hold
    simp only [State.isRelied, decide_eq_false_iff_not] at this
    exact this ⟨h1, h.dig ▸ h2, h3⟩
  · obtain ⟨x, hx, e⟩ := h.ctxs c y hy
    obtain ⟨e1, -, e2⟩ := Context.bond_eq e
    obtain ⟨r, hr, hrow, -⟩ := h.recs _ q hq
    rw [hrel, hrow]
    exact hd.2.1 c x r hx (e2 ▸ hk) (e1 ▸ hr)
  · rw [h.map]; exact hd.2.2 (h.sys ▸ hp)

/-- A record in work neither is LOCKED nor SUSPECT. -/
theorem WorkLaw.not_holds {s : State} (h : WorkLaw s) {n : Nat} (hn : s.Named n) {r : Record} (hr : s.recAt n = some r) :
    ¬ r.Holds := by
  obtain ⟨c, x, hx, rfl⟩ := hn
  obtain ⟨-, ⟨q, hq, hst, -⟩, -⟩ := h.2.1 c x hx
  rw [hr] at hq; cases hq
  unfold Record.Holds
  rw [hst]
  cases x.prog.kind <;> nofun

/-- Between two states the law of the dig is kept, where table and work are in agreement before. -/
def DigKept (s t : State) : Prop := TableLaw s → WorkLaw s → DigLaw s → DigLaw t

theorem Firm.digKept {s t : State} (h : Firm s t) : DigKept s t := fun _ hw hd =>
  h.digLaw hd fun _ _ _ _ hn _ _ _ hr hold => absurd hold (hw.not_holds hn hr)

/-- Two changes in a row, the first of which is made of moves and so keeps table and work. -/
theorem DigKept.then {s t u : State} (h : DigKept s t) (hm : Moves (WorkLaw s) s t) (k : DigKept t u) : DigKept s u :=
  fun ht hw hd => k (hm.laws hw ht hw).1 (hm.laws hw ht hw).2 (h ht hw hd)

theorem DigKept.refl (s : State) : DigKept s s := (Firm.refl s).digKept

/-! ## Operations of the works bus -/

theorem State.suspendBound_firm (s : State) (n : Nat) : Firm s (s.suspendBound n) := by
  unfold State.suspendBound
  split
  · exact Firm.refl s
  · split
    · next hx => exact (BondsKept.putCtx hx (Context.suspended_bond _)).firm rfl
    · exact Firm.refl s

theorem State.callFailed_firm (s : State) (n : Nat) (e : FrameError) : Firm s (s.callFailed n e) := by
  unfold State.callFailed
  dsimp only
  split
  · refine Firm.trans ?_ (State.suspendBound_firm _ n)
    exact Firm.same rfl rfl rfl
  · exact Firm.same rfl rfl rfl

theorem State.moveTurn_firm (s : State) : Firm s s.moveTurn := Firm.same (by simp) (by simp) (by simp)

theorem State.attemptFailed_firm (s : State) (t : Turn) (e : FrameError) : Firm s (s.attemptFailed t e) := by
  unfold State.attemptFailed
  split
  · exact Firm.same rfl rfl rfl
  · exact (State.callFailed_firm s _ e).trans (State.moveTurn_firm _)

theorem State.windowFailed_firm (s : State) (e : FrameError) : Firm s (s.windowFailed e) := by
  have h0 : Firm s (s.setExchange .idle) := Firm.same rfl rfl rfl
  unfold State.windowFailed
  split
  · exact h0.trans (State.attemptFailed_firm _ _ e)
  · exact h0.trans (State.moveTurn_firm _)
  · exact h0
  · exact h0
  · exact Firm.refl s

theorem State.missAsk_firm (s : State) (h : Ask) : Firm s (s.missAsk h) := by
  unfold State.missAsk
  repeat' split
  · exact State.windowFailed_firm s _
  · exact Firm.refl s
  · exact State.windowFailed_firm s _
  all_goals exact Firm.refl s

theorem State.afterReply_firm (s : State) (l : LineId) (srq : Bool) : Firm s (s.afterReply l srq) := by
  unfold State.afterReply
  repeat' split
  · exact Firm.same rfl rfl rfl
  · exact State.moveTurn_firm s
  · exact Firm.refl s

theorem State.turnAfterAnswer_firm (s : State) (h : Ask) : Firm s (s.turnAfterAnswer h) := by
  unfold State.turnAfterAnswer
  repeat' split
  · exact Firm.same rfl rfl rfl
  · exact State.moveTurn_firm s
  all_goals exact Firm.refl s

theorem State.startTest_firm (s : State) (l : LineId) : Firm s (s.startTest l) := by
  unfold State.startTest
  split
  · exact Firm.same (by simp) (by simp) (by simp)
  · exact Firm.refl s

theorem State.copyEnded_firm (s : State) (l : LineId) (t : LineTest) : Firm s (s.copyEnded l t) := by
  unfold State.copyEnded
  split
  all_goals exact Firm.same (by simp) (by simp) (by simp)

/-! ## Conditions and marks (R6, R134) -/

theorem State.raise_firm (s : State) (n st : Nat) (c : Cond) : Firm s (s.raise n st c) :=
  Firm.mild n st [c] fun r _ => Mild.refl r

theorem State.raiseWhen_firm (s : State) (b : Bool) (n st : Nat) (c : Cond) : Firm s (if b then s.raise n st c else s) := by
  split
  · exact State.raise_firm s n st c
  · exact Firm.refl s

theorem State.raiseMark_firm (s : State) (subj : Subject) (c : Cond) : Firm s (s.raiseMark subj c) :=
  Firm.same (by simp) (by simp) (by simp)

theorem State.clearMark_firm (s : State) (subj : Subject) (c : Cond) : Firm s (s.clearMark subj c) :=
  Firm.same (by simp) (by simp) (by simp)

theorem State.unraise_firm (s : State) (n st : Nat) (c : Cond) : Firm s (s.unraise n st c) := by
  unfold State.unraise
  split
  · exact Firm.refl s
  · split
    · exact Firm.trans (t := s.update n st fun r => { r with conds := dropCond c r.conds })
        (FirmBut.update n st fun r _ => ⟨rfl, fun h _ => h⟩) (Firm.same (by simp) (by simp) (by simp))
    · exact Firm.refl s

theorem State.raiseFault_firm (s : State) (n : Nat) (subj : Subject) : Firm s (s.raiseFault n subj) := by
  unfold State.raiseFault
  split
  · exact State.raise_firm s _ _ _
  · exact State.raiseMark_firm s _ _

end Sys2Proof.Machine
end

section
/-! The units and the law of the dig (R39 to R45): releases, the replies of the rigs, the ends of work on a jack, the events
of time, and the image writer. -/

namespace Sys2Proof.Machine

/-! ## Release (R53, R66) -/

theorem heldFields_row (prog : Progress) (reason : HeldReason) (ending : Option (EndReason × Nat)) (r : Record) :
    (heldFields prog reason ending r).row = r.row := (heldFields_released prog reason ending r).row

theorem State.releaseHeld_firm {s : State} {c : Nat} {x : Context} (hx : s.ctxAt c = some x) (reason : HeldReason)
    (stamp : Nat) (cs : List Cond) (ending : Option (EndReason × Nat)) : Firm s (s.releaseHeld c x reason stamp cs ending) :=
  Firm.release hx _ stamp cs fun r => heldFields_row x.prog reason ending r

theorem State.releaseInto_firm {s : State} {c : Nat} {x : Context} (hx : s.ctxAt c = some x) (p : Parting) (st : Nat)
    {f : Record → Record} (hf : ∀ r, (f r).row = r.row) : Firm s ((s.freeCtx c x p).update x.slot st f) :=
  State.updateRaising_nil (s.freeCtx c x p) x.slot st f ▸ Firm.release hx p st [] hf

/-- Contexts that stand under their numbers are released one after the other (R66). -/
theorem State.releaseEach_firm (l : List (Nat × Context)) (hkeys : l.Pairwise fun a b => a.1 < b.1) (s : State)
    (hl : ∀ p ∈ l, s.ctxAt p.1 = some p.2) :
    Firm s (l.foldl (fun t p => t.releaseHeld p.1 p.2 .restart Config.partStation [] none) s) := by
  induction l generalizing s with
  | nil => exact Firm.refl s
  | cons p l ih =>
    obtain ⟨hfirst, hrest⟩ := List.pairwise_cons.1 hkeys
    refine (State.releaseHeld_firm (hl p List.mem_cons_self) .restart Config.partStation [] none).trans
      (ih hrest _ fun q hq => ?_)
    have hne : q.1 ≠ p.1 := Nat.ne_of_gt (hfirst q hq)
    rw [State.releaseHeld, State.ctxAt, State.updateRaising_cxp]
    exact (State.ctxAt_freeCtx_ne s p.1 q.1 p.2 _ hne).trans (hl q (List.mem_cons_of_mem _ hq))

theorem State.restartCore_firm (s : State) (hwf : s.cxp.contexts.wf) : Firm s s.restartCore :=
  (State.releaseEach_firm s.cxp.contexts hwf s fun _ hp => Table.get?_of_mem hwf hp).trans (Quiet.restart _).firm

theorem State.cabinetRestart_firm (s : State) (hwf : s.cxp.contexts.wf) : Firm s s.cabinetRestart :=
  (State.restartCore_firm s hwf).trans ((State.restartInputs_bonds _).firm (by simp))

theorem State.answerEnded_firm (s : State) (hwf : s.cxp.contexts.wf) (h : Ask) (after : AfterAnswer) :
    Firm s (s.answerEnded h after) := by
  cases after with
  | nothing | allstop => exact State.turnAfterAnswer_firm s h
  | restart => exact State.cabinetRestart_firm s hwf
  | test l => exact (State.turnAfterAnswer_firm s h).trans (State.startTest_firm _ l)

/-! ## Insertion and grouting (chapter 4) -/

theorem State.putCtx_firm {s : State} {c : Nat} {x y : Context} (hy : s.ctxAt c = some y) (h : x.bond = y.bond) :
    Firm s (s.putCtx c x) := (BondsKept.putCtx hy h).firm rfl

theorem State.winchReply_firm {s : State} {c : Nat} {x : Context} (hx : s.ctxAt c = some x) {p : InsertProg}
    (hp : x.prog = .insert p) (count tension : Nat) : Firm s (s.winchReply c x p count tension) := by
  unfold State.winchReply
  split
  · exact Firm.refl s
  · next cls _ =>
    have h2 := (State.putCtx_firm (x := { x with prog := .insert (p.read cls count tension) }) hx
      (by simp [Context.bond, hp]; rfl)).trans
      (State.raiseWhen_firm _ (isSetback (counterDelta count p.baseline)) x.slot x.station .countSetback)
    dsimp only
    split
    · exact h2.trans (State.raise_firm _ _ _ _)
    · exact h2

theorem State.toCuring_firm {s : State} {c : Nat} {x : Context} (hx : s.ctxAt c = some x) (p : GroutProg)
    (cls : ClassEntry) (reason : EndReason) : Firm s (s.toCuring c x p cls reason) :=
  State.releaseInto_firm hx _ _ fun _ => rfl

theorem State.pumpReply_firm {s : State} {c : Nat} {x : Context} (hx : s.ctxAt c = some x) {p : GroutProg}
    (hp : x.prog = .grout p) (count reported : Nat) : Firm s (s.pumpReply c x p count reported) := by
  unfold State.pumpReply
  split
  · exact Firm.refl s
  · next cls _ =>
    have h2 := (State.putCtx_firm (x := { x with prog := .grout (p.read cls count (takePressure reported)) }) hx
      (by simp [Context.bond, hp]; rfl)).trans
      (State.raiseWhen_firm _ (isSetback (counterDelta count p.baseline)) x.slot x.station .countSetback)
    have hc := (State.ctxAt_raiseWhen (s.putCtx c { x with prog := .grout (p.read cls count (takePressure reported)) })
      (isSetback (counterDelta count p.baseline)) x.slot x.station .countSetback c).trans (State.ctxAt_putCtx_same ..)
    dsimp only
    split
    · exact h2.trans (State.releaseHeld_firm hc _ _ _ _)
    split
    · exact h2.trans (State.releaseHeld_firm hc _ _ _ _)
    split
    · exact h2.trans (State.toCuring_firm hc _ _ _)
    · exact h2

theorem State.winchEnd_firm {s : State} {c : Nat} {x : Context} (hx : s.ctxAt c = some x) (p : InsertProg) :
    Firm s (s.winchEnd c x p) := by
  unfold State.winchEnd
  repeat' split
  · exact Firm.refl s
  · exact Firm.refl s
  · exact State.releaseInto_firm hx _ _ fun _ => rfl
  · exact State.releaseHeld_firm hx _ _ _ _

theorem State.groutEnd_firm {s : State} {c : Nat} {x : Context} (hx : s.ctxAt c = some x) (p : GroutProg) :
    Firm s (s.groutEnd c x p) := by
  unfold State.groutEnd
  repeat' split
  · exact Firm.refl s
  · exact State.toCuring_firm hx _ _ _
  · exact State.releaseHeld_firm hx _ _ _ _

theorem State.expireCure_firm (s : State) (n : Nat) : Firm s (s.expireCure n) := by
  unfold State.expireCure
  split
  · exact Firm.refl s
  · next r hr =>
    split
    · next h =>
      refine FirmBut.update n _ fun q hq => ⟨rfl, fun hold => ?_⟩
      rw [hr] at hq; cases hq
      rw [Record.Holds, h.1] at hold
      exact absurd hold nofun
    · exact Firm.refl s

theorem State.completeRefusal_firm {s : State} {c : Nat} {x : Context} (hx : s.ctxAt c = some x) :
    Firm s (s.completeRefusal c x) := by
  unfold State.completeRefusal
  repeat' split
  · exact State.toCuring_firm hx _ _ _
  all_goals exact Firm.refl s

/-! ## The map and the records of a position (R8, R10) -/

theorem State.isRelied_eq_false {s : State} {row : Nat} :
    s.isRelied row = false ↔ ¬ (1 ≤ row ∧ row ≤ s.tbc.site.digRow ∧ s.isRelieved row = false) := by simp [State.isRelied]

/-- A map entry that changes lies in a row that is not relied, or comes to name a record that may stand in one. -/
theorem DigLaw.setMap {s : State} (h : DigLaw s) (hup : s.sys.phase = .up) {row bay : Nat} (v? : Option Nat)
    (hrow : 1 ≤ row) (hbay : 1 ≤ bay ∧ bay ≤ 400)
    (hv : s.isRelied row = false ∨ ∃ n r, v? = some n ∧ s.recAt n = some r ∧ r.Holds) :
    DigLaw (s.setMap (posKey row bay) v?) := by
  have hrel : ∀ k, (s.setMap (posKey row bay) v?).isRelieved k = s.isRelieved k := fun k => by
    simp [State.isRelieved]
  refine ⟨fun k b n r h1 h2 h3 h4 h5 hl hr => ?_, fun c x r hx hk hr => ?_, fun hp => ?_⟩
  · rw [State.setMap_site] at h2
    rw [hrel] at h3
    rw [State.recAt_setMap] at hr
    by_cases e : posKey k b = posKey row bay
    · obtain ⟨rfl, rfl⟩ := posKey_inj h1 ⟨h4, h5⟩ hrow hbay e
      rw [State.liveAt, State.setMap_get?] at hl
      rcases hv with hv | ⟨m, q, rfl, hq, hold⟩
      · exact absurd ⟨h1, h2, h3⟩ (State.isRelied_eq_false.1 hv)
      · cases hl; rw [hq] at hr; cases hr; exact hold
    · rw [State.liveAt, State.setMap_get?_ne _ _ _ _ e] at hl
      exact h.1 k b n r h1 h2 h3 h4 h5 hl hr
  · rw [State.recAt_setMap] at hr
    rw [State.ctxAt, State.setMap_cxp] at hx
    rw [hrel]; exact h.2.1 c x r hx hk hr
  · exact absurd ((State.setMap_sys ..).symm ▸ hup) hp

/-- The live record of a position is found under the position it names (R9). -/
theorem TableLaw.live_place {s : State} (h : TableLaw s) {n row bay : Nat} {r : Record} (hrow : 1 ≤ row)
    (hbay : 1 ≤ bay ∧ bay ≤ 400) (hl : s.liveAt row bay = some n) (hr : s.recAt n = some r) :
    r.row = row ∧ r.bay = bay ∧ s.isLive n r = true := by
  obtain ⟨q, hq, hkey, -⟩ := h.2.2.2.2.1 _ n hl
  rw [hr] at hq; cases hq
  obtain ⟨-, h1, -, h2, h3, -⟩ := h.2.2.1 n r hr
  obtain ⟨rfl, rfl⟩ := posKey_inj h1 ⟨h2, h3⟩ hrow hbay hkey
  exact ⟨rfl, rfl, decide_eq_true hl⟩

/-- A change that may take one record out of LOCKED and SUSPECT, where it is not live in a relied row. -/
theorem FirmBut.digLaw_slot {s t : State} {n : Nat} (h : FirmBut (· = n) s t)
    (hn : ∀ r, s.recAt n = some r → s.isLive n r = true → s.isRelied r.row = false) (ht : TableLaw s) (hd : DigLaw s) :
    DigLaw t :=
  h.digLaw hd fun m row bay r hm h1 hb hl hr _ => by
    subst hm
    obtain ⟨rfl, -, hlive⟩ := ht.live_place h1 hb hl hr
    exact hn r hr hlive

theorem State.unlinkOld_firm {P : Nat → Prop} (s : State) (n st : Nat) (r : Record) : FirmBut P s (s.unlinkOld n st r) := by
  have hrefl : FirmBut P s s := FirmBut.of_slots rfl rfl ⟨rfl, rfl⟩ rfl (CtxsFrom.refl s)
  unfold State.unlinkOld
  repeat' split
  · exact hrefl
  · exact hrefl
  · exact FirmBut.update _ _ fun q _ => ⟨rfl, fun h _ => h⟩
  · exact hrefl

/-- Entry to RETIRED of a record that is not live in a relied row (R8, R10, R44). -/
theorem DigLaw.retireRecord {s : State} (hup : s.sys.phase = .up) {n : Nat} {r : Record} (hr : s.recAt n = some r)
    (hlive : s.isLive n r = true → s.isRelied r.row = false) (st : Nat) (reason : RetireReason) {f : Record → Record}
    (hf : ∀ q, (f q).row = q.row) (ht : TableLaw s) (hd : DigLaw s) : DigLaw (s.retireRecord n st reason f) := by
  have hfirm : FirmBut (· = n) s (s.retireFirst n st reason f r) := by
    refine FirmBut.trans (FirmBut.trans (FirmBut.update (f := fun q => retireFields reason (f q)) n st fun q _ =>
      ⟨hf q, fun _ hn => absurd rfl hn⟩) (FirmBut.of_slots (P := (· = n)) ?_ ?_ ?_ ?_ (CtxsFrom.of_cxp ?_)) fun _ => id)
      (State.unlinkOld_firm _ n st r) fun _ => id
    all_goals simp
  have hfirst : DigLaw (s.retireFirst n st reason f r) :=
    hfirm.digLaw_slot (fun q hq => by rw [hr] at hq; cases hq; exact hlive) ht hd
  rw [State.retireRecord_eq hr]
  split
  · next hl =>
    obtain ⟨-, h1, -, h2, h3, -⟩ := ht.2.2.1 n r hr
    refine hfirst.setMap (hfirm.sys ▸ hup) _ h1 ⟨h2, h3⟩ (.inl ?_)
    have := hlive hl
    rw [State.isRelied_eq_false] at this ⊢
    rw [hfirm.dig, State.isRelieved, hfirm.relieved]
    exact this
  · exact hfirst

/-! ## Stressing and destressing (chapter 6) -/

/-- While work is bound the part is up (R66, R176). -/
theorem WorkLaw.up {s : State} (h : WorkLaw s) {c : Nat} {x : Context} (hx : s.ctxAt c = some x) : s.sys.phase = .up := by
  by_contra hp
  rw [State.ctxAt, h.2.2.2.2 hp] at hx; cases hx

/-- A stressing that passes: its record, LOCKED, may stand in any row (R119). -/
theorem State.releaseLocked_digKept {s : State} {c : Nat} {x : Context} (hx : s.ctxAt c = some x) (p : Parting) (st : Nat)
    {f : Record → Record} (hf : ∀ q, (f q).row = q.row ∧ (f q).bay = q.bay) :
    DigKept s ((s.freeCtx c x p).lockRecord x.slot st f) := fun ht hw hd => by
  have hfirm : Firm s ((s.freeCtx c x p).update x.slot st fun q => { f q with state := .locked }) :=
    State.releaseInto_firm hx p st fun q => (hf q).1
  have hlaw := hfirm.digKept ht hw hd
  obtain ⟨-, ⟨r, hr, -⟩, -⟩ := hw.2.1 c x hx
  obtain ⟨-, h1, -, h2, h3, -⟩ := ht.2.2.1 _ r hr
  obtain ⟨stamp, hq⟩ := State.recAt_update (s := s.freeCtx c x p) hr st fun q => { f q with state := .locked }
  unfold State.lockRecord
  rw [show (s.freeCtx c x p).recAt x.slot = some r from hr]
  dsimp only
  repeat' split
  · exact hlaw
  · exact hlaw.setMap (hfirm.sys ▸ hw.up hx) _ h1 ⟨h2, h3⟩ (.inr ⟨_, _, rfl, hq, .inl rfl⟩)
  · exact hlaw

/-- A destressing that ends: its record is in work, so it is not live in a relied row (R44, R125). -/
theorem State.releaseRetire_digKept {s : State} {c : Nat} {x : Context} (hx : s.ctxAt c = some x) (p : Parting) (st : Nat) :
    DigKept s ((s.freeCtx c x p).retireRecord x.slot st .destressed id) := fun ht hw hd => by
  obtain ⟨-, ⟨r, hr, -⟩, -⟩ := hw.2.1 c x hx
  obtain ⟨-, h1, -, h2, h3, -⟩ := ht.2.2.1 _ r hr
  have hfree : FirmBut (fun _ => False) s (s.freeCtx c x p) :=
    FirmBut.of_slots rfl rfl ⟨rfl, rfl⟩ rfl (CtxsFrom.freeCtx s c x p)
  refine DigLaw.retireRecord (s := s.freeCtx c x p) (hw.up hx) hr (fun hl => ?_) st .destressed (fun _ => rfl)
    (ht.congr rfl rfl) (hfree.digLaw hd fun _ _ _ _ h => h.elim)
  refine State.isRelied_eq_false.2 fun ⟨_, hrow, hrel⟩ => ?_
  exact hw.not_holds ⟨c, x, hx, rfl⟩ hr (hd.1 r.row r.bay x.slot r h1 hrow hrel h2 h3 (of_decide_eq_true hl) hr)

theorem State.finishJack_digKept {s : State} {c : Nat} {x : Context} (hx : s.ctxAt c = some x) (env : JackEnv)
    {mk : JackProg → Progress} (hmk : ∀ p, (mk p).kind = x.prog.kind) (out : JackProg × JackEnd) :
    DigKept s (s.finishJack c x env mk out) := by
  unfold State.finishJack
  split
  · exact (State.putCtx_firm hx (by simp [Context.bond, hmk])).digKept
  · refine (Firm.release hx _ x.station _ fun r => ?_).digKept
    rfl
  · exact State.releaseLocked_digKept hx _ _ fun _ => ⟨rfl, rfl⟩
  · exact State.releaseRetire_digKept hx _ _

theorem State.stressReply_digKept {s : State} {c : Nat} {x : Context} (hx : s.ctxAt c = some x)
    (hk : x.prog.kind = .stress) (p : JackProg) (fault : Bool) (env : JackEnv) (t : JackReading) :
    DigKept s (s.stressReply c x p fault env t) := by
  unfold State.stressReply
  split
  · exact (State.releaseHeld_firm hx _ _ _ _).digKept
  · exact State.finishJack_digKept hx env (mk := .stress) (fun _ => hk.symm) _

theorem State.writeLiftoff_firm (s : State) (x : Context) (p : JackProg) (t : JackReading) :
    Firm s (s.writeLiftoff x p t) := by
  unfold State.writeLiftoff
  split
  · exact Firm.update _ _ fun r _ => Mild.of_fixed rfl (.inl ⟨rfl, rfl⟩)
  · exact Firm.refl s

theorem State.destressReply_digKept {s : State} {c : Nat} {x : Context} (hx : s.ctxAt c = some x)
    (hk : x.prog.kind = .destress) (p : JackProg) (fault : Bool) (env : JackEnv) (t : JackReading) :
    DigKept s (s.destressReply c x p fault env t) := by
  unfold State.destressReply
  split
  · exact (State.releaseHeld_firm hx _ _ _ _).digKept
  split
  · exact (State.releaseHeld_firm hx _ _ _ _).digKept
  · exact (State.writeLiftoff_firm s x p t).digKept.then (State.writeLiftoff_moves s x p t)
      (State.finishJack_digKept ((State.ctxAt_writeLiftoff s x p t c).trans hx) env (mk := .destress) (fun _ => hk.symm) _)

theorem State.expireTimer_digKept {s : State} {c : Nat} {x : Context} (hx : s.ctxAt c = some x) :
    DigKept s (s.expireTimer c x) := by
  unfold State.expireTimer
  split
  · exact DigKept.refl s
  split
  · next hp => exact State.finishJack_digKept hx _ (fun _ => by rw [hp]; rfl) _
  · next hp => exact State.finishJack_digKept hx _ (fun _ => by rw [hp]; rfl) _
  · exact DigKept.refl s

/-! ## Successful replies (R57, R60, R131, R166) -/

theorem State.useReply_digKept {s : State} {c : Nat} {x : Context} (hx : s.ctxAt c = some x) (r : Reply) :
    DigKept s (s.useReply c x r) := by
  unfold State.useReply
  split
  · next hp _ => exact (State.winchReply_firm hx hp _ _).digKept
  · next hp _ => exact (State.pumpReply_firm hx hp _ _).digKept
  · next hp _ =>
    split
    · exact State.stressReply_digKept hx (by rw [hp]; rfl) _ _ _ _
    · exact DigKept.refl s
  · next hp _ =>
    split
    · exact State.destressReply_digKept hx (by rw [hp]; rfl) _ _ _ _
    · exact DigKept.refl s
  · exact DigKept.refl s

theorem State.handToContext_digKept {s : State} {c : Nat} {x : Context} (hx : s.ctxAt c = some x) (r : Reply) :
    DigKept s (s.handToContext c x r) := by
  have hbond := Context.afterReply_bond x r.busy s.ifu.stop.isSome
  have h1 := (State.putCtx_firm hx hbond).digKept
  unfold State.handToContext
  dsimp only
  split
  · exact h1
  · exact h1.then (State.putCtx_moves hx hbond) (State.useReply_digKept (State.ctxAt_putCtx_same ..) r)

theorem State.testParting_firm (s : State) (n : Nat) (d : Telemetry) : Firm s (s.testParting n d) := by
  unfold State.testParting
  repeat' split
  · exact (Quiet.parting s _).firm
  all_goals exact Firm.refl s

theorem State.reading_firm (s : State) (n station reported : Nat) : Firm s (s.reading n station reported) := by
  unfold State.reading
  split
  · exact Firm.refl s
  · exact Firm.mild n station _ fun r _ => Mild.of_fixed rfl (.inl ⟨rfl, rfl⟩)

theorem State.takeChannels_firm (s : State) (station c : Nat) (chs : List (Nat × Bool)) :
    Firm s (s.takeChannels station c chs) := by
  induction chs generalizing s c with
  | nil => exact Firm.refl s
  | cons ch rest ih =>
    unfold State.takeChannels
    refine Firm.trans ?_ (ih _ _)
    split
    · exact State.reading_firm s _ _ _
    · exact Firm.refl s

theorem State.handOn_digKept (s : State) (n : Nat) (r : Reply) : DigKept s (s.handOn n r) := by
  unfold State.handOn
  repeat' split
  · next hx => exact State.handToContext_digKept hx r
  · exact DigKept.refl s
  · exact (State.takeChannels_firm s _ _ _).digKept
  · exact (State.testParting_firm s _ _).digKept

theorem State.takeReply_digKept (s : State) (n : Nat) (l : LineId) (r : Reply) : DigKept s (s.takeReply n l r) := by
  have h1 : Quiet s (s.putStation n ((s.stationAt n).heard l r.data)) := by
    refine Quiet.putStation s n ?_ (.inl ?_) ?_ <;> rfl
  have h2 := h1.firm.digKept.then h1.moves (State.handOn_digKept _ n r)
  unfold State.takeReply
  dsimp only
  split
  · exact h2.then (h1.moves.trans (State.handOn_moves _ n r)) (State.raiseFault_firm _ n _).digKept
  · exact h2

theorem State.replyInWindow_digKept (s : State) (station : Nat) (l : LineId) (r : Reply) :
    DigKept s (s.replyInWindow station l r) := by
  unfold State.replyInWindow
  split
  · exact (State.windowFailed_firm s _).digKept
  · next h =>
    have h0 : Quiet (s.setExchange .idle) ((s.setExchange .idle).putLine l (s.lineAt l).succeed) := by
      refine Quiet.putLine _ l ?_
      cases l <;> exact ⟨rfl, rfl⟩
    have hm := (Quiet.setExchange s .idle).moves.trans (h0.moves (G := WorkLaw s))
    have h1 := ((Quiet.setExchange s .idle).firm.trans h0.firm).digKept.then hm (State.takeReply_digKept _ station l r)
    exact h1.then (hm.trans (State.takeReply_moves _ (station_lt_of_replyError h) l r)) (State.afterReply_firm _ l r.srq).digKept

theorem State.replyAlone_digKept (s : State) (station : Nat) (l : LineId) (r : Reply) :
    DigKept s (s.replyAlone station l r) := by
  unfold State.replyAlone
  repeat' split
  · exact DigKept.refl s
  · exact State.takeReply_digKept s station l r
  · exact DigKept.refl s

/-! ## The image writer (R173 to R175) -/

/-- What reaches the ISI alone. -/
theorem Firm.isi (s : State) (i : Isi) : Firm s { s with isi := i } := Firm.same rfl rfl rfl

theorem State.unmarkWrite_firm (s : State) (subj : Subject) : Firm s (s.unmarkWrite subj) := by
  unfold State.unmarkWrite
  split
  · exact State.unraise_firm s _ _ _
  · exact State.clearMark_firm s _ _

theorem State.itemWritten_firm (s : State) (item : Item) : Firm s (s.itemWritten item) :=
  (Firm.isi s _).trans (Firm.foldl State.unmarkWrite_firm _ _)

theorem State.ackBlock_firm (s : State) (item : Item) (block : Nat) (bytes : List Byte) (rest : List (List Byte)) :
    Firm s (s.ackBlock item block bytes rest) := by
  have h1 := Firm.isi s (s.isi.store block bytes)
  unfold State.ackBlock
  dsimp only
  split
  · exact h1.trans (State.itemWritten_firm _ item)
  · exact h1.trans (Firm.isi _ _)

theorem State.markWrite_firm (s : State) (subj : Subject) : Firm s (s.markWrite subj) := by
  cases subj with
  | record n => exact State.raise_firm s n _ _
  | station | line | site => exact State.raiseMark_firm s _ _

theorem State.failBlock_firm (s : State) (item : Item) (block : Nat) (bytes : List Byte) (left : Remnant) :
    Firm s (s.failBlock item block bytes left) := by
  refine Firm.trans ?_ (State.markWrite_firm _ _)
  exact Firm.isi s _

end Sys2Proof.Machine
end

section
/-! The requests and the law of the dig (R39 to R45): new records, bindings, the dig row and the relieved flags, and what every
request leaves firm. -/

namespace Sys2Proof.Machine

theorem DigLaw.congr {s t : State} (h : DigLaw s) (htbc : t.tbc = s.tbc) (hcxp : t.cxp = s.cxp) (hsys : t.sys = s.sys) :
    DigLaw t :=
  FirmBut.digLaw (P := fun _ => False) (FirmBut.of_slots (by rw [htbc]) (by rw [htbc]) (by rw [htbc]; exact ⟨rfl, rfl⟩) hsys
    (CtxsFrom.of_cxp hcxp)) h fun _ _ _ _ h => h.elim

/-! ## New records (R16, R22) -/

/-- A new record in a slot that no map entry and no context names. -/
theorem DigLaw.place {s : State} (h : DigLaw s) {n : Nat} (hmap : ∀ key, s.tbc.map.get? key ≠ some n)
    (hctx : ¬ s.Named n) (r : Record) : DigLaw (s.place n r) := by
  refine ⟨fun row bay m q h1 h2 h3 h4 h5 hl hq => ?_, fun c x q hx hk hq => ?_, fun hp => ?_⟩
  · rw [State.liveAt, State.place_map] at hl
    rw [State.recAt_place, if_neg fun e => hmap _ (by rw [hl, e])] at hq
    rw [State.place_site] at h2
    rw [State.isRelieved, State.place_site] at h3
    exact h.1 row bay m q h1 h2 h3 h4 h5 hl hq
  · rw [State.ctxAt, State.place_cxp] at hx
    rw [State.recAt_place, if_neg fun e => hctx ⟨c, x, hx, e⟩] at hq
    rw [State.isRelieved, State.place_site]
    exact h.2.1 c x q hx hk hq
  · rw [State.place_map]; exact h.2.2 (State.place_sys s n r ▸ hp)

/-- Nothing names a FREE slot (R9, R47). -/
theorem TableLaw.free_unmapped {s : State} (h : TableLaw s) {n : Nat} (hn : s.recAt n = none) (key : Nat) :
    s.tbc.map.get? key ≠ some n := fun hk => by
  obtain ⟨r, hr, -⟩ := h.2.2.2.2.1 key n hk
  rw [hn] at hr; cases hr

theorem WorkLaw.free_unnamed {s : State} (h : WorkLaw s) {n : Nat} (hn : s.recAt n = none) : ¬ s.Named n := by
  rintro ⟨c, x, hx, rfl⟩
  obtain ⟨-, ⟨r, hr, -⟩, -⟩ := h.2.1 c x hx
  rw [hn] at hr; cases hr

theorem State.createOwn_digKept {s : State} (hup : s.sys.phase = .up) {row bay : Nat} (cls : Nat)
    (freeOv bondOv : Option Nat) (hrow : 1 ≤ row) (hbay : 1 ≤ bay ∧ bay ≤ 400) :
    DigKept s (s.createOwn row bay cls freeOv bondOv).st := by
  unfold State.createOwn
  split
  · exact DigKept.refl s
  split
  · exact DigKept.refl s
  split
  · exact DigKept.refl s
  split
  · exact DigKept.refl s
  next hrel _ _ n hn =>
  obtain ⟨-, hfree⟩ := State.lowestFree_spec hn
  refine fun ht hw hd => (hd.place (ht.free_unmapped hfree) (hw.free_unnamed hfree) _).setMap
    (State.place_sys s n _ ▸ hup) _ hrow hbay (.inl ?_)
  exact (State.isRelied_congr (s := s) (State.place_site s n _) row).trans (by simpa using hrel)

theorem State.replaceOwn_digKept {s : State} {slot : Nat} (sender : Nat) (cls : Option Nat) (r : Record) :
    DigKept s (s.replaceOwn slot sender cls r).st := by
  unfold State.replaceOwn
  split
  · exact DigKept.refl s
  split
  · exact DigKept.refl s
  split
  · exact DigKept.refl s
  split
  · exact DigKept.refl s
  next hgen _ n hn =>
  obtain ⟨-, hfree⟩ := State.lowestFree_spec hn
  have hfirm : Firm s (s.update slot sender fun q => { q with replacedBy := some n }) :=
    FirmBut.update slot sender fun q _ => ⟨rfl, fun h _ => h⟩
  exact fun ht hw hd => (hfirm.digKept ht hw hd).place (fun key => hfirm.map ▸ ht.free_unmapped hfree key)
    (fun h => hw.free_unnamed hfree (hfirm.ctxs.named h)) _

/-- A purged record is RETIRED, and those that stay lose links at most (R20). -/
theorem State.purge_digKept {s : State} (n sender : Nat) : DigKept s (s.purge n sender) := fun ht hw hd => by
  have hfirm : Firm s (s.purge n sender) := by
    refine ⟨State.purge_map s n sender, by rw [State.purge_site], by rw [State.purge_site], ?_,
      CtxsFrom.of_cxp (State.purge_cxp s n sender), fun m q hq => ?_⟩
    · rw [State.purge_eq, foldl_same State.sys _ fun t m => by simp]; simp [State.purged]
    · obtain ⟨-, r, hr, k, hst, -⟩ := State.recAt_purge ht.1 n sender hq
      exact ⟨r, hr, k.row, fun h _ => by unfold Record.Holds; rw [hst]; exact h⟩
  exact hfirm.digKept ht hw hd

/-! ## Bindings (R50, R51) -/

theorem inNeededState_not_holds {k : CtxKind} {resumed : Bool} {r : Record} (h : inNeededState k resumed r = true)
    (hk : k ≠ .destress) : ¬ r.Holds := by
  unfold inNeededState at h
  unfold Record.Holds
  split at h
  · rw [(of_decide_eq_true h).1]; nofun
  · rw [of_decide_eq_true h]
    cases k with
    | destress => exact absurd rfl hk
    | insert | grout | stress => nofun

/-- Work begins on no record that is LOCKED or SUSPECT, but for a DESTRESS in a relieved row (R44, R50). -/
theorem DigLaw.bindCtx {s : State} (h : DigLaw s) (ht : TableLaw s) {k : CtxKind} {n station : Nat}
    {r : Record} {resumed : Bool} (hr : s.recAt n = some r) (hup : s.sys.phase = .up)
    (hneeded : inNeededState k resumed r = true) (hrel : k = .destress → s.isRelieved r.row = true) (c sender : Nat) :
    DigLaw (s.bindCtx c k n station sender r resumed) := by
  have hrow : ∀ m q, (s.bindCtx c k n station sender r resumed).recAt m = some q →
      ∃ p, s.recAt m = some p ∧ q.row = p.row ∧ (m ≠ n → q = p) := fun m q hq => by
    rw [State.recAt_bindCtx] at hq
    obtain ⟨p, hp, ⟨-, rfl⟩ | ⟨rfl, stamp, rfl⟩⟩ := State.recAt_update_cases hq
    · exact ⟨q, hp, rfl, fun _ => rfl⟩
    · exact ⟨p, hp, rfl, fun e => absurd rfl e⟩
  have hsite : (s.bindCtx c k n station sender r resumed).tbc.site = s.tbc.site := by rw [State.bindCtx_tbc, State.update_site]
  have hflag : ∀ k', (s.bindCtx c k n station sender r resumed).isRelieved k' = s.isRelieved k' := fun _ => by
    rw [State.isRelieved, hsite]; rfl
  refine ⟨fun row bay m q h1 h2 h3 h4 h5 hl hq => ?_, fun d y q hy hk hq => ?_, fun hp => ?_⟩
  · obtain ⟨p, hp, -, hsame⟩ := hrow m q hq
    rw [State.liveAt, State.bindCtx_tbc, State.update_map] at hl
    rw [hsite] at h2
    rw [hflag] at h3
    have hold := h.1 row bay m p h1 h2 h3 h4 h5 hl hp
    by_cases e : m = n
    · subst e
      rw [hr] at hp; cases hp
      obtain ⟨hplace, -⟩ := ht.live_place h1 ⟨h4, h5⟩ hl hr
      by_cases hk : k = .destress
      · rw [← hplace, hrel hk] at h3; cases h3
      · exact absurd hold (inNeededState_not_holds hneeded hk)
    · rw [hsame e]; exact hold
  · obtain ⟨p, hp, e, -⟩ := hrow _ q hq
    rw [hflag, e]
    rw [State.ctxAt, State.bindCtx_contexts] at hy
    by_cases e' : d = c
    · subst e'
      rw [Table.get?_put_same] at hy; cases hy
      rw [hr] at hp; cases hp
      exact hrel ((State.startProg_kind ..).symm.trans hk)
    · rw [Table.get?_put_ne _ _ _ _ e'] at hy
      exact h.2.1 d y p hy hk hp
  · rw [State.bindCtx_sys] at hp; exact absurd hup hp

theorem State.bindOwn_digKept {s : State} {n : Nat} {r : Record} (hr : s.recAt n = some r) (hup : s.sys.phase = .up)
    (k : CtxKind) (station sender : Nat) (resumed : Bool) : DigKept s (s.bindOwn k n station sender r resumed).st := by
  rcases s.bindOwn_cases k n station sender r resumed with ⟨res, body, h, -⟩ | ⟨c, hready, hnear, -, h⟩
  · rw [h]; exact DigKept.refl s
  · rw [h]
    exact fun ht _ hd => hd.bindCtx ht hr hup (State.ready_of_none hready).2.2 (State.nearRefusal_none hnear).2 c sender

theorem State.beginOwn_digKept {s : State} (hup : s.sys.phase = .up) (sender row bay : Nat) :
    DigKept s (s.beginOwn sender row bay).st := by
  unfold State.beginOwn
  split
  · exact DigKept.refl s
  split
  · exact DigKept.refl s
  next hr =>
  split
  · exact DigKept.refl s
  · split
    · exact DigKept.refl s
    · exact State.bindOwn_digKept hr hup _ _ _ _

/-! ## The dig row and the relieved flags (R41 to R43) -/

/-- A dig row that rises stays within the query value (R41). -/
theorem DigLaw.setDig {s : State} (h : DigLaw s) {row : Nat} (hrow : row ≤ s.tbc.site.digRow ∨ row ≤ s.digValue false)
    (hsys : (s.setDig row).sys = s.sys) : DigLaw (s.setDig row) := by
  have hrec : ∀ m, (s.setDig row).recAt m = s.recAt m := State.recAt_congr (by rw [State.setDig_tbc])
  have hflag : ∀ k, (s.setDig row).isRelieved k = s.isRelieved k := fun k => by rw [State.isRelieved, State.setDig_site]; rfl
  refine ⟨fun k bay n r h1 h2 h3 h4 h5 hl hr => ?_, fun c x r hx hk hr => ?_, fun hp => ?_⟩
  · rw [State.setDig_site] at h2
    rw [hflag] at h3
    rw [State.liveAt, State.setDig_tbc] at hl
    rw [hrec] at hr
    rcases hrow with hle | hle
    · exact h.1 k bay n r h1 (Nat.le_trans h2 hle) h3 h4 h5 hl hr
    · have hcounts := State.rowCounts_of_le h1 (Nat.le_trans h2 hle) h3 bay n r h4 h5 hl hr
      exact .inl ((r.counts_false).1 hcounts)
  · rw [hrec] at hr
    rw [State.ctxAt, State.setDig_cxp] at hx
    rw [hflag]; exact h.2.1 c x r hx hk hr
  · rw [State.setDig_tbc]; exact h.2.2 (hsys ▸ hp)

theorem State.isRelieved_setRelieved (s : State) {row : Nat} (hrow : 1 ≤ row ∧ row ≤ 12) (on : Bool) (k : Nat) :
    (s.setRelieved row on).isRelieved k = if k - 1 = row - 1 then on else s.isRelieved k := by
  rw [State.isRelieved, State.setRelieved_site]
  dsimp only
  by_cases e : k - 1 = row - 1
  · have hlt : row - 1 < 12 := by omega
    rw [if_pos e, e]
    simp [hlt]
  · rw [if_neg e]
    simp [Ne.symm e, State.isRelieved]

/-- A flag is set at any time, and cleared where the row then relied holds its records and no DESTRESS goes on in it
(R42, R43). -/
theorem DigLaw.setRelieved {s : State} (h : DigLaw s) (ht : TableLaw s) {row : Nat} (hrow : 1 ≤ row ∧ row ≤ 12) {on : Bool}
    (hclear : on = false → (row ≤ s.tbc.site.digRow → (s.notHolding false row).isEmpty = true) ∧ s.destressIn row = false)
    (hsys : (s.setRelieved row on).sys = s.sys) : DigLaw (s.setRelieved row on) := by
  have hrec : ∀ m, (s.setRelieved row on).recAt m = s.recAt m := State.recAt_congr (by rw [State.setRelieved_tbc])
  refine ⟨fun k bay n r h1 h2 h3 h4 h5 hl hr => ?_, fun c x r hx hk hr => ?_, fun hp => ?_⟩
  · rw [State.setRelieved_site] at h2
    rw [State.liveAt, State.setRelieved_tbc] at hl
    rw [hrec] at hr
    rw [State.isRelieved_setRelieved s hrow] at h3
    split at h3
    · next e =>
      obtain rfl : k = row := by omega
      have hcounts := State.rowCounts_of_empty h1 ((hclear h3).1 h2) bay n r h4 h5 hl hr
      exact .inl ((r.counts_false).1 hcounts)
    · exact h.1 k bay n r h1 h2 h3 h4 h5 hl hr
  · rw [hrec] at hr
    rw [State.ctxAt, State.setRelieved_cxp] at hx
    rw [State.isRelieved_setRelieved s hrow]
    split
    · next e =>
      cases on with
      | true => rfl
      | false =>
        obtain ⟨-, h1, -⟩ := ht.2.2.1 _ r hr
        obtain rfl : r.row = row := by omega
        have hnone := List.any_eq_false.1 (hclear rfl).2 (c, x) (Table.mem_of_get? hx)
        simp [hk, hr] at hnone
    · exact h.2.1 c x r hx hk hr
  · rw [State.setRelieved_tbc]; exact h.2.2 (hsys ▸ hp)

@[simp] theorem State.setDig_sys (s : State) (row : Nat) : (s.setDig row).sys = s.sys := by
  unfold State.setDig; split <;> simp

@[simp] theorem State.setRelieved_sys (s : State) (row : Nat) (on : Bool) : (s.setRelieved row on).sys = s.sys := by
  unfold State.setRelieved; split <;> simp

/-! ## What the other requests do -/

theorem State.siteApply_firm (s : State) (x : SiteItems) : Firm s (s.siteApply x) :=
  FirmBut.of_slots (by rw [State.siteApply_tbc]) (by rw [State.siteApply_tbc])
    (by rw [State.siteApply_tbc]; exact ⟨rfl, rfl⟩) (State.siteApply_bonds s x).sys (State.siteApply_bonds s x).ctxsFrom

theorem State.hand_firm (s : State) (i : Item) : Firm s (s.hand i) := Firm.same (by simp) (by simp) (by simp)

theorem State.setClass_firm (s : State) (c : Nat) (e : Option ClassEntry) : Firm s (s.setClass c e) := by
  unfold State.setClass
  dsimp only
  split
  · exact FirmBut.of_slots rfl rfl ⟨rfl, rfl⟩ rfl (CtxsFrom.refl s)
  · refine Firm.trans ?_ (State.hand_firm _ _)
    exact FirmBut.of_slots rfl rfl ⟨rfl, rfl⟩ rfl (CtxsFrom.refl s)

theorem State.classOwn_firm (s : State) (c : Nat) (e : Option ClassEntry) : Firm s (s.classOwn c e).st := by
  unfold State.classOwn
  split
  · exact Firm.refl s
  · exact State.setClass_firm s c e

theorem State.classFormOwn_firm (s : State) (c : Nat) (form : ClassForm) : Firm s (s.classFormOwn c form).st := by
  cases form with
  | unset => exact State.classOwn_firm s c none
  | part2 f =>
    rw [State.classFormOwn, State.classPart2]
    split
    · exact Firm.refl s
    · split
      · exact Firm.refl s
      · split
        · exact State.classOwn_firm s c _
        · exact Firm.refl s

theorem State.setBinding_firm (s : State) (n st : Nat) (b : Binding) (r : Record) : Firm s (s.setBinding n st b r) :=
  Firm.trans (t := s.update n st fun q => { q with binding := some b }) (FirmBut.update n st fun q _ => ⟨rfl, fun h _ => h⟩)
    (Firm.same (by simp [State.setBinding]) (by simp [State.setBinding]) (by simp [State.setBinding]))

theorem State.dropBinding_firm (s : State) (n st : Nat) (r : Record) : Firm s (s.dropBinding n st r) :=
  Firm.trans (t := s.update n st fun q => { q with binding := none }) (FirmBut.update n st fun q _ => ⟨rfl, fun h _ => h⟩)
    (Firm.same (by simp [State.dropBinding]) (by simp [State.dropBinding]) (by simp [State.dropBinding]))

theorem State.dropBindings_firm (s : State) (station first stamp : Nat) : Firm s (s.dropBindings station first stamp) := by
  refine Firm.foldl (fun t n => ?_) s.usedSlots s
  repeat' split
  · exact State.dropBinding_firm t n stamp _
  all_goals exact Firm.refl t

theorem State.kindChanged_firm (s : State) (n : Nat) (k : StationKind) : Firm s (s.kindChanged n k) := by
  have h1 : Firm s (({ s with cals := s.cals.erase n }).resetParting n k) :=
    (Quiet.cals s _).firm.trans (Quiet.parting _ _).firm
  unfold State.kindChanged
  dsimp only
  split
  · exact h1.trans (State.clearMark_firm _ _ _)
  · exact h1

theorem State.writeStation_firm (s : State) (n sender : Nat) (y : Station) : Firm s (s.writeStation n sender y) := by
  have h1 : Firm s (s.putStation n y) := Firm.same rfl rfl rfl
  have h2 : Firm s (if (s.stationAt n).kind = y.kind then s.putStation n y else (s.putStation n y).kindChanged n y.kind) := by
    split
    · exact h1
    · exact h1.trans (State.kindChanged_firm _ n y.kind)
  have h3 := fun (t : State) (ht : Firm s t) => show Firm s (match firstLost (s.stationAt n) y with
      | some c => t.dropBindings n c sender
      | none => t) by
    split
    · exact ht.trans (State.dropBindings_firm t n _ sender)
    · exact ht
  unfold State.writeStation
  dsimp only
  split
  · exact (h3 _ h2).trans (State.hand_firm _ _)
  · exact h3 _ h2

theorem State.certify_digKept {s : State} (hup : s.sys.phase = .up) {slot : Nat} {t : RecState} {r : Record}
    (hr : s.recAt slot = some r) (hrelied : ¬ (s.isLive slot r = true ∧ s.isRelied r.row = true ∧ t ≠ .locked))
    (sender cls : Nat) (freeOv bondOv cureEnd lockoff reason : Option Nat) :
    DigKept s (s.certify slot sender t cls freeOv bondOv cureEnd lockoff reason) := by
  have hlive : t ≠ .locked → s.isLive slot r = true → s.isRelied r.row = false := fun hne hl => by
    by_contra hn
    exact hrelied ⟨hl, by simpa using hn, hne⟩
  unfold State.certify
  dsimp only
  split
  · next e => exact fun ht _ hd => DigLaw.retireRecord hup hr (hlive (by rw [e]; nofun)) _ _ (fun _ => rfl) ht hd
  · next e =>
    have htbc : Firm (s.update slot sender (certifyFields t cls freeOv bondOv cureEnd lockoff))
      ((s.update slot sender (certifyFields t cls freeOv bondOv cureEnd lockoff)).untellOne (.record slot) .imageSuspect) :=
      Firm.same (by simp) (by simp) (by simp)
    by_cases hl : t = .locked
    · refine (Firm.trans (FirmBut.update (f := certifyFields t cls freeOv bondOv cureEnd lockoff) slot sender
        fun q _ => ⟨rfl, fun _ _ => .inl hl⟩) htbc).digKept
    · refine fun ht hw hd => (FirmBut.digLaw_slot (n := slot) (FirmBut.update
        (f := certifyFields t cls freeOv bondOv cureEnd lockoff) slot sender fun q _ => ⟨rfl, fun _ hn => absurd rfl hn⟩)
        (fun q hq => ?_) ht hd).congr (by simp) (by simp) (by simp)
      rw [hr] at hq; cases hq; exact hlive hl

theorem State.endCtx_firm {s : State} {c : Nat} {x : Context} (hx : s.ctxAt c = some x) : Firm s (s.endCtx c x) := by
  unfold State.endCtx
  split
  · exact State.winchEnd_firm hx _
  · exact State.groutEnd_firm hx _
  · exact State.releaseHeld_firm hx _ _ _ _
  · exact State.releaseHeld_firm hx _ _ _ _

theorem State.restrokeOwn_firm {s : State} {c : Nat} {x : Context} (hx : s.ctxAt c = some x) {p : JackProg}
    (hp : x.prog = .stress p) : Firm s (s.restrokeOwn c x p).st := by
  unfold State.restrokeOwn
  split
  · exact Firm.refl s
  split
  · exact Firm.refl s
  · refine (Quiet.spendFree s p).firm.trans (State.putCtx_firm (y := x) ?_ ?_)
    · rw [State.ctxAt, (Quiet.spendFree s p).contexts]; exact hx
    · simp only [Context.bond, hp]; rfl

theorem State.clearOwn_firm (s : State) (sender : Nat) (subj : Subject) (c : Cond) :
    Firm s (s.clearOwn sender subj c).st := by
  unfold State.clearOwn
  split
  · unfold State.named
    split
    · exact Firm.refl s
    · split
      · unfold State.clearRecord
        split
        · exact Firm.refl s
        · exact State.unraise_firm s _ _ _
      · exact Firm.refl s
  · split <;> exact Firm.refl s
  · exact State.clearMark_firm s _ _

theorem State.setTime_firm (s : State) (time : Nat) : Firm s (s.setTime time) := by
  refine Firm.trans ?_ (Firm.foldl (fun t n => State.expireCure_firm t n) _ _)
  exact Firm.same (by simp) (by simp) (by simp)

end Sys2Proof.Machine
end

section
/-! Every command but those of power and of the restore keeps the law of the dig (R39 to R45). -/

namespace Sys2Proof.Machine

/-! ## Requests in general (R7, R168, R169) -/

theorem State.take_digKept {s t : State} {h : Ask} {code : Nat} {v : Ruling} (ht : s.take h code v = .next t)
    (hv : s.sys.phase = .up → DigKept s v.st) : DigKept s t := by
  cases hk : s.takesAsk h with
  | true =>
    rw [State.take_taken hk] at ht
    cases ht
    have hup : s.busUp = true := (of_decide_eq_true hk).1
    exact fun htable hw hd => (hv (of_decide_eq_true hup).1 htable hw hd).congr (by simp) (by simp) (by simp)
  | false =>
    rw [State.take_missed hk] at ht
    cases ht
    exact (State.missAsk_firm s h).digKept

theorem State.screen_digKept {s : State} {h : Ask} {q : Req} {inRange : Bool} {v : Ruling}
    (hv : inRange = true → DigKept s v.st) : DigKept s (s.screen h q inRange v).st := by
  unfold State.screen
  split
  · exact DigKept.refl s
  · split
    · exact DigKept.refl s
    · next hr => exact hv (by simpa using hr)

theorem State.named_digKept {s : State} {n : Nat} {rev? : Option Nat} {own : Record → Ruling}
    (hown : ∀ r, s.recAt n = some r → DigKept s (own r).st) : DigKept s (s.named n rev? own).st := by
  unfold State.named
  split
  · exact DigKept.refl s
  · next hr =>
    split
    · exact hown _ hr
    · exact DigKept.refl s

theorem State.request_digKept {s t : State} {h : Ask} {q : Req} {inRange : Bool} {own : Ruling}
    (ht : s.request h q inRange own = .next t)
    (hown : inRange = true → s.sys.phase = .up → DigKept s own.st) : DigKept s t :=
  State.take_digKept ht fun hup => State.screen_digKept fun hr => hown hr hup

theorem State.requestOn_digKept {s t : State} {h : Ask} {q : Req} {inRange : Bool} {n : Nat} {rev? : Option Nat}
    {own : Record → Ruling} (ht : s.requestOn h q inRange n rev? own = .next t)
    (hown : ∀ r, s.recAt n = some r → s.sys.phase = .up → DigKept s (own r).st) : DigKept s t :=
  State.take_digKept ht fun hup => State.screen_digKept fun _ => State.named_digKept fun r hrec => hown r hrec hup

/-! ## Requests on records (chapter 1) -/

theorem execCreate_digKept {s t : State} {h : Ask} {row bay cls : Nat} {freeOv bondOv : Option Nat}
    (ht : execCreate h row bay cls freeOv bondOv s = .next t) : DigKept s t := by
  refine State.request_digKept ht fun hr hup => ?_
  obtain ⟨hrow, hbay, -⟩ := of_decide_eq_true hr
  exact State.createOwn_digKept hup cls freeOv bondOv (rowOk_bounds hrow).1 (bayOk_bounds hbay)

theorem execAmend_digKept {s t : State} {h : Ask} {slot rev : Nat} {cls : Option Nat} {freeOv bondOv : OverrideAction}
    (ht : execAmend h slot rev cls freeOv bondOv s = .next t) : DigKept s t := by
  refine State.requestOn_digKept ht fun r _ _ => ?_
  split
  · refine Firm.digKept (FirmBut.update _ _ fun q _ => ⟨rfl, fun hold _ => ?_⟩)
    exact hold
  · exact DigKept.refl s

theorem execBored_digKept {s t : State} {h : Ask} {slot rev : Nat} (ht : execBored h slot rev s = .next t) :
    DigKept s t := by
  refine State.requestOn_digKept ht fun r hr _ => ?_
  split
  · next hst =>
    refine Firm.digKept (FirmBut.update _ _ fun q hq => ⟨rfl, fun hold => ?_⟩)
    rw [hr] at hq; cases hq
    rw [Record.Holds, hst] at hold
    exact absurd hold nofun
  · exact DigKept.refl s

/-- A RETIRE or an ABANDON of a record that its check has not found live and relied (R44). -/
theorem retire_digKept {s : State} {slot : Nat} {r : Record} (hup : s.sys.phase = .up) (hr : s.recAt slot = some r)
    (hrelied : ¬ (s.isLive slot r = true ∧ s.isRelied r.row = true)) (st : Nat) (reason : RetireReason) :
    DigKept s (s.retireRecord slot st reason id) := fun ht _ hd =>
  DigLaw.retireRecord hup hr (fun hl => by simpa using fun h => hrelied ⟨hl, h⟩) st reason (fun _ => rfl) ht hd

theorem execRetire_digKept {s t : State} {h : Ask} {slot rev reason : Nat}
    (ht : execRetire h slot rev reason s = .next t) : DigKept s t := by
  refine State.requestOn_digKept ht fun r hr hup => ?_
  split
  · exact DigKept.refl s
  split
  · exact DigKept.refl s
  · next hrel => exact retire_digKept hup hr hrel _ _

theorem execPurge_digKept {s t : State} {h : Ask} {slot : Nat} (ht : execPurge h slot s = .next t) : DigKept s t := by
  refine State.requestOn_digKept ht fun r _ _ => ?_
  split
  · exact State.purge_digKept slot _
  · exact DigKept.refl s

theorem execCertify_digKept {s t : State} {h : Ask} {slot rev target cls : Nat}
    {freeOv bondOv cureEnd lockoff reason : Option Nat}
    (ht : execCertify h slot rev target cls freeOv bondOv cureEnd lockoff reason s = .next t) : DigKept s t := by
  refine State.requestOn_digKept ht fun r hr hup => ?_
  split
  · exact DigKept.refl s
  split
  · exact DigKept.refl s
  split
  · exact DigKept.refl s
  · next hrel => exact State.certify_digKept hup hr hrel _ _ _ _ _ _ _

/-! ## Requests on work contexts (chapter 3) -/

theorem execStart_digKept {s t : State} {h : Ask} {kind slot station rev : Nat}
    (ht : execStart h kind slot station rev s = .next t) : DigKept s t := by
  refine State.requestOn_digKept ht fun r hr hup => ?_
  split
  · exact DigKept.refl s
  · exact State.bindOwn_digKept hr hup _ _ _ _

theorem execResume_digKept {s t : State} {h : Ask} {slot rev : Nat} {station : Option Nat}
    (ht : execResume h slot rev station s = .next t) : DigKept s t := by
  refine State.requestOn_digKept ht fun r hr hup => ?_
  split
  · split
    · exact State.bindOwn_digKept hr hup _ _ _ _
    · exact DigKept.refl s
  · exact DigKept.refl s
  · exact DigKept.refl s

theorem execAbort_digKept {s t : State} {h : Ask} {slot : Nat} (ht : execAbort h slot s = .next t) : DigKept s t := by
  refine State.requestOn_digKept ht fun r _ _ => ?_
  split
  · next hc =>
    split
    · exact fun htable hw hd => (State.releaseHeld_firm (Table.get?_of_mem hw.1 (List.mem_of_find?_eq_some hc)) _ _ _ _).digKept
        htable hw hd
    · exact DigKept.refl s
  · exact DigKept.refl s

/-- A record that leaves HELD or FAILED stood in no relied row (R56). -/
theorem update_digKept_of_not_holds {s : State} {slot : Nat} {r : Record} (hr : s.recAt slot = some r) (hst : ¬ r.Holds)
    (st : Nat) {f : Record → Record} (hf : ∀ q, (f q).row = q.row) : DigKept s (s.update slot st f) := by
  refine Firm.digKept (FirmBut.update slot st fun q hq => ⟨hf q, fun hold => ?_⟩)
  rw [hr] at hq; cases hq
  exact absurd hold hst

theorem heldWith_not_holds {k : CtxKind} {r : Record} (h : heldWith k r = true) : ¬ r.Holds := by
  unfold Record.Holds
  rw [(of_decide_eq_true h).1]
  nofun

theorem not_holds_of_failed {r : Record} (h : r.state = .failed) : ¬ r.Holds := by
  unfold Record.Holds
  rw [h]
  nofun

theorem execCloseWithdraw_digKept {s t : State} {h : Ask} {slot rev : Nat} (ht : execCloseWithdraw h slot rev s = .next t) :
    DigKept s t := by
  refine State.requestOn_digKept ht fun r hr _ => ?_
  split
  · next hk => exact update_digKept_of_not_holds hr (heldWith_not_holds hk) _ fun _ => rfl
  · exact DigKept.refl s

theorem execCloseAccept_digKept {s t : State} {h : Ask} {slot rev : Nat} (ht : execCloseAccept h slot rev s = .next t) :
    DigKept s t := by
  refine State.requestOn_digKept ht fun r hr _ => ?_
  split
  · next hk =>
    split
    · exact DigKept.refl s
    · exact update_digKept_of_not_holds hr (heldWith_not_holds hk) _ fun _ => rfl
  · exact DigKept.refl s

theorem execCloseRestart_digKept {s t : State} {h : Ask} {slot rev : Nat} (ht : execCloseRestart h slot rev s = .next t) :
    DigKept s t := by
  refine State.requestOn_digKept ht fun r hr _ => ?_
  split
  · next hk => exact update_digKept_of_not_holds hr (heldWith_not_holds hk) _ fun _ => rfl
  · exact DigKept.refl s

theorem execCloseRetest_digKept {s t : State} {h : Ask} {slot rev : Nat} (ht : execCloseRetest h slot rev s = .next t) :
    DigKept s t := by
  refine State.requestOn_digKept ht fun r hr _ => ?_
  split
  · next hst =>
    split
    · exact DigKept.refl s
    · exact update_digKept_of_not_holds hr (not_holds_of_failed hst) _ fun _ => rfl
  · exact DigKept.refl s

theorem execCloseAbandon_digKept {s t : State} {h : Ask} {slot rev : Nat} (ht : execCloseAbandon h slot rev s = .next t) :
    DigKept s t := by
  refine State.requestOn_digKept ht fun r hr hup => ?_
  split
  · split
    · exact DigKept.refl s
    · next hrel => exact retire_digKept hup hr hrel _ _
  · exact DigKept.refl s

theorem execEndWork_digKept {s t : State} {h : Ask} (ht : execEndWork h s = .next t) : DigKept s t := by
  refine State.request_digKept ht fun _ _ => ?_
  split
  · exact DigKept.refl s
  · split
    · exact DigKept.refl s
    · next hx => exact (State.endCtx_firm hx).digKept

theorem execRestroke_digKept {s t : State} {h : Ask} (ht : execRestroke h s = .next t) : DigKept s t := by
  refine State.request_digKept ht fun _ _ => ?_
  split
  · exact DigKept.refl s
  · split
    · next hx =>
      split
      · next hp => exact (State.restrokeOwn_firm hx hp).digKept
      · exact DigKept.refl s
    · exact DigKept.refl s

/-! ## Requests on the site, the stations and the inputs (chapters 2, 5, 7, 8 and 9) -/

theorem execClassWritePart1_digKept {s t : State} {h : Ask} {cls : Nat} {part : ClassPart1}
    (ht : execClassWritePart1 h cls part s = .next t) : DigKept s t := by
  refine State.take_digKept ht fun _ => State.screen_digKept fun _ => Firm.digKept ?_
  exact FirmBut.of_slots rfl rfl ⟨rfl, rfl⟩ rfl (CtxsFrom.refl s)

theorem execSiteWrite_digKept {s t : State} {h : Ask} {items : SiteItems} (ht : execSiteWrite h items s = .next t) :
    DigKept s t := by
  refine State.request_digKept ht fun _ _ => ?_
  unfold State.siteOwn
  split
  · exact DigKept.refl s
  split
  · exact DigKept.refl s
  · exact (State.siteApply_firm s items).digKept

theorem execDigSet_digKept {s t : State} {h : Ask} {row : Nat} (ht : execDigSet h row s = .next t) : DigKept s t := by
  refine State.request_digKept ht fun _ _ => ?_
  split
  · exact DigKept.refl s
  · next hn => exact fun _ _ hd => hd.setDig (by omega) (State.setDig_sys s row)

theorem execRelieveSet_digKept {s t : State} {h : Ask} {row : Nat} (ht : execRelieveSet h row s = .next t) :
    DigKept s t :=
  State.request_digKept ht fun hr _ htable _ hd => hd.setRelieved htable (rowOk_bounds hr) nofun (State.setRelieved_sys s _ _)

theorem execRelieveClear_digKept {s t : State} {h : Ask} {row : Nat} (ht : execRelieveClear h row s = .next t) :
    DigKept s t := by
  refine State.request_digKept ht fun hr _ => ?_
  split
  · exact DigKept.refl s
  split
  · exact DigKept.refl s
  split
  · exact DigKept.refl s
  · next hd hx =>
    exact fun htable _ hlaw => hlaw.setRelieved htable (rowOk_bounds hr)
      (fun _ => ⟨fun hle => by simpa using fun e => hd ⟨hle, e⟩, by simpa using hx⟩) (State.setRelieved_sys s _ _)

theorem execCalWrite_digKept {s t : State} {h : Ask} {station : Nat} {points : Option (List CalPoint)}
    (ht : execCalWrite h station points s = .next t) : DigKept s t := by
  refine State.request_digKept ht fun _ _ => ?_
  split
  · exact DigKept.refl s
  split
  · exact DigKept.refl s
  · unfold State.setCal
    split
    · exact DigKept.refl s
    · exact ((Quiet.cals s _).firm.trans (State.hand_firm _ _)).digKept

theorem execBind_digKept {s t : State} {h : Ask} {slot rev station channel : Nat}
    (ht : execBind h slot rev station channel s = .next t) : DigKept s t := by
  refine State.requestOn_digKept ht fun r _ _ => ?_
  dsimp only
  split
  · exact DigKept.refl s
  split
  · exact DigKept.refl s
  split
  · exact DigKept.refl s
  split
  · exact DigKept.refl s
  split
  · exact DigKept.refl s
  · exact (State.setBinding_firm s slot _ _ r).digKept

theorem execUnbind_digKept {s t : State} {h : Ask} {slot rev : Nat} (ht : execUnbind h slot rev s = .next t) :
    DigKept s t := by
  refine State.requestOn_digKept ht fun r _ _ => ?_
  split
  · exact DigKept.refl s
  · exact (State.dropBinding_firm s slot _ r).digKept

theorem execClear_digKept {s t : State} {h : Ask} {kind ident cond : Nat} (ht : execClear h kind ident cond s = .next t) :
    DigKept s t := by
  refine State.request_digKept ht fun _ _ => ?_
  split
  · exact (State.clearOwn_firm s _ _ _).digKept
  · exact DigKept.refl s

theorem execTimeSet_digKept {s t : State} {h : Ask} {time : Nat} (ht : execTimeSet h time s = .next t) : DigKept s t := by
  refine State.request_digKept ht fun _ _ => ?_
  split
  · exact DigKept.refl s
  split
  · exact DigKept.refl s
  · exact (State.setTime_firm s time).digKept

theorem execRelease_digKept {s t : State} {h : Ask} (ht : execRelease h s = .next t) : DigKept s t := by
  refine State.take_digKept ht fun _ => State.screen_digKept fun _ => ?_
  unfold State.releaseOwn
  repeat' split
  · exact DigKept.refl s
  · exact DigKept.refl s
  · exact DigKept.refl s
  · exact ((State.endStop_bonds s).firm rfl).digKept

theorem execStationWrite_digKept {s t : State} {h : Ask} {station : Nat} {kind retry : Option Nat}
    {inhibits : Option Inhibits} {param : Option Nat}
    (ht : execStationWrite h station kind retry inhibits param s = .next t) : DigKept s t := by
  refine State.request_digKept ht fun _ _ => ?_
  unfold State.stationOwn
  split
  · exact DigKept.refl s
  split
  · exact DigKept.refl s
  · exact (State.writeStation_firm s _ _ _).digKept

theorem execLineWrite_digKept {s t : State} {h : Ask} {line : Nat} {state timeout gap : Option Nat}
    (ht : execLineWrite h line state timeout gap s = .next t) : DigKept s t := by
  refine State.request_digKept ht fun _ _ => ?_
  unfold State.lineOwn
  dsimp only
  split
  · exact DigKept.refl s
  split
  · exact DigKept.refl s
  · exact (Firm.same (State.putLine_tbc ..) (State.putLine_cxp ..) (State.putLine_sys ..)).digKept

theorem execLineWriteTest_digKept {s t : State} {h : Ask} {line : Nat} {pattern : Vector Byte 16} {count : Nat}
    (ht : execLineWriteTest h line pattern count s = .next t) : DigKept s t := by
  refine State.request_digKept ht fun _ _ => ?_
  unfold State.testOwn
  split
  · exact DigKept.refl s
  split
  · exact DigKept.refl s
  · exact (Firm.same (State.putLine_tbc ..) (State.putLine_cxp ..) (State.putLine_sys ..)).digKept

theorem execAttentionRead_digKept {s t : State} {h : Ask} {start : Nat} {reset : Bool}
    (ht : execAttentionRead h start reset s = .next t) : DigKept s t := by
  refine State.request_digKept ht fun _ _ => ?_
  cases reset
  · exact DigKept.refl s
  · refine Firm.digKept ?_
    exact Firm.same rfl rfl rfl

theorem execFind_digKept {s t : State} {h : Ask} {target : Target} {view : Nat} (ht : execFind h target view s = .next t) :
    DigKept s t := by
  refine State.request_digKept ht fun _ _ => ?_
  repeat' split
  all_goals exact DigKept.refl s

theorem execUnknownRequest_digKept {s t : State} {h : Ask} {code : Nat} {d : AskDefect}
    (ht : execUnknownRequest h code d s = .next t) : DigKept s t := by
  refine State.take_digKept ht fun _ => ?_
  dsimp only
  unfold State.defectOwn
  repeat' split
  all_goals exact DigKept.refl s

/-! ## Events -/

theorem execScanStart_digKept {s t : State} (ht : execScanStart s = .next t) : DigKept s t := by
  unfold execScanStart at ht
  split at ht <;> cases ht
  · refine Firm.digKept ?_
    exact Firm.same (by simp [State.beginScan]) (by simp [State.beginScan]) (by simp [State.beginScan])
  · exact DigKept.refl s

theorem execCall_digKept {s t : State} (ht : execCall s = .next t) : DigKept s t := by
  unfold execCall at ht
  repeat' split at ht
  all_goals cases ht
  · exact (Firm.same (by simp [State.sendCall]) (by simp [State.sendCall]) (by simp [State.sendCall])).digKept
  · exact (State.moveTurn_firm s).digKept
  · exact DigKept.refl s
  · exact DigKept.refl s

theorem execFetch_digKept {s t : State} (ht : execFetch s = .next t) : DigKept s t := by
  unfold execFetch at ht
  repeat' split at ht
  all_goals cases ht
  · exact (Firm.same (by simp [State.sendFetch]) (by simp [State.sendFetch]) (by simp [State.sendFetch])).digKept
  · exact (State.moveTurn_firm s).digKept
  all_goals exact DigKept.refl s

theorem execReplyReceived_digKept {s t : State} {station : Nat} {line : LineId} {r : Reply}
    (ht : execReplyReceived station line r s = .next t) : DigKept s t := by
  unfold execReplyReceived at ht
  repeat' split at ht
  all_goals cases ht
  · exact State.replyAlone_digKept s _ _ _
  · exact DigKept.refl s
  · exact State.replyInWindow_digKept s _ _ _
  · exact (State.windowFailed_firm s _).digKept
  · exact (State.windowFailed_firm s _).digKept
  all_goals exact DigKept.refl s

theorem execAnswerEnd_digKept {s t : State} (ht : execAnswerEnd s = .next t) : DigKept s t := fun htable hw => by
  unfold execAnswerEnd at ht
  split at ht <;> cases ht
  · have h0 : Firm s (s.setExchange .idle) := Firm.same rfl rfl rfl
    exact (h0.trans (State.answerEnded_firm (s.setExchange .idle) hw.1 _ _)).digKept htable hw
  · exact DigKept.refl s htable hw

theorem execNoiseReception_digKept {s t : State} {line : LineId} (ht : execNoiseReception line s = .next t) :
    DigKept s t := by
  unfold execNoiseReception at ht
  split at ht <;> cases ht
  · exact DigKept.refl s
  · exact (Firm.same (by simp) (by simp) (by simp)).digKept

theorem execAllstop_digKept {s t : State} {line : LineId} (ht : execAllstop line s = .next t) : DigKept s t := by
  unfold execAllstop at ht
  split at ht <;> cases ht
  · exact (Firm.same (by simp) (by simp) (by simp)).digKept
  · exact DigKept.refl s

theorem execTestPatternCopy_digKept {s t : State} {line : LineId} {received : List Byte}
    (ht : execTestPatternCopy line received s = .next t) : DigKept s t := by
  unfold execTestPatternCopy at ht
  repeat' split at ht
  all_goals cases ht
  · exact (State.copyEnded_firm s _ _).digKept
  all_goals exact DigKept.refl s

theorem execRealSecond_digKept {s t : State} (ht : execRealSecond s = .next t) : DigKept s t := by
  cases ht
  have h1 : Firm s { s with wck := { s.wck with time := s.wck.next } } := Firm.same rfl rfl rfl
  refine (h1.trans ((BondsKept.eachCtx _ fun x => ?_).firm rfl)).digKept
  exact Context.second_bond x _ _ _ _

theorem execSuspendLimitReached_digKept {s t : State} {ctx : Nat} (ht : execSuspendLimitReached ctx s = .next t) :
    DigKept s t := by
  unfold execSuspendLimitReached at ht
  repeat' split at ht
  all_goals cases ht
  · next hx _ => exact (State.releaseHeld_firm hx _ _ _ _).digKept
  all_goals exact DigKept.refl s

theorem execPhaseTimerExpiry_digKept {s t : State} {ctx : Nat} (ht : execPhaseTimerExpiry ctx s = .next t) :
    DigKept s t := by
  unfold execPhaseTimerExpiry at ht
  split at ht <;> cases ht
  · next hx => exact State.expireTimer_digKept hx
  · exact DigKept.refl s

theorem execRefusalCompletion_digKept {s t : State} {ctx : Nat} (ht : execRefusalCompletion ctx s = .next t) :
    DigKept s t := by
  unfold execRefusalCompletion at ht
  split at ht <;> cases ht
  · next hx => exact (State.completeRefusal_firm hx).digKept
  · exact DigKept.refl s

theorem execCureExpiry_digKept {s t : State} {slot : Nat} (ht : execCureExpiry slot s = .next t) : DigKept s t := by
  unfold execCureExpiry at ht
  split at ht <;> cases ht
  · exact (State.expireCure_firm s slot).digKept
  · exact DigKept.refl s

theorem execKeyTimerExpiry_digKept {s t : State} (ht : execKeyTimerExpiry s = .next t) : DigKept s t :=
  fun htable hw => by
  unfold execKeyTimerExpiry at ht
  split at ht
  · split at ht <;> cases ht
    · exact (Firm.same (by simp) (by simp) (by simp)).digKept htable hw
    · exact (State.cabinetRestart_firm s hw.1).digKept htable hw
  · cases ht; exact DigKept.refl s htable hw

theorem State.changeInputs_firm (s : State) (v : Vector Input 4) : Firm s (s.changeInputs v) :=
  (State.changeInputs_bonds s v).firm (by simp)

theorem execFilterSample_digKept {s t : State} {input : Fin 4} (ht : execFilterSample input s = .next t) :
    DigKept s t := by
  unfold execFilterSample at ht
  split at ht <;> cases ht
  · exact (State.changeInputs_firm s _).digKept
  · exact DigKept.refl s

theorem execPinChange_digKept {s t : State} {input : Fin 4} {level : Contact} (ht : execPinChange input level s = .next t) :
    DigKept s t := by
  unfold execPinChange at ht
  dsimp only at ht
  split at ht <;> cases ht
  · exact (State.changeInputs_firm s _).digKept
  · exact (Firm.same rfl rfl rfl).digKept

theorem State.takeItem_firm (s : State) : Firm s s.takeItem := Firm.same (by simp) (by simp) (by simp)

theorem execBlockWriteAck_digKept {s t : State} (ht : execBlockWriteAck s = .next t) : DigKept s t := by
  unfold execBlockWriteAck at ht
  split at ht <;> cases ht
  · exact (State.ackBlock_firm s _ _ _ _).digKept
  · exact DigKept.refl s

theorem execBlockWriteTimeout_digKept {s t : State} {left : Remnant} (ht : execBlockWriteTimeout left s = .next t) :
    DigKept s t := by
  unfold execBlockWriteTimeout at ht
  split at ht <;> cases ht
  · exact (State.failBlock_firm s _ _ _ _).digKept
  · exact DigKept.refl s

theorem execWriterWaitEnd_digKept {s t : State} (ht : execWriterWaitEnd s = .next t) : DigKept s t := by
  unfold execWriterWaitEnd at ht
  split at ht <;> cases ht
  · exact ((Firm.isi s { s.isi with writer := .idle }).trans (State.takeItem_firm _)).digKept
  · exact DigKept.refl s

/-- Every command but those of power and of the restore keeps the law of the dig. -/
theorem exec_digKept {c : Instr} {s t : State} (hc : isStartUp c = false) (ht : exec c s = .next t) : DigKept s t := by
  cases c with
  | find => exact execFind_digKept ht
  | create => exact execCreate_digKept ht
  | amend => exact execAmend_digKept ht
  | bored => exact execBored_digKept ht
  | retire => exact execRetire_digKept ht
  | replace => exact State.requestOn_digKept ht fun r _ _ => State.replaceOwn_digKept _ _ r
  | purge => exact execPurge_digKept ht
  | certify => exact execCertify_digKept ht
  | start => exact execStart_digKept ht
  | begin => exact State.request_digKept ht fun _ hup => State.beginOwn_digKept hup _ _ _
  | abort => exact execAbort_digKept ht
  | resume => exact execResume_digKept ht
  | closeWithdraw => exact execCloseWithdraw_digKept ht
  | closeAccept => exact execCloseAccept_digKept ht
  | closeRestart => exact execCloseRestart_digKept ht
  | closeRetest => exact execCloseRetest_digKept ht
  | closeAbandon => exact execCloseAbandon_digKept ht
  | endWork => exact execEndWork_digKept ht
  | restroke => exact execRestroke_digKept ht
  | classWrite => exact State.take_digKept ht fun _ => State.screen_digKept fun _ => (State.classFormOwn_firm s _ _).digKept
  | classWritePart1 => exact execClassWritePart1_digKept ht
  | classRead | calRead => exact State.take_digKept ht fun _ => State.screen_digKept fun _ => DigKept.refl s
  | siteWrite => exact execSiteWrite_digKept ht
  | list | siteRead | digQuery | inputRead | restart | stationRead | lineRead =>
    exact State.request_digKept ht fun _ _ => DigKept.refl s
  | digSet => exact execDigSet_digKept ht
  | relieveSet => exact execRelieveSet_digKept ht
  | relieveClear => exact execRelieveClear_digKept ht
  | calWrite => exact execCalWrite_digKept ht
  | bind => exact execBind_digKept ht
  | unbind => exact execUnbind_digKept ht
  | clear => exact execClear_digKept ht
  | attentionRead => exact execAttentionRead_digKept ht
  | timeSet => exact execTimeSet_digKept ht
  | release => exact execRelease_digKept ht
  | stationWrite => exact execStationWrite_digKept ht
  | lineWrite => exact execLineWrite_digKept ht
  | lineWriteTest => exact execLineWriteTest_digKept ht
  | unknownRequest => exact execUnknownRequest_digKept ht
  | scanStart => exact execScanStart_digKept ht
  | call => exact execCall_digKept ht
  | replyReceived => exact execReplyReceived_digKept ht
  | replyWindowTimeout | badFrame => cases ht; exact (State.windowFailed_firm s _).digKept
  | fetch => exact execFetch_digKept ht
  | answerEnd => exact execAnswerEnd_digKept ht
  | noiseReception => exact execNoiseReception_digKept ht
  | allstop => exact execAllstop_digKept ht
  | testPatternCopy => exact execTestPatternCopy_digKept ht
  | realSecond => exact execRealSecond_digKept ht
  | suspendLimitReached => exact execSuspendLimitReached_digKept ht
  | phaseTimerExpiry => exact execPhaseTimerExpiry_digKept ht
  | refusalCompletion => exact execRefusalCompletion_digKept ht
  | cureExpiry => exact execCureExpiry_digKept ht
  | keyTimerExpiry => exact execKeyTimerExpiry_digKept ht
  | filterSample => exact execFilterSample_digKept ht
  | pinChange => exact execPinChange_digKept ht
  | writerTakeItem => cases ht; exact (State.takeItem_firm s).digKept
  | blockWriteAck => exact execBlockWriteAck_digKept ht
  | blockWriteTimeout => exact execBlockWriteTimeout_digKept ht
  | writerWaitEnd => exact execWriterWaitEnd_digKept ht
  | rstAssert | rstNegate | powerOn | headerRestored | restoreComplete => cases hc

end Sys2Proof.Machine
end

section
/-! The channel map that a restore builds (R128, R179). -/

namespace Sys2Proof.Machine

/-! ## Bindings of the record blocks (R178) -/

/-- A monitor binding names a channel 0 to 7 of a station 1 to 15 (R128). -/
def Binding.InRange (b : Binding) : Prop := 1 ≤ b.station ∧ b.station ≤ 15 ∧ b.channel ≤ 7

/-- What a block gives is bound to a channel in range, if to any. -/
def Taken.Bound : Taken → Prop
  | .sound _ r _ => ∀ b, r.binding = some b → b.InRange
  | _ => True

theorem takeFailed_bound (bs : List Byte) : (takeFailed bs).Bound := by
  unfold takeFailed
  dsimp only
  split <;> trivial

theorem Record.inRange_binding {r : Record} (h : r.inRange = true) {b : Binding} (hb : r.binding = some b) : b.InRange := by
  obtain ⟨-, -, -, -, -, -, -, -, -, -, -, -, hbind, -⟩ := of_decide_eq_true h
  rw [hb] at hbind
  obtain ⟨h1, h2, h3⟩ : 1 ≤ b.station ∧ b.station < 16 ∧ b.channel < 8 := by simpa [optOk] using hbind
  exact ⟨h1, Nat.le_of_lt_succ h2, Nat.le_of_lt_succ h3⟩

theorem takePassed_bound (bs : List Byte) : (takePassed bs).Bound := by
  unfold takePassed
  split
  · split
    · split
      · next h => exact fun b hb => Record.inRange_binding h.1 hb
      · exact takeFailed_bound bs
    · exact takeFailed_bound bs
  · trivial
  · exact takeFailed_bound bs

theorem Isi.blocks_bound (i : Isi) (undelivered : List Nat) : ∀ x ∈ i.blocks undelivered, x.2.Bound := by
  intro x hx
  obtain ⟨n, -, rfl⟩ := List.mem_map.1 hx
  dsimp only
  unfold Isi.takeAt takeBlock
  split
  · exact takeFailed_bound _
  · split
    · exact takeFailed_bound _
    · exact takePassed_bound _

/-- Every record of a table is bound to a channel in range, if to any. -/
def SlotsBound (t : Table Slot) : Prop :=
  ∀ x ∈ t, ∀ r b, x.2.rec? = some r → r.binding = some b → b.InRange

theorem restoredSlots_bound {bs : List (Nat × Taken)} (h : ∀ x ∈ bs, x.2.Bound) (time : Nat) :
    SlotsBound (restoredSlots bs time) := by
  rintro ⟨n, z⟩ hz r b hr hb
  obtain ⟨k, hk, rfl⟩ := mem_restoredSlots hz
  have hbound := h _ hk
  cases k with
  | free rev => cases hr
  | sound rev q live =>
    simp only [slotOf] at hr
    split at hr <;> cases hr
    exact hbound b hb
  | suspect row bay gen =>
    simp only [slotOf] at hr
    split at hr <;> cases hr
    cases hb

/-! ## Corrected bindings (R179) -/

/-- A binding that stays is one in range, of a LOCKED record, to a channel that no lower slot holds. -/
theorem correctedSlot_binding {t : Table Slot} {stations : Vector Station 16} {channels : Table Nat} {time : Nat} {x : Slot}
    (hx : ∀ r b, x.rec? = some r → r.binding = some b → b.InRange) {q : Record} {b : Binding}
    (hq : (correctedSlot t stations channels time x).rec? = some q) (hb : q.binding = some b) :
    q.state = .locked ∧ b.InRange ∧ channels.get? (channelKey b) = none := by
  have hstays : ∀ r, x.rec? = some r → (corrected t stations channels r).binding = some b →
      (corrected t stations channels r).state = .locked ∧ b.InRange ∧ channels.get? (channelKey b) = none := by
    intro r hr hbind
    obtain ⟨hrb, hgood⟩ := Option.filter_eq_some_iff.1 hbind
    obtain ⟨hst, -, hfree⟩ := of_decide_eq_true hgood
    refine ⟨?_, hx r b hr hrb, Option.isNone_iff_eq_none.1 hfree⟩
    have hout : outOfWork r = r := by unfold outOfWork; rw [hst]; rfl
    show (outOfWork r).state = .locked
    rw [hout, hst]
  unfold correctedSlot at hq
  split at hq
  · next hnone => rw [hnone] at hq; cases hq
  · next r hr =>
    dsimp only at hq
    split at hq
    · next e =>
      rw [hr] at hq; cases hq
      have := hstays q hr (by rw [e]; exact hb)
      rwa [e] at this
    · cases hq
      exact hstays r hr hb

/-- A map of channels holds what another one holds. -/
def ChannelsIn (ch ch' : Table Nat) : Prop := ∀ key n, ch.get? key = some n → ch'.get? key = some n

/-- A slot whose binding, if any, is to a free channel comes to hold it, and the map keeps its other channels. -/
theorem withChannel_spec {channels : Table Nat} {y : Slot}
    (hfree : ∀ q b, y.rec? = some q → q.binding = some b → channels.get? (channelKey b) = none) (m : Nat) :
    ChannelsIn channels (withChannel channels m y) ∧
      (∀ q b, y.rec? = some q → q.binding = some b → (withChannel channels m y).get? (channelKey b) = some m) ∧
      ∀ key n, (withChannel channels m y).get? key = some n → channels.get? key = some n ∨
        n = m ∧ ∃ q b, y.rec? = some q ∧ q.binding = some b ∧ channelKey b = key := by
  unfold withChannel
  cases hb : y.rec?.bind Record.binding with
  | none =>
    refine ⟨fun _ _ h => h, fun q b hq hqb => ?_, fun _ _ h => .inl h⟩
    rw [hq, Option.bind_some, hqb] at hb; cases hb
  | some b =>
    obtain ⟨q, hq, hqb⟩ := Option.bind_eq_some_iff.1 hb
    refine ⟨fun key n hk => ?_, fun q' b' hq' hqb' => ?_, fun key n hk => ?_⟩
    · have hne : key ≠ channelKey b := fun e => by rw [e, hfree q b hq hqb] at hk; cases hk
      rw [Table.get?_put_ne _ _ _ _ hne, hk]
    · rw [hq] at hq'; cases hq'
      rw [hqb] at hqb'; cases hqb'
      exact Table.get?_put_same ..
    · by_cases e : key = channelKey b
      · subst e
        rw [Table.get?_put_same] at hk; cases hk
        exact .inr ⟨rfl, q, b, hq, hqb, rfl⟩
      · rw [Table.get?_put_ne _ _ _ _ e] at hk; exact .inl hk

/-- The channels of a table and its records agree, but for those of `old`. -/
structure ChannelsAgree (old : Table Nat) (slots : Table Slot) (ch : Table Nat) : Prop where
  keeps : ChannelsIn old ch
  bound : ∀ p ∈ slots, ∀ q b, p.2.rec? = some q → q.binding = some b →
    q.state = .locked ∧ b.InRange ∧ ch.get? (channelKey b) = some p.1
  named : ∀ key n, ch.get? key = some n → old.get? key = some n ∨
    ∃ p ∈ slots, ∃ q b, p.1 = n ∧ p.2.rec? = some q ∧ q.binding = some b ∧ channelKey b = key

/-- One more slot ahead of those that agree. -/
theorem ChannelsAgree.cons {old ch : Table Nat} {slots : Table Slot} {m : Nat} {y : Slot}
    (hy : ∀ q b, y.rec? = some q → q.binding = some b → q.state = .locked ∧ b.InRange ∧ old.get? (channelKey b) = none)
    (h : ChannelsAgree (withChannel old m y) slots ch) : ChannelsAgree old ((m, y) :: slots) ch := by
  obtain ⟨k1, k2, k3⟩ := withChannel_spec (fun q b hq hb => (hy q b hq hb).2.2) m
  refine ⟨fun key n hk => h.keeps key n (k1 key n hk), fun p hp q b hq hb => ?_, fun key n hk => ?_⟩
  · rcases List.mem_cons.1 hp with rfl | hp
    · obtain ⟨h1, h2, -⟩ := hy q b hq hb
      exact ⟨h1, h2, h.keeps _ _ (k2 q b hq hb)⟩
    · exact h.bound p hp q b hq hb
  · rcases h.named key n hk with hk | ⟨p, hp, hrest⟩
    · exact (k3 key n hk).imp id fun ⟨e, q, b, hq, hb, hkey⟩ => ⟨(m, y), List.mem_cons_self, q, b, e.symm, hq, hb, hkey⟩
    · exact .inr ⟨p, List.mem_cons_of_mem _ hp, hrest⟩

/-- The corrected records and the channel map built with them agree (R179). -/
theorem correctAll_channels (t : Table Slot) (stations : Vector Station 16) (time : Nat) (rest : Table Slot)
    (hbound : SlotsBound rest) (channels : Table Nat) : ChannelsAgree channels
      (correctAll t stations time rest channels).1 (correctAll t stations time rest channels).2 := by
  induction rest generalizing channels with
  | nil => exact ⟨fun _ _ h => h, fun p hp => absurd hp List.not_mem_nil, fun _ _ h => .inl h⟩
  | cons x rest ih =>
    obtain ⟨m, x⟩ := x
    have hx : ∀ r b, x.rec? = some r → r.binding = some b → b.InRange := hbound (m, x) List.mem_cons_self
    have hrest : SlotsBound rest := fun p hp => hbound p (List.mem_cons_of_mem _ hp)
    rw [correctAll]
    exact ChannelsAgree.cons (fun q b => correctedSlot_binding hx) (ih hrest _)

/-- The restored records and the channel map built of them agree (R128). -/
theorem channelLaw_of_restored {s : State} {stations : Vector Station 16} {bs : List (Nat × Taken)} {time : Nat}
    (hbs : BlocksSound bs) (hbound : ∀ x ∈ bs, x.2.Bound)
    (hslots : s.tbc.slots = restoredTable stations bs time)
    (hch : s.channels = (correctAll (restoredSlots bs time) stations time (restoredSlots bs time) []).2) :
    ChannelLaw s := by
  have hagree := correctAll_channels (restoredSlots bs time) stations time (restoredSlots bs time)
    (restoredSlots_bound hbound time) []
  have hwf := restoredTable_wf hbs stations time
  have hrec : ∀ n r, s.recAt n = some r ↔ ∃ z, (n, z) ∈ restoredTable stations bs time ∧ z.rec? = some r := fun n r => by
    rw [State.recAt_eq_recIn, hslots]; exact recIn_eq_some hwf
  rw [← hch] at hagree
  refine ⟨fun n r b hr hb => ?_, fun key n hk => ?_⟩
  · obtain ⟨z, hz, hzr⟩ := (hrec n r).1 hr
    obtain ⟨k1, ⟨k2, k3, k4⟩, k5⟩ := hagree.bound (n, z) hz r b hzr hb
    exact ⟨k1, k2, k3, k4, k5⟩
  · rcases hagree.named key n hk with hk | ⟨⟨m, z⟩, hz, q, b, rfl, hq, hb, hkey⟩
    · cases hk
    · exact ⟨q, b, (hrec m q).2 ⟨z, hz, hq⟩, hb, hkey⟩

end Sys2Proof.Machine
end

section
/-! The commands of power and of the restore, and what one step keeps of the exclusion, the dig and the channels (R36 to R45,
R128 to R130, R151, R176 to R180). -/

namespace Sys2Proof.Machine

/-- Exclusion, dig and channels are kept between two states, where table and work agree before. -/
def ArrangementKept (s t : State) : Prop := TableLaw s → WorkLaw s →
  (ExclusionLaw s → ExclusionLaw t) ∧ (DigLaw s → DigLaw t) ∧ (ChannelLaw s → ChannelLaw t)

theorem ArrangementKept.refl (s : State) : ArrangementKept s s := fun _ _ => ⟨id, id, id⟩

/-- What is made of moves and keeps the dig. -/
theorem Moves.arrangement {s t : State} (hm : Moves (WorkLaw s) s t) (hd : DigKept s t) : ArrangementKept s t :=
  fun ht hw => by
  refine ⟨fun hx => ?_, hd ht hw, fun hc => ?_⟩
  · exact (hm.keep (fun u => TableLaw u ∧ WorkLaw u ∧ ExclusionLaw u)
      (fun _ _ h hs => ⟨h.table hs.1, h.work hw hs.1 hs.2.1, h.exclusion hs.1 hs.2.1 hs.2.2⟩) ⟨ht, hw, hx⟩).2.2
  · exact (hm.keep (fun u => TableLaw u ∧ WorkLaw u ∧ ChannelLaw u)
      (fun _ _ h hs => ⟨h.table hs.1, h.work hw hs.1 hs.2.1, h.channels hw hs.2.1 hs.2.2⟩) ⟨ht, hw, hc⟩).2.2

/-! ## States without work and live records -/

theorem ExclusionLaw.idle {t : State} (h : t.cxp.contexts = []) : ExclusionLaw t := fun c d x y r q _ hx => by
  rw [State.ctxAt, h] at hx; cases hx

theorem DigLaw.idle {t : State} (hmap : t.tbc.map = []) (hctx : t.cxp.contexts = []) : DigLaw t := by
  refine ⟨fun row bay n r _ _ _ _ _ hl => ?_, fun c x r hx => ?_, fun _ => hmap⟩
  · rw [State.liveAt, hmap] at hl; cases hl
  · rw [State.ctxAt, hctx] at hx; cases hx

theorem ChannelLaw.idle {t : State} (hslots : t.tbc.slots = []) (hch : t.channels = []) : ChannelLaw t := by
  refine ⟨fun n r b hr => ?_, fun key n hk => ?_⟩
  · rw [State.recAt_eq_recIn, hslots] at hr; cases hr
  · rw [hch] at hk; cases hk

theorem ArrangementKept.cleared {s t : State} (h : Cleared t) (hch : t.channels = []) : ArrangementKept s t :=
  fun _ _ => ⟨fun _ => ExclusionLaw.idle h.contexts, fun _ => DigLaw.idle h.map h.contexts,
    fun _ => ChannelLaw.idle h.slots hch⟩

theorem ArrangementKept.setRst (s : State) (on : Bool) : ArrangementKept s (s.setRst on) := fun _ _ => ⟨id, id, id⟩

theorem ArrangementKept.restartInputs (s : State) : ArrangementKept s s.restartInputs :=
  Moves.arrangement (.single .restartInputs) ((State.restartInputs_bonds s).firm (by simp)).digKept

/-- Two changes in a row, the first of which keeps table and work. -/
theorem ArrangementKept.then {s t u : State} (h : ArrangementKept s t) (hk : Kept s t) (k : ArrangementKept t u) :
    ArrangementKept s u := fun ht hw => by
  obtain ⟨h1, h2, h3⟩ := h ht hw
  obtain ⟨k1, k2, k3⟩ := k (hk.laws ht hw).1 (hk.laws ht hw).2
  exact ⟨k1 ∘ h1, k2 ∘ h2, k3 ∘ h3⟩

/-! ## Power-on and RST (R151, R176) -/

theorem ArrangementKept.powerStart (s : State) (mode : StartMode) : ArrangementKept s (s.powerStart mode) := by
  have hempty : ∀ mode, ArrangementKept s (s.unpowered.startEmpty mode) := fun mode ht hw => by
    have hclear : Cleared (s.unpowered.emptyStart mode) := ⟨rfl, rfl, rfl, rfl, rfl⟩
    obtain ⟨h1, h2, h3⟩ := ArrangementKept.cleared (s := s) hclear rfl ht hw
    obtain ⟨k1, k2, k3⟩ := ArrangementKept.restartInputs (s.unpowered.emptyStart mode) hclear.table hclear.work
    exact ⟨k1 ∘ h1, k2 ∘ h2, k3 ∘ h3⟩
  cases mode with
  | restore => exact ArrangementKept.cleared ⟨rfl, rfl, rfl, rfl, rfl⟩ rfl
  | fresh => exact hempty _
  | commission => exact hempty _

theorem ArrangementKept.execPowerOn {md1 md0 : Bool} {left : Remnant} {s t : State}
    (ht : execPowerOn md1 md0 left s = .next t) : ArrangementKept s t := by
  have hoff : ArrangementKept s (s.repower left) := ArrangementKept.cleared (Cleared.unpowered _) rfl
  unfold Machine.execPowerOn at ht
  split at ht <;> cases ht
  · exact hoff
  · exact hoff.then (Kept.repower s left) (ArrangementKept.powerStart _ _)

theorem ArrangementKept.execRstAssert {s t : State} (ht : execRstAssert s = .next t) : ArrangementKept s t := by
  unfold Machine.execRstAssert at ht
  split at ht
  · cases ht; exact ArrangementKept.refl s
  · split at ht <;> cases ht
    · exact (Moves.arrangement (State.restartCore_moves s fun hw : WorkLaw s => hw.1) fun htable hw =>
        (State.restartCore_firm s hw.1).digKept htable hw).then (Kept.restartCore s ‹_›) (ArrangementKept.setRst _ true)
    · exact ArrangementKept.cleared (t := s.unpowered.setRst true) ⟨rfl, rfl, rfl, rfl, rfl⟩ rfl

theorem ArrangementKept.execRstNegate {md1 md0 : Bool} {s t : State} (ht : execRstNegate md1 md0 s = .next t) :
    ArrangementKept s t := by
  unfold Machine.execRstNegate at ht
  split at ht
  · cases ht; exact ArrangementKept.refl s
  · split at ht <;> cases ht
    · exact (ArrangementKept.setRst s false).then (Kept.setRst s false) (ArrangementKept.powerStart _ _)
    · exact (ArrangementKept.setRst s false).then (Kept.setRst s false) (ArrangementKept.restartInputs _)

/-! ## The restore (R177 to R180) -/

/-- A header changes no record and no channel, and comes while nothing is live and nothing is in work. -/
theorem ArrangementKept.execHeaderRestored {undelivered : List Nat} {s t : State}
    (ht : execHeaderRestored undelivered s = .next t) : ArrangementKept s t := by
  unfold Machine.execHeaderRestored at ht
  split at ht
  case isFalse => cases ht; exact ArrangementKept.refl s
  case isTrue hphase =>
  cases ht
  intro _ hw
  have hp : s.sys.phase ≠ .up := by rw [hphase]; nofun
  generalize s.isi.header undelivered = h?
  have htbc : (s.applyHeader h?).tbc.slots = s.tbc.slots ∧ (s.applyHeader h?).tbc.map = s.tbc.map ∧
      (s.applyHeader h?).channels = s.channels ∧ (s.applyHeader h?).cxp.contexts = [] := by
    have hnil := (hw.starting hp).1
    cases h? <;> exact ⟨rfl, rfl, rfl, hnil⟩
  obtain ⟨hslots, hmap, hch, hctx⟩ := htbc
  have hctx' := (State.restartInputs_bonds (s.applyHeader h?)).empty hctx
  exact ⟨fun _ => ExclusionLaw.idle hctx', fun hd => DigLaw.idle (by rw [State.restartInputs_tbc, hmap]; exact hd.2.2 hp) hctx',
    fun hc => hc.congr (by rw [State.restartInputs_tbc, hslots]) (by rw [State.restartInputs_channels, hch])⟩

/-- After the check of R179 every relied row holds its live records. -/
theorem State.checkDig_digRow (s : State) : s.checkDig.tbc.site.digRow ≤ s.digValue true := by
  unfold State.checkDig
  split
  · exact Nat.le_refl _
  · next h => exact Nat.le_of_not_lt h

/-- The part as a restore leaves it, but for what the check of the dig row sets. -/
theorem State.finishRestore_tbc (s : State) (headerTime : Option Nat) (bs : List (Nat × Taken)) :
    (s.finishRestore headerTime bs).tbc = (s.applyRecords bs (restoredTime headerTime bs)).checkDig.tbc := by
  obtain ⟨a, ha⟩ := (s.applyRecords bs (restoredTime headerTime bs)).checkDig.rebuildList_onlyAtu
  rw [State.finishRestore, ha]

theorem State.checkDig_kept (s : State) : s.checkDig.tbc.slots = s.tbc.slots ∧ s.checkDig.tbc.map = s.tbc.map ∧
    s.checkDig.tbc.site.relieved = s.tbc.site.relieved := by
  obtain ⟨dig, mark, h⟩ := s.checkDig_eq
  rw [h]
  exact ⟨rfl, rfl, rfl⟩

theorem ArrangementKept.execRestoreComplete {undelivered : List Nat} {s t : State}
    (ht : execRestoreComplete undelivered s = .next t) : ArrangementKept s t := by
  unfold Machine.execRestoreComplete at ht
  split at ht
  case h_2 => cases ht; exact ArrangementKept.refl s
  case h_1 headerTime hphase =>
  cases ht
  intro _ hw
  have hp : s.sys.phase ≠ .up := by rw [hphase]; nofun
  generalize hbs : s.isi.blocks undelivered = bs
  obtain ⟨dig, mark, a, heq⟩ := s.finishRestore_eq headerTime bs
  have hctx : (s.finishRestore headerTime bs).cxp.contexts = [] := by rw [heq]; exact (hw.starting hp).1
  refine ⟨fun _ => ExclusionLaw.idle hctx, fun _ => ⟨fun row bay n r h1 h2 h3 h4 h5 hl hr => ?_, fun c x r hx => ?_, ?_⟩,
    fun _ => ?_⟩
  · obtain ⟨k1, k2, k3⟩ := (s.applyRecords bs (restoredTime headerTime bs)).checkDig_kept
    have htbc := s.finishRestore_tbc headerTime bs
    rw [htbc] at h2
    rw [State.isRelieved, htbc, k3] at h3
    rw [State.liveAt, htbc, k2] at hl
    rw [State.recAt_congr (s := s.applyRecords bs (restoredTime headerTime bs)) (by rw [htbc, k1])] at hr
    have hcounts := State.rowCounts_of_le h1 (Nat.le_trans h2 (State.checkDig_digRow _)) h3 bay n r h4 h5 hl hr
    exact hcounts.imp id And.right
  · rw [State.ctxAt, hctx] at hx; cases hx
  · rw [heq]; exact fun h => absurd rfl h
  · rw [heq]
    exact channelLaw_of_restored (hbs ▸ s.isi.blocks_sound undelivered) (hbs ▸ s.isi.blocks_bound undelivered) rfl rfl

/-! ## One step -/

theorem exec_arrangement {c : Instr} {s t : State} (ht : exec c s = .next t) : ArrangementKept s t := by
  cases hc : isStartUp c with
  | false => exact Moves.arrangement (exec_moves hc (fun hw => hw.1) ht) (exec_digKept hc ht)
  | true =>
    cases c with
    | powerOn md1 md0 left => exact ArrangementKept.execPowerOn ht
    | rstAssert => exact ArrangementKept.execRstAssert ht
    | rstNegate md1 md0 => exact ArrangementKept.execRstNegate ht
    | headerRestored undelivered => exact ArrangementKept.execHeaderRestored ht
    | restoreComplete undelivered => exact ArrangementKept.execRestoreComplete ht
    | _ => cases hc

/-- Settles O60: no command lets near contexts conflict, undermines a relied row or parts the channel map from the bindings,
and a millisecond without a command touches none of them. -/
theorem stepKeepsTheExclusionTheDigAndTheChannels : Obligations.StepKeepsTheExclusionTheDigAndTheChannels := by
  intro s t ht
  cases hp : s.pending with
  | nil =>
    rw [step_nil hp] at ht; cases ht
    exact Moves.arrangement (State.tick_moves s) (Firm.same (by simp) (by simp) (by simp)).digKept
  | cons c rest =>
    rw [step_cons hp] at ht
    have hkept : ArrangementKept { s with pending := rest } t := exec_arrangement ht
    exact hkept

end Sys2Proof.Machine
end

section
/-! Dig release (R40 to R43): the query value, its blocking records, and what DIG_QUERY, DIG_SET and RELIEVE answer and do. -/

namespace Sys2Proof.Machine

/-! ## Counting the entries of a table -/

theorem countP_or {α : Type} {p q : α → Bool} (l : List α) (h : ∀ x ∈ l, p x = true → q x = false) :
    l.countP (fun x => p x || q x) = l.countP p + l.countP q := by
  induction l with
  | nil => rfl
  | cons x l ih =>
    have hx := h x List.mem_cons_self
    simp only [List.countP_cons, ih fun y hy => h y (List.mem_cons_of_mem _ hy)]
    cases hp : p x <;> cases hq : q x <;> simp_all <;> omega

/-- In canonical form at most one entry stands under a key. -/
theorem Table.countP_key {α : Type} {t : Table α} (hw : t.wf) (key : Nat) (P : α → Bool) :
    List.countP (fun p => decide (p.1 = key) && P p.2) t = if (t.get? key).any P then 1 else 0 := by
  induction t with
  | nil => rfl
  | cons x t ih =>
    obtain ⟨k, v⟩ := x
    obtain ⟨hfirst, hrest⟩ := List.pairwise_cons.1 hw
    by_cases e : k = key
    · subst e
      have hnone : List.countP (fun p => decide (p.1 = k) && P p.2) t = 0 :=
        List.countP_eq_zero.2 fun p hp => by simp [Nat.ne_of_gt (hfirst p hp)]
      rw [List.countP_cons, hnone]
      simp [Table.get?]
    · rw [List.countP_cons, ih hrest]
      simp [Table.get?, e]

/-- The entries of a stretch of keys, counted key by key. -/
theorem Table.countP_range {α : Type} {t : Table α} (hw : t.wf) (lo n : Nat) (P : α → Bool) :
    (List.range n).countP (fun i => (t.get? (lo + i)).any P) =
      List.countP (fun p => decide (lo ≤ p.1 ∧ p.1 < lo + n) && P p.2) t := by
  induction n with
  | zero => exact (List.countP_eq_zero.2 fun p _ => by simp).symm
  | succ n ih =>
    have hsplit : List.countP (fun p => decide (lo ≤ p.1 ∧ p.1 < lo + (n + 1)) && P p.2) t =
        List.countP (fun p => decide (lo ≤ p.1 ∧ p.1 < lo + n) && P p.2 || decide (p.1 = lo + n) && P p.2) t := by
      refine List.countP_congr fun p _ => ?_
      simp only [Bool.or_eq_true, Bool.and_eq_true, decide_eq_true_eq]
      constructor
      · rintro ⟨h, hP⟩
        by_cases e : p.1 = lo + n
        · exact .inr ⟨e, hP⟩
        · exact .inl ⟨by omega, hP⟩
      · rintro (⟨h, hP⟩ | ⟨h, hP⟩)
        · exact ⟨by omega, hP⟩
        · exact ⟨by omega, hP⟩
    rw [List.range_succ, List.countP_append, ih, hsplit, countP_or, Table.countP_key hw]
    · simp [List.countP_singleton]
    · intro p _ h
      simp only [Bool.and_eq_true, decide_eq_true_eq] at h
      simp only [Bool.and_eq_false_iff, decide_eq_false_iff_not]
      left; omega

/-! ## The query value and its blocking records (R40) -/

theorem State.rowHolds_iff {s : State} (hwf : s.tbc.map.wf) {row : Nat} (hrow : 1 ≤ row) :
    RowHolds s row ↔ s.rowPasses false row = true := by
  rw [State.rowPasses_iff, State.notHolding_isEmpty hwf false hrow]
  refine or_congr_right ⟨fun h bay n r h1 h2 hl hr => (r.counts_false).2 (h bay n r h1 h2 hl hr),
    fun h bay n r h1 h2 hl hr => (r.counts_false).1 (h bay n r h1 h2 hl hr)⟩

theorem State.allLocked_iff {s : State} (hwf : s.tbc.map.wf) {row : Nat} (hrow : 1 ≤ row) :
    AllLocked s row ↔ (s.notHolding false row).isEmpty = true := by
  rw [State.notHolding_isEmpty hwf false hrow]
  exact ⟨fun h bay n r h1 h2 hl hr => (r.counts_false).2 (h bay n r h1 h2 hl hr),
    fun h bay n r h1 h2 hl hr => (r.counts_false).1 (h bay n r h1 h2 hl hr)⟩

/-- The model's value is the query value of R40. -/
theorem State.digValue_queryValue {s : State} (hwf : s.tbc.map.wf) : QueryValue s (s.digValue false) := by
  obtain ⟨h1, h2, h3⟩ := s.digValue_spec false
  refine ⟨h1, fun row h4 h5 => (State.rowHolds_iff hwf h4).2 (h2 row h4 h5), fun h hold => ?_⟩
  rw [State.rowHolds_iff hwf (by omega), h3 h] at hold
  cases hold

theorem QueryValue.unique {s : State} {q q' : Nat} (h : QueryValue s q) (h' : QueryValue s q') : q = q' := by
  obtain ⟨h1, h2, h3⟩ := h
  obtain ⟨h1', h2', h3'⟩ := h'
  rcases Nat.lt_trichotomy q q' with hlt | rfl | hlt
  · exact absurd (h2' (q + 1) (by omega) (by omega)) (h3 (by omega))
  · rfl
  · exact absurd (h2 (q' + 1) (by omega) (by omega)) (h3' (by omega))

theorem State.mem_notHolding_iff_blocks {s : State} (hwf : s.tbc.map.wf) {row n : Nat} (hrow : 1 ≤ row) :
    n ∈ s.notHolding false row ↔ Blocks s row n := by
  rw [State.mem_notHolding, State.mem_liveInRow hwf hrow]
  constructor
  · rintro ⟨⟨bay, h1, h2, hl⟩, r, hr, hn⟩
    exact ⟨bay, r, h1, h2, hl, hr, fun e => hn ((r.counts_false).2 e)⟩
  · rintro ⟨bay, r, h1, h2, hl, hr, hn⟩
    exact ⟨⟨bay, h1, h2, hl⟩, r, hr, fun e => hn ((r.counts_false).1 e)⟩

/-- The blocking records of a row, counted along the map or bay by bay. -/
theorem State.notHolding_length {s : State} (hwf : s.tbc.map.wf) {row : Nat} (hrow : 1 ≤ row) :
    (s.notHolding false row).length = blockCount s row := by
  have hbays : blockCount s row = List.countP (fun p => decide ((row - 1) * 400 ≤ p.1 ∧ p.1 < (row - 1) * 400 + 400) &&
      (s.recAt p.2).any fun r => decide (r.state ≠ .locked)) s.tbc.map :=
    Table.countP_range hwf ((row - 1) * 400) 400 fun n => (s.recAt n).any fun r : Record => decide (r.state ≠ .locked)
  rw [hbays, State.notHolding, State.liveInRow, ← List.countP_eq_length_filter, List.countP_filterMap]
  refine List.countP_congr fun p _ => ?_
  have hkey : posRow p.1 = row ↔ (row - 1) * 400 ≤ p.1 ∧ p.1 < (row - 1) * 400 + 400 := by
    simp only [posRow, Config.bayCount]
    omega
  by_cases e : posRow p.1 = row
  · rw [if_pos e]
    cases hr : s.recAt p.2 <;> simp [hr, hkey.1 e]
  · rw [if_neg e]
    simp [mt hkey.2 e]

/-- The lowest slot of a list is in it, and below none of it. -/
theorem lowestSlot_eq_some_iff {l : List Nat} {n : Nat} : lowestSlot l = some n ↔ n ∈ l ∧ ∀ m ∈ l, n ≤ m :=
  List.min?_eq_some_iff

/-- Below row 12 the row after the query value has blocking records. -/
theorem State.blockers_ne_nil {s : State} {q : Nat} (hq : q = s.digValue false) (hlt : q < 12) :
    s.notHolding false (q + 1) ≠ [] := fun h => by
  have hfails := (s.digValue_spec false).2.2 (hq ▸ hlt)
  rw [← hq] at hfails
  have hpasses := (s.rowPasses_iff false (q + 1)).2 (.inr (by rw [h]; rfl))
  rw [hfails] at hpasses; cases hpasses

theorem State.blockers_of_lt {s : State} {q : Nat} (h : q < 12) : s.blockers q = s.notHolding false (q + 1) := if_pos h

theorem State.blockers_last (s : State) : s.blockers 12 = [] := rfl

/-! ## DIG_QUERY and DIG_SET (R40, R41) -/

theorem State.hand_eq (s : State) (i : Item) : s.hand i = { s with isi := s.isi.handed [i] } := by
  unfold State.hand Isi.handed joined
  simp only [List.foldl_cons, List.foldl_nil]
  split <;> rfl

theorem State.setDig_eq (s : State) (row : Nat) : s.setDig row = { s with
    tbc := { s.tbc with site := { s.tbc.site with digRow := row } }
    isi := if row = s.tbc.site.digRow then s.isi else s.isi.handed [.header] } := by
  unfold State.setDig
  split
  · next h => subst h; rw [if_pos rfl]
  · next h => rw [if_neg (Ne.symm h), State.hand_eq]

theorem digQuery_answers {s : State} {h : Ask} (hs : Served s h .digQuery) (ht : TableLaw s) : ∃ q low, QueryValue s q ∧
    exec (.digQuery h) s = .next (Answered s h .digQuery .done
      ([.u8 q, .u8 s.tbc.site.digRow, .u8 (if q < 12 then q + 1 else 0),
        .u16 (if q < 12 then blockCount s (q + 1) else 0)] ++ masked [low.map (fun n => [.u16 n])])) ∧
    (q = 12 → low = none) ∧
    (q < 12 → 1 ≤ blockCount s (q + 1) ∧ ∃ n, low = some n ∧ Blocks s (q + 1) n ∧ ∀ m, Blocks s (q + 1) m → n ≤ m) := by
  have hwf := ht.2.1
  have hquery := State.digValue_queryValue hwf
  generalize hq : s.digValue false = q at hquery
  refine ⟨q, lowestSlot (s.blockers q), hquery, ?_, fun e => ?_, fun hlt => ?_⟩
  · have hcount : (s.blockers q).length = if q < 12 then blockCount s (q + 1) else 0 := by
      split
      · next hlt => rw [State.blockers_of_lt hlt, State.notHolding_length hwf (by omega)]
      · next hge => rw [show q = 12 by have := hquery.1; omega, State.blockers_last]; rfl
    rw [← hcount, ← hq]
    exact (hs.inRange rfl _).trans (hs.refused .done _)
  · rw [e, State.blockers_last]; rfl
  · have hne := State.blockers_ne_nil hq.symm hlt
    obtain ⟨n, hn⟩ := Option.ne_none_iff_exists'.1 (mt List.min?_eq_none_iff.1 hne)
    obtain ⟨hmem, hle⟩ := lowestSlot_eq_some_iff.1 hn
    refine ⟨?_, n, by rw [State.blockers_of_lt hlt]; exact hn, (State.mem_notHolding_iff_blocks hwf (by omega)).1 hmem,
      fun m hm => hle m ((State.mem_notHolding_iff_blocks hwf (by omega)).2 hm)⟩
    rw [← State.notHolding_length hwf (by omega)]
    exact List.length_pos_iff.2 hne

/-- The lowest blocking slot is the one that blocks and is below every other. -/
theorem State.lowestSlot_blockers {s : State} (hwf : s.tbc.map.wf) {q n : Nat} (hlt : q < 12) (hn : Blocks s (q + 1) n)
    (hle : ∀ m, Blocks s (q + 1) m → n ≤ m) : lowestSlot (s.blockers q) = some n := by
  rw [State.blockers_of_lt hlt]
  exact lowestSlot_eq_some_iff.2 ⟨(State.mem_notHolding_iff_blocks hwf (by omega)).2 hn,
    fun m hm => hle m ((State.mem_notHolding_iff_blocks hwf (by omega)).1 hm)⟩

theorem digSet_refused {s : State} {h : Ask} {row q n : Nat} (hs : Served s h .digSet) (ht : TableLaw s)
    (hq : QueryValue s q) (hrow : row ≤ 12) (hdig : s.tbc.site.digRow < row) (hlt : q < row) (hn : Blocks s (q + 1) n)
    (hle : ∀ m, Blocks s (q + 1) m → n ≤ m) : exec (.digSet h row) s = .next (Answered s h .digSet .reliedOn
      [.u8 q, .u8 (q + 1), .u16 (blockCount s (q + 1)), .u16 n]) := by
  have hwf := ht.2.1
  have hq12 : q < 12 := by omega
  have hvalue : s.digValue false = q := (State.digValue_queryValue hwf).unique hq
  have hfigures : s.digFigures q = [.u8 q, .u8 (q + 1), .u16 (blockCount s (q + 1)), .u16 n] := by
    rw [State.digFigures, State.lowestSlot_blockers hwf hq12 hn hle, State.blockers_of_lt hq12,
      State.notHolding_length hwf (by omega), show blockingRow q = q + 1 from if_pos hq12]
    rfl
  refine (hs.inRange (decide_eq_true hrow) _).trans ?_
  rw [hvalue, if_pos ⟨hdig, hlt⟩, hfigures]
  exact hs.refused .reliedOn _

/-- Settles O31: the model's search gives the query value of R40 and its figures those of the blocking records. -/
theorem digReleaseStopsAtTheQueryValue : Obligations.DigReleaseStopsAtTheQueryValue := by
  refine ⟨fun h s hs ht => digQuery_answers hs ht, fun h row s q hs ht hq => ⟨fun hrow => ?_, ?_, fun hrow hle => ?_⟩⟩
  · exact hs.outOfRange (decide_eq_false (Nat.not_le.2 hrow)) _
  · exact fun n hrow hdig hlt hn hle => digSet_refused hs ht hq hrow hdig hlt hn hle
  · have hvalue : s.digValue false = q := (State.digValue_queryValue ht.2.1).unique hq
    refine (hs.inRange (decide_eq_true hrow) _).trans ?_
    rw [if_neg (by rw [hvalue]; omega), hs.done, State.setDig_eq]
    rfl

/-! ## RELIEVE (R42, R43) -/

theorem State.setRelieved_isi (s : State) (row : Nat) (on : Bool) :
    (s.setRelieved row on).isi = if s.isRelieved row = on then s.isi else s.isi.handed [.header] := by
  unfold State.setRelieved
  split
  · rfl
  · rw [State.hand_isi_eq]

theorem State.setRelieved_onlyIn (s : State) (row : Nat) (on : Bool) : OnlyIn [.tbc, .isi] s (s.setRelieved row on) := by
  unfold State.setRelieved
  split
  · exact OnlyIn.refl _ s
  · rw [State.hand_eq]
    intro b hb
    cases b <;> simp_all [Block.agrees]

/-- A written flag reads back, and the other rows keep theirs. -/
theorem State.isRelieved_setRelieved_eq (s : State) {row : Nat} (hrow : 1 ≤ row ∧ row ≤ 12) (on : Bool) {m : Nat}
    (hm : 1 ≤ m) : (s.setRelieved row on).isRelieved m = if m = row then on else s.isRelieved m := by
  rw [State.isRelieved_setRelieved s hrow]
  congr 1
  exact propext ⟨fun e => by omega, fun e => by rw [e]⟩

theorem State.destressIn_iff {s : State} (hw : s.cxp.contexts.wf) {row : Nat} : s.destressIn row = true ↔
    ∃ c x r, s.ctxAt c = some x ∧ x.prog.kind = .destress ∧ s.recAt x.slot = some r ∧ r.row = row := by
  unfold State.destressIn
  rw [List.any_eq_true]
  constructor
  · rintro ⟨⟨c, x⟩, hmem, h⟩
    obtain ⟨hk, hany⟩ := of_decide_eq_true h
    obtain ⟨r, hr, hrow⟩ := (Option.any_eq_true ..).1 hany
    exact ⟨c, x, r, Table.get?_of_mem hw hmem, hk, hr, of_decide_eq_true hrow⟩
  · rintro ⟨c, x, r, hx, hk, hr, hrow⟩
    exact ⟨(c, x), Table.mem_of_get? hx, by simp [hk, hr, hrow]⟩

/-- What a taken RELIEVE does (R42, R43). -/
theorem relieve_taken {s : State} {h : Ask} (hs : Served s h .relieve) {row : Nat} (hrow : 1 ≤ row ∧ row ≤ 12) (on : Bool) :
    ∃ t, s.take h Req.relieve.code (done (s.setRelieved row on) []) = .next t ∧
      (∀ m, 1 ≤ m → m ≤ 12 → t.isRelieved m = if m = row then on else s.isRelieved m) ∧
      t.tbc = { s.tbc with site := { s.tbc.site with relieved := t.tbc.site.relieved } } ∧
      t.isi = (if s.isRelieved row = on then s.isi else s.isi.handed [.header]) ∧
      t.bmu = s.bmu.answering h (answerTo .relieve .done []) ∧ OnlyIn [.tbc, .isi, .bmu] s t := by
  have honly := State.setRelieved_onlyIn s row on
  refine ⟨_, hs.done _ _, fun m h1 _ => State.isRelieved_setRelieved_eq s hrow on h1, ?_, State.setRelieved_isi s row on,
    State.answeredDone_bmu (honly .bmu (by decide)) h _ _, honly.answeredDone (by decide) _ _ _⟩
  rw [State.answeredDone, State.setRelieved_tbc, State.setRelieved_site]

/-- A flag that stands as it is asked for is not written. -/
theorem State.setRelieved_of_eq {s : State} {row : Nat} {on : Bool} (h : s.isRelieved row = on) : s.setRelieved row on = s :=
  if_pos h

/-- Settles O32: each branch of RELIEVE is one clause, and R43's two checks are those of the statement. -/
theorem relieveSetsAndClearsTheFlag : Obligations.RelieveSetsAndClearsTheFlag := by
  refine fun h row s hs ht hw => ⟨fun hout => ?_, fun h1 h2 on cmd hcmd => ?_, fun h1 h2 hset => ⟨fun hdig hnot => ?_,
    fun hfree hin => ?_⟩⟩
  · have hrow : rowOk row = false := decide_eq_false (by rw [Config.rowCount]; omega)
    exact ⟨hs.outOfRange hrow _, hs.outOfRange hrow _⟩
  · have hrow : rowOk row = true := decide_eq_true ⟨h1, h2⟩
    obtain ⟨t, htake, hrest⟩ := relieve_taken hs ⟨h1, h2⟩ on
    refine ⟨t, ?_, hrest⟩
    obtain ⟨rfl, rfl⟩ | ⟨rfl, rfl, hclear⟩ := hcmd
    · exact (hs.inRange hrow _).trans htake
    · refine ((hs.inRange hrow _).trans ?_).trans htake
      by_cases hset : s.isRelieved row = false
      · rw [if_pos hset, State.setRelieved_of_eq hset]
      · obtain ⟨hfree, hdestress⟩ := hclear (by simpa using hset)
        rw [State.allLocked_iff ht.2.1 h1] at hfree
        have hnone : s.destressIn row = false := by
          rw [← Bool.not_eq_true, State.destressIn_iff hw.1]
          exact fun ⟨c, x, r, hx, hk, hr, hat⟩ => hdestress c x r hx hk hr hat
        rw [if_neg hset, if_neg (fun hr => hfree.elim (by omega) (by simp [hr.2])), if_neg (by simp [hnone])]
  · rw [State.allLocked_iff ht.2.1 h1, Bool.not_eq_true] at hnot
    refine (hs.inRange (decide_eq_true ⟨h1, h2⟩) _).trans ?_
    rw [if_neg (by simp [hset]), if_pos ⟨hdig, hnot⟩]
    exact hs.refused .reliedOn []
  · rw [State.allLocked_iff ht.2.1 h1] at hfree
    refine (hs.inRange (decide_eq_true ⟨h1, h2⟩) _).trans ?_
    rw [if_neg (by simp [hset]), if_neg (fun hr => hfree.elim (by omega) (by simp [hr.2])),
      if_pos ((State.destressIn_iff hw.1).2 hin)]
    exact hs.refused .inUse []

end Sys2Proof.Machine
end

section
/-! The checks of Table 3-3 on START, BEGIN and RESUME (R37, R48 to R52): the first that fails gives the answer. -/

namespace Sys2Proof.Machine

/-! ## The first failing check -/

/-- The result of the first failing check of a list. -/
def firstFailing (checks : List (Bool × Result)) : Option Result := (checks.find? Prod.fst).map Prod.snd

@[simp] theorem firstFailing_nil : firstFailing [] = none := rfl

@[simp] theorem firstFailing_cons (b : Bool) (res : Result) (checks : List (Bool × Result)) :
    firstFailing ((b, res) :: checks) = if b then some res else firstFailing checks := by
  cases b <;> rfl

theorem firstFailing_append (checks more : List (Bool × Result)) :
    firstFailing (checks ++ more) = (firstFailing checks <|> firstFailing more) := by
  unfold firstFailing
  rw [List.find?_append]
  cases checks.find? Prod.fst <;> rfl

theorem firstFailing_mem {checks : List (Bool × Result)} {res : Result} (h : firstFailing checks = some res) :
    (true, res) ∈ checks := by
  obtain ⟨⟨b, res'⟩, hfind, rfl⟩ := Option.map_eq_some_iff.1 h
  have hb : b = true := List.find?_some hfind
  exact hb ▸ List.mem_of_find?_eq_some hfind

/-- The figures that go with a result of Table 3-3 (R50). -/
def State.bindFigures (s : State) (k : CtxKind) (station : Nat) (r : Record) : Result → List Field
  | .capacity =>
    match s.classOf r, s.calAt station with
    | some cls, some cal => [.u16 (testLoad cls), .u16 (lastCalLoad cal)]
    | _, _ => []
  | .conflict => (s.excluder k r).toList.map .u8
  | _ => []

/-- A refusal with the figures of its result. -/
def State.refuseBinding (s : State) (k : CtxKind) (station : Nat) (r : Record) (res : Result) : Ruling :=
  refuseWith s res (s.bindFigures k station r res)

/-! ## Checks 9 and 10: the lowest context of a pair (R37) -/

theorem State.excludes_eq (s : State) (span : Nat) (k : CtxKind) (r : Record) (x : Context) :
    s.excludes span k r x = (decide (ConflictingKinds k x.prog.kind) &&
      (s.recAt x.slot).any fun q => decide (NearAt span r q)) := by
  rw [Bool.eq_iff_iff, State.excludes_iff]
  simp only [Bool.and_eq_true, decide_eq_true_eq, Option.any_eq_true]
  exact ⟨fun ⟨q, hq, hk, hn⟩ => ⟨hk, q, hq, hn⟩, fun ⟨hk, q, hq, hn⟩ => ⟨q, hq, hk, hn⟩⟩

/-- The check of the table for a CONFLICT finds what the model's search finds. -/
theorem State.excluder_isSome (s : State) (k : CtxKind) (r : Record) : (s.excluder k r).isSome =
    s.cxp.contexts.any (fun p => decide (ConflictingKinds k p.2.prog.kind) &&
      (s.recAt p.2.slot).any (fun q => decide (NearAt s.tbc.site.span r q))) := by
  rw [State.excluder, Option.isSome_map, Bool.eq_iff_iff, List.find?_isSome, List.any_eq_true]
  simp only [State.excludes_eq]

/-- The excluding context is the lowest that forms the pair. -/
theorem State.excluder_spec {s : State} {k : CtxKind} {r : Record} {c : Nat} (hw : s.cxp.contexts.wf)
    (h : s.excluder k r = some c) : FormsPair s k r c ∧ ∀ d, d < c → ¬ FormsPair s k r d := by
  have hpair : ∀ d x, s.ctxAt d = some x → (FormsPair s k r d ↔ s.excludes s.tbc.site.span k r x = true) := by
    intro d x hx
    rw [State.excludes_iff]
    constructor
    · rintro ⟨x', q, hx', hq, hp⟩
      obtain rfl := Option.some.inj (hx.symm.trans hx')
      exact ⟨q, hq, hp⟩
    · exact fun ⟨q, hq, hp⟩ => ⟨x, q, hx, hq, hp⟩
  obtain ⟨⟨c', x⟩, hfind, rfl⟩ := Option.map_eq_some_iff.1 h
  obtain ⟨hex, before, after, hsplit, hbefore⟩ := List.find?_eq_some_iff_append.1 hfind
  have hx : s.ctxAt c' = some x := Table.get?_of_mem hw (List.mem_of_find?_eq_some hfind)
  refine ⟨(hpair c' x hx).2 hex, fun d hd hp => ?_⟩
  obtain ⟨y, q, hy, -⟩ := id hp
  have hex' := (hpair d y hy).1 hp
  have hmem := Table.mem_of_get? hy
  rw [hsplit, List.mem_append] at hmem
  rcases hmem with hmem | hmem
  · have hnot := hbefore _ hmem
    simp [hex'] at hnot
  · rw [Table.wf, hsplit] at hw
    obtain ⟨-, hlater, -⟩ := List.pairwise_append.1 hw
    rcases List.mem_cons.1 hmem with e | hmem
    · rw [Prod.mk.injEq] at e; omega
    · have := (List.pairwise_cons.1 hlater).1 _ hmem
      omega

/-! ## The checks in the order of the table -/

/-- Checks 1 to 6. -/
theorem State.readyRefusal_eq (s : State) (k : CtxKind) (station : Nat) (r : Record) (resumed : Bool) :
    s.readyRefusal k station r resumed =
      (firstFailing ((bindingChecks s k station r resumed).take 6)).map (s.refuseBinding k station r) := by
  have hneed : inNeededState k resumed r = false ↔
      ¬ if resumed then r.state = .held ∧ r.heldKind = some k else r.state = k.neededState := by
    unfold inNeededState; cases resumed <;> simp
  simp only [bindingChecks, List.take, firstFailing_cons, firstFailing_nil, decide_eq_true_eq, State.readyRefusal, hneed]
  simp only [apply_ite (Option.map (s.refuseBinding k station r)), Option.map_some, Option.map_none]
  rfl

theorem usesJack_eq (k : CtxKind) : usesJack k = decide (k = .stress ∨ k = .destress) := by cases k <;> rfl

/-- Checks 7 and 8. -/
theorem State.capacityRefusal_eq (s : State) (k : CtxKind) (station : Nat) (r : Record) (resumed : Bool) :
    s.capacityRefusal k station r =
      (firstFailing (((bindingChecks s k station r resumed).drop 6).take 2)).map (s.refuseBinding k station r) := by
  simp only [bindingChecks, List.drop, List.take, firstFailing_cons, firstFailing_nil, ← usesJack_eq, State.capacityRefusal]
  cases hcls : s.classOf r with
  | none => rfl
  | some cls =>
    cases hj : usesJack k with
    | false => rfl
    | true =>
      cases hcal : s.calAt station with
      | none => rfl
      | some cal =>
        by_cases hlt : lastCalLoad cal < testLoad cls <;>
          simp [hlt, State.refuseBinding, State.bindFigures, hcls, hcal]

/-- Checks 9 and 10. -/
theorem State.nearRefusal_eq (s : State) (k : CtxKind) (station : Nat) (r : Record) (resumed : Bool) :
    s.nearRefusal k r =
      (firstFailing (((bindingChecks s k station r resumed).drop 8).take 2)).map (s.refuseBinding k station r) := by
  simp only [bindingChecks, List.drop, List.take, firstFailing_cons, firstFailing_nil, ← State.excluder_isSome,
    State.nearRefusal]
  cases he : s.excluder k r with
  | some c => simp [State.refuseBinding, State.bindFigures, he]
  | none =>
    by_cases hk : k = .destress ∧ s.isRelieved r.row = false
    · simp [hk, State.refuseBinding, State.bindFigures, refuse]
    · simp [hk]

/-- Check 11. -/
theorem State.lowestFreeCtx_isNone (s : State) : s.lowestFreeCtx.isNone = (List.range 12).all fun c => (s.ctxAt c).isSome := by
  rw [Bool.eq_iff_iff, Option.isNone_iff_eq_none, State.lowestFreeCtx, List.find?_eq_none, List.all_eq_true, Config.contextCount]
  refine forall₂_congr fun c _ => ?_
  cases s.ctxAt c <;> simp

/-- A binding whose checks do not all pass is refused by the first that fails, with its figures. -/
theorem State.bindOwn_of_firstFailing {s : State} {k : CtxKind} {station : Nat} {r : Record} {resumed : Bool} {res : Result}
    (h : firstFailing (bindingChecks s k station r resumed) = some res) (n sender : Nat) :
    s.bindOwn k n station sender r resumed = s.refuseBinding k station r res := by
  have hparts : bindingChecks s k station r resumed = (bindingChecks s k station r resumed).take 6 ++
      ((bindingChecks s k station r resumed).drop 6).take 2 ++ (((bindingChecks s k station r resumed).drop 8).take 2 ++
      [((List.range 12).all (fun c => (s.ctxAt c).isSome), .full)]) := rfl
  rw [hparts, firstFailing_append, firstFailing_append, firstFailing_append] at h
  rw [State.bindOwn, s.readyRefusal_eq, s.capacityRefusal_eq k station r resumed, s.nearRefusal_eq k station r resumed]
  revert h
  cases firstFailing ((bindingChecks s k station r resumed).take 6) with
  | some res' => rintro ⟨⟩; rfl
  | none =>
    cases firstFailing (((bindingChecks s k station r resumed).drop 6).take 2) with
    | some res' => rintro ⟨⟩; rfl
    | none =>
      cases firstFailing (((bindingChecks s k station r resumed).drop 8).take 2) with
      | some res' => rintro ⟨⟩; rfl
      | none =>
        rw [← State.lowestFreeCtx_isNone]
        cases s.lowestFreeCtx with
        | none => rintro ⟨⟩; rfl
        | some c => rintro ⟨⟩

/-- A CONFLICT is found just where some context excludes the work. -/
theorem State.excluder_of_firstFailing {s : State} {k : CtxKind} {station : Nat} {r : Record} {resumed : Bool}
    (h : firstFailing (bindingChecks s k station r resumed) = some .conflict) : ∃ c, s.excluder k r = some c := by
  have hmem := firstFailing_mem h
  simp only [bindingChecks, ← State.excluder_isSome] at hmem
  rw [← Option.isSome_iff_exists]
  simpa using hmem

/-- The figures of a refused binding are those of R50. -/
theorem State.bindFigures_of_firstFailing {s : State} {k : CtxKind} {station : Nat} {r : Record} {resumed : Bool}
    {res : Result} (h : firstFailing (bindingChecks s k station r resumed) = some res) :
    BindingFigures s k station r res (s.bindFigures k station r res) := by
  refine ⟨?_, ?_, fun h1 h2 => ?_⟩
  · rintro rfl cls cal hcls hcal
    simp [State.bindFigures, hcls, hcal]
  · rintro rfl
    obtain ⟨c, hc⟩ := State.excluder_of_firstFailing h
    exact ⟨c, by simp [State.bindFigures, hc], fun hw => State.excluder_spec hw hc⟩
  · cases res with
    | capacity | conflict => contradiction
    | _ => rfl

/-! ## The three requests (R48, R49, R52) -/

/-- A binding request whose own part comes to the checks of the table is answered by the first that fails. -/
theorem Served.bindOwn {s : State} {h : Ask} {q : Req} (hs : Served s h q) {k : CtxKind} {station : Nat} {r : Record}
    {resumed : Bool} {res : Result} (hres : firstFailing (bindingChecks s k station r resumed) = some res) (n : Nat) :
    ∃ body, s.take h q.code (s.bindOwn k n station h.station r resumed) = .next (Answered s h q res body) ∧
      BindingFigures s k station r res body := by
  refine ⟨_, ?_, State.bindFigures_of_firstFailing hres⟩
  rw [State.bindOwn_of_firstFailing hres]
  exact hs.refused res _

theorem codeOk_ctxKind (k : CtxKind) : codeOk CtxKind.all (codeIn CtxKind.all k) = true := by cases k <;> rfl
theorem ofCode_ctxKind (k : CtxKind) : ofCode CtxKind.all (codeIn CtxKind.all k) = some k := by cases k <;> rfl

theorem execStart_served {s : State} {h : Ask} (hs : Served s h .start) (k : CtxKind) {slot station : Nat} {r : Record}
    (hslot : slot < 512) (hst : 1 ≤ station ∧ station ≤ 15) (hr : s.recAt slot = some r) :
    exec (.start h (codeIn CtxKind.all k) slot station (s.revAt slot)) s =
      s.take h Req.start.code (s.bindOwn k slot station h.station r false) := by
  have hrange : decide (codeOk CtxKind.all (codeIn CtxKind.all k) ∧ slotOk slot ∧ rigOk station) = true :=
    decide_eq_true ⟨codeOk_ctxKind k, slotOk_iff.2 hslot, rigOk_iff.2 ⟨hst.1, by omega⟩⟩
  refine (hs.onRecord hrange hr (by simp) _).trans ?_
  rw [ofCode_ctxKind]

/-- A RESUME in range on a record at its revision: only a HELD record goes on to the checks. -/
theorem execResume_served {s : State} {h : Ask} (hs : Served s h .resume) {slot station : Nat} {r : Record}
    (hslot : slot < 512) (hst : 1 ≤ station ∧ station ≤ 15) (hr : s.recAt slot = some r) :
    exec (.resume h slot (s.revAt slot) (some station)) s = s.take h Req.resume.code (match r.heldKind with
      | some k => if r.state = .held then s.bindOwn k slot station h.station r true else refuse s .wrongState
      | none => refuse s .wrongState) := by
  have hrange : decide (slotOk slot ∧ (some station).any rigOk) = true :=
    decide_eq_true ⟨slotOk_iff.2 hslot, rigOk_iff.2 ⟨hst.1, by omega⟩⟩
  refine (hs.onRecord hrange hr (by simp) _).trans ?_
  cases r.heldKind <;> rfl

theorem execResume_badStation {s : State} {h : Ask} (hs : Served s h .resume) (slot rev : Nat) {station : Option Nat}
    (hst : station = none ∨ station = some 0 ∨ ∃ n, station = some n ∧ 15 < n) :
    exec (.resume h slot rev station) s = .next (Answered s h .resume .badValue []) := by
  have hrig : station.any rigOk = false := by
    rcases hst with rfl | rfl | ⟨n, rfl, hn⟩
    · rfl
    · rfl
    · rw [Option.any_some, ← Bool.not_eq_true, rigOk_iff]; omega
  exact hs.outOfRange (inRange := decide (slotOk slot ∧ station.any rigOk)) (by simp [hrig]) _

theorem execResume_notHeld {s : State} {h : Ask} (hs : Served s h .resume) {slot station : Nat} {r : Record}
    (hslot : slot < 512) (hst : 1 ≤ station ∧ station ≤ 15) (hr : s.recAt slot = some r) (hheld : r.state ≠ .held) :
    exec (.resume h slot (s.revAt slot) (some station)) s = .next (Answered s h .resume .wrongState []) := by
  rw [execResume_served hs hslot hst hr]
  cases r.heldKind with
  | none => exact hs.refused .wrongState []
  | some k => simp only [if_neg hheld]; exact hs.refused .wrongState []

theorem execBegin_served {s : State} {h : Ask} (hs : Served s h .begin) {row bay : Nat} (hrow : 1 ≤ row ∧ row ≤ 12)
    (hbay : 1 ≤ bay ∧ bay ≤ 400) : exec (.begin h row bay) s = s.take h Req.begin.code (s.beginOwn h.station row bay) :=
  hs.inRange (decide_eq_true ⟨rowOk_iff.2 hrow, bayOk_iff.2 hbay⟩) _

/-- A station is found bound to a slot just by the context it names. -/
theorem State.boundTo_eq_some_iff {s : State} {station n c : Nat} : s.boundTo station n = some c ↔
    (s.stationAt station).ctx = some c ∧ ∃ x, s.ctxAt c = some x ∧ x.slot = n := by
  unfold State.boundTo
  constructor
  · intro h
    split at h
    · cases h
    split at h
    · split at h
      · obtain rfl := Option.some.inj h
        exact ⟨by assumption, _, by assumption, by assumption⟩
      · cases h
    · cases h
  · rintro ⟨hctx, x, hx, hslot⟩
    simp only [hctx, hx, if_pos hslot]

/-- The kinds a BEGIN binds, by the sender's (R49). -/
theorem beginKind_eq_none {k : StationKind} {st : RecState} (h1 : k ≠ .winch) (h2 : k ≠ .grout) (h3 : k ≠ .jack) :
    beginKind k st = none := by
  cases k <;> simp_all [beginKind]

theorem beginKind_of_sender {kind : StationKind} {st : RecState} {k : CtxKind}
    (h : kind = .winch ∧ k = .insert ∨ kind = .grout ∧ k = .grout ∨
      kind = .jack ∧ k = (if st = .locked then .destress else .stress)) : beginKind kind st = some k := by
  obtain ⟨rfl, rfl⟩ | ⟨rfl, rfl⟩ | ⟨rfl, rfl⟩ := h
  · rfl
  · rfl
  · exact (apply_ite some _ _ _).symm

theorem State.boundTo_eq_none {s : State} {station n : Nat}
    (hfree : ∀ c x, (s.stationAt station).ctx = some c → s.ctxAt c = some x → x.slot ≠ n) : s.boundTo station n = none := by
  by_contra hne
  obtain ⟨c, hc⟩ := Option.ne_none_iff_exists'.1 hne
  obtain ⟨hctx, x, hx, hslot⟩ := State.boundTo_eq_some_iff.1 hc
  exact hfree c x hctx hx hslot

/-- Settles O14: each request comes to the checks of Table 3-3, and the first that fails answers. -/
theorem bindingIsRefusedByTheFirstFailingCheck : Obligations.BindingIsRefusedByTheFirstFailingCheck := by
  refine ⟨?_, fun h slot rev station s hs hslot => ⟨execResume_badStation hs slot rev, ?_⟩, fun h row bay s hs => ⟨?_, ?_⟩⟩
  · intro cmd h q k slot station resumed s r res hcmd hs hslot h1 h2 hr hres
    obtain ⟨rfl, rfl, rfl⟩ | ⟨rfl, rfl, rfl, hheld, hkind⟩ := hcmd
    · rw [execStart_served hs k hslot ⟨h1, h2⟩ hr]
      exact hs.bindOwn hres slot
    · rw [execResume_served hs hslot ⟨h1, h2⟩ hr, hkind]
      simp only [if_pos hheld]
      exact hs.bindOwn hres slot
  · rintro n r rfl h1 h2 hr rfl hheld
    exact execResume_notHeld hs hslot ⟨h1, h2⟩ hr hheld
  · intro hout
    have hrange : decide (rowOk row ∧ bayOk bay) = false := by
      rw [decide_eq_false_iff_not, rowOk_iff, bayOk_iff]; omega
    exact hs.outOfRange hrange _
  · intro h1 h2 h3 h4
    rw [execBegin_served hs ⟨h1, h2⟩ ⟨h3, h4⟩]
    refine ⟨fun hn => ?_, fun n r c x hn hr hc hx hslot => ?_, fun n r kind hn hr hkind hfree => ⟨fun k1 k2 k3 => ?_,
      fun k res hk hres => ?_⟩⟩
    · rw [State.beginOwn, hn]
      exact hs.refused .noRecord []
    · simp only [State.beginOwn, hn, hr, State.boundTo_eq_some_iff.2 ⟨hc, x, hx, hslot⟩]
      exact hs.done s _
    · subst hkind
      simp only [State.beginOwn, hn, hr, State.boundTo_eq_none hfree, beginKind_eq_none k1 k2 k3]
      exact hs.refused .wrongKind []
    · subst hkind
      simp only [State.beginOwn, hn, hr, State.boundTo_eq_none hfree, beginKind_of_sender hk]
      exact hs.bindOwn hres n

end Sys2Proof.Machine
end

section
/-! CLASS_WRITE (R28 to R30, R183): its ranges, the staged part and the replaced entry. -/

namespace Sys2Proof.Machine

/-! ## Requests in parts (R183) -/

/-- A request in parts that is out of range answers BAD_VALUE with the part it brought. -/
theorem Served.partOutOfRange {s : State} {h : Ask} {q : Req} (hs : Served s h q) {inRange : Bool} (hr : inRange = false)
    (own : Ruling) (n : Nat) :
    s.take h q.code ((s.screen h q inRange own).part n) = .next (Answered s h q .badValue [.u8 n]) := by
  rw [State.screen, if_neg (by simp [hs.2]), if_pos hr]
  exact hs.refused .badValue [.u8 n]

theorem Served.partInRange {s : State} {h : Ask} {q : Req} (hs : Served s h q) {inRange : Bool} (hr : inRange = true)
    (own : Ruling) (n : Nat) : s.take h q.code ((s.screen h q inRange own).part n) = s.take h q.code (own.part n) := by
  rw [State.screen_pass hs.2 hr]

theorem refuse_part (s : State) (res : Result) (n : Nat) : (refuse s res).part n = refuseWith s res [.u8 n] := rfl
theorem done_part (t : State) (body : List Field) (n : Nat) : (done t body).part n = done t (.u8 n :: body) := rfl

/-! ## The ranges and the consistency of Table 2-1 (R28, R29) -/

theorem stagesOk_iff (stages : Option (List Nat)) : (stages.getD []).length ≤ 6 ∧ (stages.getD []).all (within 6 174) = true ↔
    ∀ l, stages = some l → l.length ≤ 6 ∧ ∀ k ∈ l, Ranged 6 174 k := by
  cases stages <;> simp [Ranged]

theorem partOneInRange_iff (f : ClassPart1) : ClassPart1.ok f = true ↔ PartOneInRange f := by
  unfold PartOneInRange
  rw [← stagesOk_iff]
  simp only [ClassPart1.ok, decide_eq_true_eq, within_iff, withinOpt_iff, Ranged, RangedIf, and_assoc]

theorem partTwoInRange_iff (f : ClassPart2) : ClassPart2.ok f = true ↔ PartTwoInRange f := by
  simp only [ClassPart2.ok, PartTwoInRange, decide_eq_true_eq, within_iff, withinOpt_iff, Ranged, RangedIf, and_assoc]

theorem entryConsistent_iff (e : ClassEntry) : ClassEntry.consistent e = true ↔ EntryConsistent e := by
  simp only [ClassEntry.consistent, EntryConsistent, decide_eq_true_eq, List.all_eq_true, Config.maxLoad]

/-! ## The records of a class (R30, R31) -/

theorem State.classInUse_iff {s : State} (hw : s.tbc.slots.wf) {cls : Nat} :
    s.classInUse cls = true ↔ ∃ n r, s.recAt n = some r ∧ r.cls = cls ∧ r.state.isWork = true := by
  unfold State.classInUse
  rw [List.any_eq_true]
  constructor
  · rintro ⟨⟨n, z⟩, hmem, hany⟩
    obtain ⟨r, hr, hcls⟩ := (Option.any_eq_true ..).1 hany
    exact ⟨n, r, (s.recAt_eq_recIn n).trans ((recIn_eq_some hw).2 ⟨z, hmem, hr⟩), of_decide_eq_true hcls⟩
  · rintro ⟨n, r, hr, hcls⟩
    obtain ⟨z, hmem, hz⟩ := (recIn_eq_some hw).1 ((s.recAt_eq_recIn n).symm.trans hr)
    exact ⟨(n, z), hmem, by simp [hz, hcls]⟩

/-! ## The replaced entry (R30) -/

theorem State.setClass_eq (s : State) (c : Nat) (e : Option ClassEntry) : s.setClass c e = { s with
    tbc := { s.tbc with classes := (s.setClass c e).tbc.classes, staged := none }
    isi := if s.classAt c = e then s.isi else s.isi.handed [.header] } := by
  unfold State.setClass
  dsimp only
  split
  · rfl
  · rw [State.hand_eq]; rfl

theorem State.classAt_setClass (s : State) (c : Nat) (e : Option ClassEntry) (d : Nat) :
    (s.setClass c e).classAt d = if d = c then e else s.classAt d := by
  unfold State.setClass
  dsimp only
  split
  · next h =>
    split
    · next hd => rw [hd]; exact h
    · rfl
  · rw [State.hand_eq]
    split
    · next hd => rw [hd]; exact Table.get?_set_same _ _ _
    · next hd => exact Table.get?_set_ne _ _ _ _ hd

theorem State.setClass_onlyIn (s : State) (c : Nat) (e : Option ClassEntry) : OnlyIn [.tbc, .isi] s (s.setClass c e) := by
  rw [State.setClass_eq]
  intro b hb
  cases b <;> simp_all [Block.agrees]

/-- What a whole CLASS_WRITE comes to once its entry is formed. -/
theorem execClassWrite_own {s : State} {h : Ask} (hs : Served s h .classWrite) {cls part : Nat} {form : ClassForm}
    {entry : Option ClassEntry} (hcls : cls < 16)
    (hform : form = .unset ∧ entry = none ∧ part = 1 ∨ part = 2 ∧ ∃ p f, form = .part2 f ∧ PartTwoInRange f ∧
      s.tbc.staged = some (cls, p) ∧ EntryConsistent (joinParts p f) ∧ entry = some (joinParts p f)) :
    exec (.classWrite h cls form) s = s.take h Req.classWrite.code ((s.classOwn cls entry).part part) := by
  obtain ⟨rfl, rfl, rfl⟩ | ⟨rfl, p, f, rfl, hf, hstaged, hcons, rfl⟩ := hform
  · exact hs.partInRange (decide_eq_true ⟨classOk_iff.2 hcls, rfl⟩) _ _
  · refine (hs.partInRange (decide_eq_true ⟨classOk_iff.2 hcls, (partTwoInRange_iff f).2 hf⟩) _ _).trans ?_
    simp only [State.classFormOwn, State.classPart2, hstaged, (entryConsistent_iff _).2 hcons, ne_eq, not_true,
      if_true, if_false]
    rfl

theorem classWrite_taken {s : State} {h : Ask} (hs : Served s h .classWrite) (cls part : Nat) (entry : Option ClassEntry) :
    ∃ t, s.take h Req.classWrite.code ((done (s.setClass cls entry) []).part part) = .next t ∧ t.classAt cls = entry ∧
      (∀ d, d ≠ cls → t.classAt d = s.classAt d) ∧ t.tbc = { s.tbc with classes := t.tbc.classes, staged := none } ∧
      t.isi = (if s.classAt cls = entry then s.isi else s.isi.handed [.header]) ∧
      t.bmu = s.bmu.answering h (answerTo .classWrite .done [.u8 part]) ∧ OnlyIn [.tbc, .isi, .bmu] s t := by
  have honly := s.setClass_onlyIn cls entry
  refine ⟨_, hs.done _ _, (s.classAt_setClass cls entry cls).trans (if_pos rfl),
    fun d hd => (s.classAt_setClass cls entry d).trans (if_neg hd), congrArg State.tbc (s.setClass_eq cls entry),
    congrArg State.isi (s.setClass_eq cls entry), State.answeredDone_bmu (honly .bmu (by decide)) h _ _,
    honly.answeredDone (by decide) _ _ _⟩

/-- Settles O27: each form of CLASS_WRITE, by its ranges, the staged part, the consistency and the use of its class. -/
theorem classWriteReplacesTheWholeEntry : Obligations.ClassWriteReplacesTheWholeEntry := by
  refine fun h cls s hs => ⟨fun part hbad => ?_, fun part hcls hpart => ?_, fun hcls => ?_, fun f hbad => ?_,
    fun f hcls hf => ⟨fun hnone => ?_, fun p hstaged hcons => ?_⟩, fun form entry part hcls ht hform => ⟨fun huse => ?_,
    fun hfree => ?_⟩⟩
  · have hrange : decide (classOk cls ∧ ClassPart1.ok part) = false := by
      rw [decide_eq_false_iff_not, classOk_iff, partOneInRange_iff]
      exact fun ⟨h1, h2⟩ => hbad.elim (Nat.not_le.2 h1) (absurd h2)
    exact hs.partOutOfRange hrange _ 1
  · refine (hs.partInRange (decide_eq_true ⟨classOk_iff.2 hcls, (partOneInRange_iff part).2 hpart⟩) _ 1).trans ?_
    exact hs.done _ _
  · have hrange : decide (classOk cls ∧ classFormOk .unset) = false := by
      rw [decide_eq_false_iff_not, classOk_iff]; omega
    exact hs.partOutOfRange hrange _ 1
  · have hrange : decide (classOk cls ∧ classFormOk (.part2 f)) = false := by
      rw [decide_eq_false_iff_not, classOk_iff, classFormOk, partTwoInRange_iff]
      exact fun ⟨h1, h2⟩ => hbad.elim (Nat.not_le.2 h1) (absurd h2)
    exact hs.partOutOfRange hrange _ 2
  · refine (hs.partInRange (decide_eq_true ⟨classOk_iff.2 hcls, (partTwoInRange_iff f).2 hf⟩) _ 2).trans ?_
    have hown : s.classFormOwn cls (.part2 f) = refuse s .wrongState := by
      rw [State.classFormOwn, State.classPart2]
      split
      · rfl
      · next d p hstaged => exact if_pos fun e : d = cls => hnone p (e ▸ hstaged)
    rw [hown]
    exact hs.refused .wrongState [.u8 2]
  · refine (hs.partInRange (decide_eq_true ⟨classOk_iff.2 hcls, (partTwoInRange_iff f).2 hf⟩) _ 2).trans ?_
    have hown : s.classFormOwn cls (.part2 f) = refuse s .badValue := by
      simp [State.classFormOwn, State.classPart2, hstaged, mt (entryConsistent_iff _).1 hcons]
    rw [hown]
    exact hs.refused .badValue [.u8 2]
  · rw [execClassWrite_own hs hcls hform, State.classOwn, if_pos ((State.classInUse_iff ht.1).2 huse)]
    exact hs.refused .inUse [.u8 part]
  · have hunused : ¬ s.classInUse cls = true := fun huse => by
      obtain ⟨n, r, hr, hc, hwork⟩ := (State.classInUse_iff ht.1).1 huse
      rw [hfree n r hr hc] at hwork
      cases hwork
    rw [execClassWrite_own hs hcls hform, State.classOwn, if_neg hunused]
    exact classWrite_taken hs cls part entry

end Sys2Proof.Machine
end

section
/-! SITE_WRITE (R34, R38, R65): its ranges, its two own checks, and the settings it leaves. -/

namespace Sys2Proof.Machine

/-! ## The ranges (R34) -/

theorem Vector.all_toList_iff {α : Type} {n : Nat} {v : Vector α n} {p : α → Bool} :
    v.toList.all p = true ↔ ∀ i : Fin n, p v[i] = true := by
  rw [List.all_eq_true]
  constructor
  · exact fun h i => h _ (by simp)
  · intro h a ha
    obtain ⟨i, hi, rfl⟩ := List.getElem_of_mem ha
    have hin : i < n := by simpa using hi
    simpa using h ⟨i, hin⟩

theorem inputCodesOk_iff (y : InputCodes) : InputCodes.ok y = true ↔ 1 ≤ y.enable ∧ y.enable ≤ 2 ∧ 1 ≤ y.polarity ∧
    y.polarity ≤ 2 ∧ y.filter ≤ 3 ∧ 1 ≤ y.function ∧ y.function ≤ 4 := by
  simp only [InputCodes.ok, decide_eq_true_eq, within_iff, codeOk_iff, Contact.all, InputFunction.all, List.length_cons,
    List.length_nil, and_assoc]

theorem scaleOk_iff (mode : StartMode) (n : Nat) :
    scaleOk mode n = true ↔ n = 1 ∨ mode = .commission ∧ (n = 10 ∨ n = 60) := decide_eq_true_iff

theorem siteInRange_iff (x : SiteItems) (mode : StartMode) : SiteItems.ok x mode = true ↔ SiteInRange x mode := by
  simp only [SiteItems.ok, SiteInRange, decide_eq_true_eq, withinOpt_iff, Vector.all_toList_iff, Option.all_eq_true,
    inputCodesOk_iff, scaleOk_iff]

/-! ## The own checks (R38, R65) -/

/-- The model's test of a span finds the near pairs of the bound contexts. -/
theorem State.spanConflicts_eq (s : State) (span : Nat) : s.spanConflicts span = pairAtSpan s span := by
  unfold State.spanConflicts pairAtSpan
  rw [Bool.eq_iff_iff, List.any_eq_true, List.any_eq_true]
  refine exists_congr fun p => and_congr_right fun _ => ?_
  cases s.recAt p.2.slot with
  | none => simp
  | some r =>
    rw [List.any_eq_true, List.any_eq_true]
    refine exists_congr fun q => and_congr_right fun _ => ?_
    simp only [State.excludes_eq, Option.any_some]
    simp [and_assoc]

/-! ## The list re-levelled (R138, R141) -/

/-- A telling changes the attention list alone. -/
theorem State.tell_onlyIn (s : State) (subj : Subject) (c : Cond) : OnlyIn [.atu] s (s.tell subj c) := by
  unfold State.tell State.tellAt
  split
  · exact OnlyIn.refl _ s
  · intro b hb; cases b <;> simp_all [Block.agrees]

theorem State.relevel_onlyIn (s : State) (c : Cond) (level : Nat) : OnlyIn [.atu] s (s.relevel c level) := by
  have h : OnlyIn [.atu] s { s with
      atu := ({ s.atu with entries := relevelEntries s.atu.entries c level }).sound s.tbc.site.alarm } := fun b hb => by
    cases b <;> simp_all [Block.agrees]
  unfold State.relevel
  dsimp only
  split
  · exact h
  · refine h.trans (OnlyIn.foldl (fun t subj => ?_) _ _)
    split
    · exact t.tell_onlyIn subj c
    · exact OnlyIn.refl _ t

theorem State.siteLevels_onlyIn (s : State) (x : SiteItems) : OnlyIn [.atu] (s.siteValues x) (s.siteLevels x) := by
  have h := OnlyIn.foldl (f := fun t (p : Cond × Nat) => t.relevel p.1 p.2) (fun t p => t.relevel_onlyIn p.1 p.2)
    (changedLevels s.tbc.site (SiteItems.apply x s.tbc.site)) (s.siteValues x)
  refine h.trans fun b hb => ?_
  cases b <;> simp_all [Block.agrees, State.siteLevels]

/-- ALM is asserted exactly while an entry stands at or above the alarm threshold (R141). -/
def State.AlmFollows (s : State) : Prop := s.atu.alm = true ↔ ∃ e ∈ s.atu.entries, s.tbc.site.alarm ≤ e.level

theorem State.AlmFollows.congr {s t : State} (h : s.AlmFollows) (hatu : t.atu = s.atu)
    (halarm : t.tbc.site.alarm = s.tbc.site.alarm) : t.AlmFollows := by
  unfold State.AlmFollows
  rw [hatu, halarm]
  exact h

theorem State.AlmFollows.tell {s : State} (h : s.AlmFollows) (subj : Subject) (c : Cond) : (s.tell subj c).AlmFollows := by
  unfold State.tell State.tellAt
  split
  · exact h
  · exact Atu.sound_alm _ _

theorem State.AlmFollows.followStop {s : State} (h : s.AlmFollows) : s.followStop.AlmFollows := by
  unfold State.followStop
  split
  · unfold State.beginStop
    dsimp only
    split
    · refine State.AlmFollows.tell (h.congr ?_ ?_) _ _ <;> rfl
    · exact h.congr rfl rfl
  · exact h

theorem State.siteLevels_almFollows (s : State) (x : SiteItems) : (s.siteLevels x).AlmFollows := by
  unfold State.AlmFollows
  rw [State.siteLevels_tbc]
  exact Atu.sound_alm _ _

theorem State.siteApply_almFollows (s : State) (x : SiteItems) : (s.siteApply x).AlmFollows := by
  have h : ∀ v, ((s.siteLevels x).changeInputs v).AlmFollows := fun v =>
    (State.AlmFollows.followStop (s := { s.siteLevels x with ifu := { (s.siteLevels x).ifu with inputs := v } })
      ((s.siteLevels_almFollows x).congr rfl rfl)).congr rfl rfl
  rw [State.siteApply_eq]
  dsimp only
  split
  · exact h _
  · exact (h _).congr (State.hand_atu _ _) (by rw [State.hand_tbc])

/-! ## The event of a taken SITE_WRITE (R34) -/

theorem State.siteApply_wck (s : State) (x : SiteItems) :
    (s.siteApply x).wck = { s.wck with scale := x.scale.getD s.wck.scale } := by
  have h : (s.siteLevels x).wck = { s.wck with scale := x.scale.getD s.wck.scale } := s.siteLevels_onlyIn x .wck (by decide)
  rw [State.siteApply_eq]
  dsimp only
  split <;> simp [h]

theorem State.siteApply_isi (s : State) (x : SiteItems) : (s.siteApply x).isi =
    if SiteItems.apply x s.tbc.site = s.tbc.site ∧ x.scale.getD s.wck.scale = s.wck.scale then s.isi
    else s.isi.handed [.header] := by
  have h : (s.siteLevels x).isi = s.isi := s.siteLevels_onlyIn x .isi (by decide)
  rw [State.siteApply_eq]
  dsimp only
  split <;> simp [h]

theorem State.hand_onlyIn (s : State) (i : Item) : OnlyIn [.isi] s (s.hand i) := fun b hb => by
  cases b <;> simp_all [Block.agrees]

theorem State.changeInputs_onlyIn (s : State) (v : Vector Input 4) : OnlyIn [.ifu, .atu, .cxp, .bmu] s (s.changeInputs v) :=
  fun b hb => by cases b <;> simp_all [Block.agrees]

theorem State.siteApply_onlyIn (s : State) (x : SiteItems) :
    OnlyIn [.tbc, .wck, .atu, .cxp, .ifu, .isi, .bmu] s (s.siteApply x) := by
  have hvalues : OnlyIn [.tbc, .wck] s (s.siteValues x) := fun b hb => by cases b <;> simp_all [Block.agrees, State.siteValues]
  have hlevels : OnlyIn [.tbc, .wck, .atu, .cxp, .ifu, .isi, .bmu] s (s.siteLevels x) :=
    (hvalues.mono (by decide)).trans ((s.siteLevels_onlyIn x).mono (by decide))
  have hinputs := fun v => hlevels.trans (((s.siteLevels x).changeInputs_onlyIn v).mono (by decide))
  rw [State.siteApply_eq]
  dsimp only
  split
  · exact hinputs _
  · exact (hinputs _).trans ((State.hand_onlyIn _ _).mono (by decide))

/-- The settings of an input that its codes name (Table 8-1). -/
theorem inputSettings_of_ok {y : InputCodes} (h : InputCodes.ok y = true) :
    ((InputCodes.settings y).enabled = true ↔ y.enable = 1) ∧ ((InputCodes.settings y).asserts = .opened ↔ y.polarity = 1) ∧
      (InputCodes.settings y).filter = y.filter ∧ codeIn InputFunction.all (InputCodes.settings y).function = y.function := by
  simp only [InputCodes.ok, decide_eq_true_eq] at h
  obtain ⟨-, hpol, -, hfun⟩ := h
  obtain ⟨p, hp⟩ := Option.isSome_iff_exists.1 hpol
  obtain ⟨f, hf⟩ := Option.isSome_iff_exists.1 hfun
  have hpcode := ((ofCode_eq_some_iff (by decide)).1 hp).2
  have hfcode := ((ofCode_eq_some_iff (by decide)).1 hf).2
  refine ⟨decide_eq_true_iff, ?_, rfl, ?_⟩
  · have hasserts : (InputCodes.settings y).asserts = p := by rw [InputCodes.settings, hp]; rfl
    rw [hasserts, hpcode]
    cases p <;> decide
  · rw [InputCodes.settings, hf]
    exact hfcode.symm

/-- The settings of an input after a write: those its codes name, or those it had. -/
theorem SiteItems.apply_inputs (x : SiteItems) (site : SiteSettings) (i : Fin 4) :
    (SiteItems.apply x site).inputs[i] = ((x.inputs[i]).map InputCodes.settings).getD site.inputs[i] := by
  simp [SiteItems.apply]

theorem SiteItems.apply_levels (x : SiteItems) (site : SiteSettings) (i : Fin 17) :
    (SiteItems.apply x site).levels[i] = (x.levels[i]).getD site.levels[i] := by
  simp [SiteItems.apply]

/-- A SITE_WRITE in range comes to its two own checks. -/
theorem execSiteWrite_served {s : State} {h : Ask} {x : SiteItems} (hs : Served s h .siteWrite)
    (hx : SiteInRange x s.sys.mode) : exec (.siteWrite h x) s = s.take h Req.siteWrite.code (s.siteOwn x) :=
  hs.inRange ((siteInRange_iff x s.sys.mode).2 hx) _

/-- The model's test of a carried span (R38). -/
theorem spanRefused_eq (s : State) (x : SiteItems) : x.span.any (fun n => s.tbc.site.span < n ∧ s.spanConflicts n) =
    x.span.any (fun n => decide (s.tbc.site.span < n) && pairAtSpan s n) := by
  simp [State.spanConflicts_eq]

/-- The part after a taken SITE_WRITE. -/
def State.siteTaken (s : State) (h : Ask) (x : SiteItems) : State :=
  (s.siteApply x).answer h (answerTo .siteWrite .done [])
    (if s.ifu.stop.isNone ∧ (s.siteApply x).ifu.stop.isSome then .allstop else .nothing)

theorem State.siteTaken_onlyIn (s : State) (h : Ask) (x : SiteItems) :
    OnlyIn [.tbc, .wck, .atu, .cxp, .ifu, .isi, .bmu] s (s.siteTaken h x) := fun b hb => by
  have hst := s.siteApply_onlyIn x b hb
  cases b with
  | bmu => exact absurd (by decide) hb
  | _ => exact hst

/-- Settles O28: the ranges, the two own checks, and what the taken event makes of each block. -/
theorem siteWriteSetsTheCarriedSettings : Obligations.SiteWriteSetsTheCarriedSettings := by
  refine fun h x s hs => ⟨fun hbad => ?_, fun hx conflict inUse hconflict hinUse => ⟨fun hc => ?_, fun hc hu => ?_,
    fun hc hu => ?_⟩⟩
  · have hrange : SiteItems.ok x s.sys.mode = false := by rw [← Bool.not_eq_true, siteInRange_iff]; exact hbad
    exact hs.outOfRange hrange _
  · rw [execSiteWrite_served hs hx, State.siteOwn, if_pos (by rw [spanRefused_eq, ← hconflict, hc])]
    exact hs.refused .conflict []
  · have huse : x.scale.any (fun n => n ≠ s.wck.scale) ∧ s.scaleInUse := by
      rw [hinUse, Bool.and_eq_true] at hu; exact hu
    rw [execSiteWrite_served hs hx, State.siteOwn, if_neg (by rw [spanRefused_eq, ← hconflict, hc]; decide), if_pos huse]
    exact hs.refused .inUse []
  · have hfree : ¬ (x.scale.any (fun n => n ≠ s.wck.scale) ∧ s.scaleInUse) := by
      rw [hinUse, ← Bool.not_eq_true, Bool.and_eq_true] at hu; exact hu
    have htaken : exec (.siteWrite h x) s = .next (s.siteTaken h x) := by
      rw [execSiteWrite_served hs hx, State.siteOwn, if_neg (by rw [spanRefused_eq, ← hconflict, hc]; decide),
        if_neg hfree, State.take_taken hs.1]
      rfl
    have htbc : (s.siteTaken h x).tbc = { s.tbc with site := SiteItems.apply x s.tbc.site } := s.siteApply_tbc x
    have hwck : (s.siteTaken h x).wck = { s.wck with scale := x.scale.getD s.wck.scale } := s.siteApply_wck x
    refine ⟨s.siteTaken h x, htaken, ?_⟩
    rw [htbc, hwck]
    refine ⟨rfl, rfl, rfl, rfl, rfl, rfl, SiteItems.apply_levels x _, fun i hi => ?_, fun i y hi => ?_, rfl, rfl, rfl, rfl,
      s.siteApply_isi x, ?_, ?_, rfl, s.siteTaken_onlyIn h x⟩
    · rw [SiteItems.apply_inputs, hi]; rfl
    · obtain ⟨-, -, -, -, hinputs, -⟩ := hx
      rw [SiteItems.apply_inputs, hi]
      exact inputSettings_of_ok ((inputCodesOk_iff y).2 (hinputs i y hi))
    · have halm := s.siteApply_almFollows x
      rw [State.AlmFollows, State.siteApply_tbc] at halm
      exact halm
    · refine congrArg (Exchange.answer h _) (if_congr ?_ rfl rfl)
      rw [Option.isNone_iff_eq_none, Option.isSome_iff_ne_none]
      rfl

end Sys2Proof.Machine
end

section
/-! The reads (R31, R35, R92, R140, R153, R163): what stands is answered, and nothing changes. -/

namespace Sys2Proof.Machine

/-! ## CLASS_READ (R31) -/

/-- The records of a class, counted along the table or slot by slot. -/
theorem State.classCount_eq {s : State} (ht : TableLaw s) (cls : Nat) : s.classCount cls =
    ((List.range 512).filter (fun n => (s.recAt n).any (fun r => decide (r.cls = cls)))).length := by
  obtain ⟨hw, -, hplace, -⟩ := ht
  have hslots := Table.countP_range hw 0 512 fun z : Slot => z.rec?.any fun r => decide (r.cls = cls)
  rw [← List.countP_eq_length_filter]
  have hbys : List.countP (fun n => (s.recAt n).any (fun r => decide (r.cls = cls))) (List.range 512) =
      List.countP (fun i => (s.tbc.slots.get? (0 + i)).any fun z : Slot => z.rec?.any fun r => decide (r.cls = cls))
        (List.range 512) := by
    refine List.countP_congr fun n _ => ?_
    rw [State.recAt_eq_recIn, recIn, Nat.zero_add]
    cases s.tbc.slots.get? n <;> rfl
  rw [hbys, hslots, State.classCount]
  refine List.countP_congr fun p hp => ?_
  cases hr : p.2.rec? with
  | none => simp
  | some r =>
    have hlt := (hplace p.1 r ((s.recAt_eq_recIn p.1).trans ((recIn_eq_some hw).2 ⟨p.2, hp, hr⟩))).1
    simp [hlt]

theorem State.classFigures {s : State} (ht : TableLaw s) (cls : Nat) :
    ClassFigures s cls (s.classInUse cls) (s.classCount cls) := ⟨State.classInUse_iff ht.1, State.classCount_eq ht cls⟩

theorem State.classBody_eq (s : State) (cls : Nat) {part : Nat} (h1 : 1 ≤ part) (h2 : part ≤ 3) :
    s.classBody cls part = classAnswer (s.classAt cls) (s.classInUse cls) (s.classCount cls) part := by
  unfold State.classBody classAnswer
  obtain rfl | rfl | rfl : part = 1 ∨ part = 2 ∨ part = 3 := by omega
  all_goals cases s.classAt cls <;> rfl

/-! ## CAL_READ (R92) -/

theorem State.calBody_eq (s : State) (n : Nat) {part : Nat} (h1 : 1 ≤ part) (h2 : part ≤ 2) (pressure load : Option Nat) :
    s.calBody part n pressure load = calAnswer s n part pressure load := by
  obtain rfl | rfl : part = 1 ∨ part = 2 := by omega
  · rfl
  · rfl

theorem calReadOk_iff {part n : Nat} {pressure load : Option Nat} :
    (within 1 2 part ∧ rigOk n ∧ withinOpt 0 Config.maxPressure pressure ∧ withinOpt 0 Config.maxLoad load) ↔
      (1 ≤ part ∧ part ≤ 2) ∧ (1 ≤ n ∧ n < 16) ∧ (∀ p, pressure = some p → p ≤ 100000) ∧ ∀ l, load = some l → l ≤ 30000 := by
  simp only [within_iff, rigOk_iff, withinOpt_iff, Config.maxPressure, Config.maxLoad, Nat.zero_le, true_and]

/-! ## INPUT_READ and LINE_READ (R153, R163) -/

theorem inputFields_eq (set : InputSettings) (inp : Input) : inputFields set inp = inputAnswer set inp := by
  simp [inputFields, inputAnswer, InputSettings.fields, inputAsserted]

theorem State.inputBody_eq (s : State) : s.inputBody = inputsAnswer s := by
  unfold State.inputBody inputsAnswer
  simp only [inputFields_eq]
  cases s.ifu.stop <;> cases s.ifu.key <;> rfl

theorem lineOf_code (l : LineId) : lineOf (codeIn LineId.all l) = l := by cases l <;> rfl

/-! ## ATTENTION_READ (R140) -/

/-- Along a list the greatest level so far is at or above what it was and every level met, and is one of them. -/
theorem foldl_max_level_spec (l : List Entry) (m : Nat) :
    m ≤ l.foldl (fun m e => max m e.level) m ∧ (∀ e ∈ l, e.level ≤ l.foldl (fun m e => max m e.level) m) ∧
      (l.foldl (fun m e => max m e.level) m = m ∨ ∃ e ∈ l, e.level = l.foldl (fun m e => max m e.level) m) := by
  induction l generalizing m with
  | nil => exact ⟨Nat.le_refl m, nofun, .inl rfl⟩
  | cons x l ih =>
    obtain ⟨hbase, hall, hone⟩ := ih (max m x.level)
    rw [List.foldl_cons]
    refine ⟨le_trans (le_max_left _ _) hbase, List.forall_mem_cons.2 ⟨le_trans (le_max_right _ _) hbase, hall⟩, ?_⟩
    rcases hone with heq | ⟨e, he, hlevel⟩
    · rw [heq]
      rcases max_choice m x.level with h | h
      · exact .inl h
      · exact .inr ⟨x, List.mem_cons_self, h.symm⟩
    · exact .inr ⟨e, List.mem_cons_of_mem _ he, hlevel⟩

/-- The highest level of a list is at or above every level of it, and is one of them unless it is 0. -/
theorem highestLevel_spec (l : List Entry) :
    (∀ e ∈ l, e.level ≤ highestLevel l) ∧ (highestLevel l = 0 ∨ ∃ e ∈ l, e.level = highestLevel l) :=
  (foldl_max_level_spec l 0).2

theorem execAttentionRead_served {s : State} {h : Ask} (hs : Served s h .attentionRead) {start : Nat} (hstart : start ≤ 63)
    (reset : Bool) : exec (.attentionRead h start reset) s = .next { s with
      atu := { s.atu with overflow := if reset then 0 else s.atu.overflow }
      bmu := s.bmu.answering h (answerTo .attentionRead .done (s.atu.page start)) } := by
  have hrange : decide (start < Config.attentionSize) = true := decide_eq_true (Nat.lt_succ_of_le hstart)
  refine (hs.inRange hrange _).trans ((hs.done _ _).trans ?_)
  cases reset <;> rfl

/-- Settles O30: each read in range answers what stands, and each out of range BAD_VALUE. -/
theorem readsAnswerAndChangeNothing : Obligations.ReadsAnswerAndChangeNothing := by
  refine fun h s => ⟨fun hs => ?_, fun cls part hs hcls h1 h3 => ?_, fun cls part hs hbad => ?_,
    fun n part pressure load hs hbad => ?_, fun n hs hn => ?_, fun n hs hn => ?_,
    fun n part pressure load hs h1 h15 hp1 hp2 hp hl => ?_, fun hs => ?_, fun n hs hn => ?_, fun l hs => ?_,
    fun start reset hs => ⟨fun hbad => ?_, fun hstart => ?_⟩⟩
  · exact (hs.inRange rfl _).trans (hs.refused .done _)
  · refine ⟨_, _, ?_, fun ht => State.classFigures ht cls⟩
    rw [← State.classBody_eq s cls h1 h3]
    exact (hs.partInRange (decide_eq_true ⟨classOk_iff.2 hcls, within_iff.2 ⟨h1, h3⟩⟩) _ _).trans (hs.refused .done _)
  · have hrange : decide (classOk cls ∧ within 1 3 part) = false := by
      rw [decide_eq_false_iff_not, classOk_iff, within_iff]; omega
    exact hs.partOutOfRange hrange _ _
  · refine hs.partOutOfRange (decide_eq_false fun hok => ?_) _ _
    obtain ⟨hpart, hn, hp, hl⟩ := calReadOk_iff.1 hok
    rcases hbad with hb | hb | hb | hb | ⟨p, e, hb⟩ | ⟨l, e, hb⟩
    · omega
    · omega
    · omega
    · omega
    · exact absurd (hp p e) (by omega)
    · exact absurd (hl l e) (by omega)
  · exact hs.outOfRange (decide_eq_false (Nat.not_lt.2 hn)) _
  · have hrange : codeOk LineId.all n = false := by
      rw [← Bool.not_eq_true, codeOk_iff, LineId.all, List.length_cons, List.length_singleton]; omega
    exact hs.outOfRange hrange _
  · rw [← State.calBody_eq s n hp1 hp2]
    refine (hs.partInRange (decide_eq_true (calReadOk_iff.2 ⟨⟨hp1, hp2⟩, ⟨h1, by omega⟩, hp, hl⟩)) _ _).trans ?_
    exact hs.refused .done _
  · rw [← State.inputBody_eq]
    exact (hs.inRange rfl _).trans (hs.refused .done _)
  · exact (hs.inRange (decide_eq_true hn) _).trans (hs.refused .done _)
  · have hrange : codeOk LineId.all (codeIn LineId.all l) = true := by cases l <;> rfl
    refine (hs.inRange hrange _).trans ?_
    rw [lineOf_code]
    exact hs.refused .done _
  · exact hs.outOfRange (decide_eq_false (Nat.not_lt.2 hbad)) _
  · exact ⟨_, execAttentionRead_served hs hstart reset, highestLevel_spec _⟩

end Sys2Proof.Machine
end

section
/-! Requests that end or close the work on a record (R53 to R56, R75, R76, R83, R85, R123): what a release leaves, said once, and
ABORT, CLOSE and END. -/

namespace Sys2Proof.Machine

/-! ## A release (R53, R54) -/

/-- An event that reached the stations alone on the works bus, and its ANSWER. -/
theorem State.answeredDone_stations {s t : State} (hbmu : t.bmu = { s.bmu with stations := t.bmu.stations }) (h : Ask)
    (q : Req) (body : List Field) : (t.answeredDone h q body).bmu =
      { s.bmu with stations := (t.answeredDone h q body).bmu.stations }.answering h (answerTo q .done body) :=
  State.answeredDone_bmu (s := { s with bmu := { s.bmu with stations := t.bmu.stations } }) hbmu h q body

section
variable {s : State} {c : Nat} {x : Context} {r : Record}

/-- A release writes the fields that end the work in one update, and tells of the conditions it raises (R53, R54). -/
theorem State.release_endsWork (hlt : x.station < 16) (hr : s.recAt x.slot = some r) (p : Parting) (st : Nat) (cs : List Cond)
    {f : Record → Record} (hconds : (f r).conds = r.conds) (hne : (f r).state ≠ r.state) :
    EndsWork s ((s.freeCtx c x p).updateRaising x.slot st cs f) c x p st cs r (f r) := by
  have hf : { f r with conds := addConds cs (f r).conds } ≠ r := fun e => by
    have hstate := congrArg Record.state e
    exact hne hstate
  have hr' : (s.freeCtx c x p).recAt x.slot = some r := hr
  have hslot := State.update_slotIs (f := fun q => { f q with conds := addConds cs (f q).conds }) hr' st hf
  rw [hconds] at hslot
  have hstation (m : Nat) : ((s.freeCtx c x p).updateRaising x.slot st cs f).stationAt m = (s.freeCtx c x p).stationAt m :=
    State.stationAt_congr (by simp) m
  have hctx (d : Nat) : ((s.freeCtx c x p).updateRaising x.slot st cs f).ctxAt d = (s.freeCtx c x p).ctxAt d := by
    simp only [State.ctxAt, State.updateRaising_cxp]
  have hparting : ((s.freeCtx c x p).updateRaising x.slot st cs f).cxp.parting = s.cxp.parting.put x.station p := by
    rw [State.updateRaising_cxp]; rfl
  refine ⟨?_, fun d hd => ?_, ?_, fun m hm => ?_, ?_, fun m hm => ?_, ?_, ?_, ?_⟩
  · rw [hctx, State.ctxAt_freeCtx_same]
  · rw [hctx, State.ctxAt_freeCtx_ne _ _ _ _ _ hd]
  · rw [hparting, Table.get?_put_same]
  · rw [hparting, Table.get?_put_ne _ _ _ _ hm]
  · rw [hstation, State.freeCtx_stationAt, if_pos ⟨rfl, hlt⟩]
  · rw [hstation, State.freeCtx_stationAt, if_neg fun e => hm e.1]
  · obtain ⟨hown, hother, htbc⟩ := hslot
    have hsame (m : Nat) := State.slotAt_congr (s := (s.freeCtx c x p).update x.slot st
      fun q => { f q with conds := addConds cs (f q).conds }) (congrArg Tbc.slots (State.updateRaising_tbc _ _ st cs f)) m
    exact ⟨(hsame _).trans hown, fun m hm => (hsame m).trans (hother m hm), by rw [State.updateRaising_tbc]; exact htbc⟩
  · rw [State.updateRaising_isi, State.update_isi_eq (f := fun q => { f q with conds := addConds cs (f q).conds }) hr' st hf,
      State.freeCtx_isi]
  · exact State.updateRaising_atu hr' rfl rfl rfl st cs f

/-- It reaches the works bus at the bound station alone. -/
theorem State.release_bmu (p : Parting) (n st : Nat) (cs : List Cond) (f : Record → Record) :
    ((s.freeCtx c x p).updateRaising n st cs f).bmu =
      { s.bmu with stations := ((s.freeCtx c x p).updateRaising n st cs f).bmu.stations } := by
  rw [State.updateRaising_bmu]; rfl

theorem State.release_onlyIn (p : Parting) (n st : Nat) (cs : List Cond) (f : Record → Record) :
    OnlyIn [.tbc, .cxp, .isi, .atu, .bmu] s ((s.freeCtx c x p).updateRaising n st cs f) := fun b hb => by
  cases b <;> simp_all [Block.agrees]

/-- A release that raises nothing leaves the attention list. -/
theorem State.release_onlyIn_nil (p : Parting) (n st : Nat) (f : Record → Record) :
    OnlyIn [.tbc, .cxp, .isi, .bmu] s ((s.freeCtx c x p).update n st f) := fun b hb => by
  cases b <;> simp_all [Block.agrees]

/-- The revision and the state of a record whose work has ended. -/
theorem EndsWork.slot {t : State} {p : Parting} {st : Nat} {cs : List Cond} {r' : Record}
    (h : EndsWork s t c x p st cs r r') : t.slotAt x.slot = stepped s x.slot st { r' with conds := addConds cs r.conds } := by
  obtain ⟨-, -, -, -, -, -, ⟨hown, -, -⟩, -, -⟩ := h
  exact hown

theorem EndsWork.revAt {t : State} {p : Parting} {st : Nat} {cs : List Cond} {r' : Record}
    (h : EndsWork s t c x p st cs r r') : t.revAt x.slot = (s.revAt x.slot + 1) % 65536 := State.revAt_stepped h.slot

end

theorem heldFields_eq (prog : Progress) (reason : HeldReason) (ending : Option (EndReason × Nat)) (r : Record) :
    heldFields prog reason ending r = heldRecord prog reason ending r := by cases prog <;> rfl

/-- A record at work is not HELD. -/
theorem RecState.isWork_ne_held {r : Record} (h : r.state.isWork = true) : r.state ≠ .held := fun e => by
  rw [e] at h; cases h

/-- The record of a bound context is at work, and its station is one of the sixteen (R47). -/
theorem WorkLaw.atWork {s : State} (h : WorkLaw s) {c : Nat} {x : Context} (hx : s.ctxAt c = some x) {r : Record}
    (hr : s.recAt x.slot = some r) : r.state = x.prog.kind.workState ∧ x.station < 16 := by
  obtain ⟨-, ⟨q, hq, hst, -⟩, hlt, -, -⟩ := h.2.1 c x hx
  obtain rfl := Option.some.inj (hr.symm.trans hq)
  exact ⟨hst, hlt⟩

/-- Release into HELD (R53). -/
theorem WorkLaw.releaseHeld_endsWork {s : State} (h : WorkLaw s) {c : Nat} {x : Context} (hx : s.ctxAt c = some x) {r : Record}
    (hr : s.recAt x.slot = some r) (reason : HeldReason) (st : Nat) (cs : List Cond) (ending : Option (EndReason × Nat)) :
    EndsWork s (s.releaseHeld c x reason st cs ending) c x (Parting.plain (stopOrder x.prog.kind.stationKind)) st cs r
      (heldRecord x.prog reason ending r) := by
  obtain ⟨hwork, hlt⟩ := h.atWork hx hr
  rw [← heldFields_eq]
  refine State.release_endsWork hlt hr _ st cs ?_ fun e => ?_
  · cases x.prog <;> rfl
  · exact RecState.isWork_ne_held (hwork ▸ WorkKind.isWork _) e.symm

/-- A release into HELD that raises nothing leaves the attention list. -/
theorem State.releaseHeld_onlyIn_nil (s : State) (c : Nat) (x : Context) (reason : HeldReason) (st : Nat)
    (ending : Option (EndReason × Nat)) : OnlyIn [.tbc, .cxp, .isi, .bmu] s (s.releaseHeld c x reason st [] ending) := by
  rw [State.releaseHeld, State.updateRaising_nil]
  exact State.release_onlyIn_nil _ _ _ _

/-- A grouting goes to CURING with its cure end (R82, R83, R85). -/
theorem WorkLaw.toCuring_endsWork {s : State} (h : WorkLaw s) {c : Nat} {x : Context} (hx : s.ctxAt c = some x) {r : Record}
    (hr : s.recAt x.slot = some r) (p : GroutProg) (cls : ClassEntry) (reason : EndReason) :
    EndsWork s (s.toCuring c x p cls reason) c x (Parting.plain .stop) x.station [] r { r with
      state := .curing, context := none
      grout := some (GroutResult.mk (volume p) p.peak (some reason) (some s.wck.time))
      cureEnd := some (min 4294967295 (s.wck.time + cls.cure)) } := by
  obtain ⟨hwork, hlt⟩ := h.atWork hx hr
  rw [State.toCuring, ← State.updateRaising_nil]
  refine State.release_endsWork hlt hr _ _ [] rfl ?_
  rw [hwork]
  cases x.prog <;> nofun

theorem State.toCuring_onlyIn (s : State) (c : Nat) (x : Context) (p : GroutProg) (cls : ClassEntry) (reason : EndReason) :
    OnlyIn [.tbc, .cxp, .isi, .bmu] s (s.toCuring c x p cls reason) := State.release_onlyIn_nil _ _ _ _

theorem State.toCuring_bmu (s : State) (c : Nat) (x : Context) (p : GroutProg) (cls : ClassEntry) (reason : EndReason) :
    (s.toCuring c x p cls reason).bmu = { s.bmu with stations := (s.toCuring c x p cls reason).bmu.stations } := by
  rw [State.toCuring, ← State.updateRaising_nil]
  exact State.release_bmu _ _ _ _ _

/-! ## ABORT (R55) -/

/-- The context that names a slot is the one that is bound to it (R47). -/
theorem WorkLaw.ctxNaming_eq {s : State} (h : WorkLaw s) {c : Nat} {x : Context} (hx : s.ctxAt c = some x) :
    s.ctxNaming x.slot = some (c, x) := by
  have hmem : (c, x) ∈ s.cxp.contexts := Table.mem_of_get? hx
  have hsome : (s.ctxNaming x.slot).isSome = true := by
    rw [State.ctxNaming, List.find?_isSome]
    exact ⟨(c, x), hmem, by simp⟩
  obtain ⟨⟨d, y⟩, hfind⟩ := Option.isSome_iff_exists.1 hsome
  have hslot : y.slot = x.slot := by simpa using List.find?_some hfind
  have hy : s.ctxAt d = some y := Table.get?_of_mem h.1 (List.mem_of_find?_eq_some hfind)
  obtain rfl := h.slot_inj hy hx hslot
  rw [hfind, Option.some.inj (hy.symm.trans hx)]

theorem execAbort_served {s : State} {h : Ask} {slot : Nat} {r : Record} (hs : Served s h .abort) (hslot : slot < 512)
    (hr : s.recAt slot = some r) : exec (.abort h slot) s = s.take h Req.abort.code
      (match s.ctxNaming slot with
      | some (c, x) =>
        if r.state.isWork then doneRev (s.releaseHeld c x .aborted h.station [] none) slot else refuse s .wrongState
      | none => refuse s .wrongState) :=
  hs.onRecord (slotOk_iff.2 hslot) hr (rev? := none) nofun _

/-- ABORT comes from station 0 alone (R169). -/
theorem Served.abort_station {s : State} {h : Ask} (hs : Served s h .abort) : h.station = 0 := by
  by_contra hne
  have hp := hs.2
  unfold State.permits at hp
  cases hk : (s.stationAt h.station).kind <;> simp [hne, hk, mayAsk] at hp

/-- Settles O15: the release of the one context that names the record. -/
theorem abortHoldsTheRecord : Obligations.AbortHoldsTheRecord := by
  intro h slot s hs hw hslot
  refine ⟨fun hnone => hs.noRecord (slotOk_iff.2 hslot) hnone _ _, fun r hr hidle => ?_, fun r c x hr hx hxs => ?_⟩
  · rw [execAbort_served hs hslot hr]
    cases s.ctxNaming slot with
    | none => exact hs.refused .wrongState []
    | some p => simp only [hidle]; exact hs.refused .wrongState []
  · subst hxs
    have hends := hw.releaseHeld_endsWork hx hr .aborted 0 [] none
    have hwork : r.state.isWork = true := (hw.atWork hx hr).1 ▸ WorkKind.isWork _
    refine ⟨(s.releaseHeld c x .aborted 0 [] none).answeredDone h .abort [.u16 ((s.revAt x.slot + 1) % 65536)],
      ?_, hends, ?_, (s.releaseHeld_onlyIn_nil c x .aborted 0 none).answeredDone (by decide) _ _ _⟩
    · rw [execAbort_served hs hslot hr, hw.ctxNaming_eq hx]
      simp only [hwork, if_true, hs.abort_station]
      rw [hs.doneRev, hends.revAt]
    · exact State.answeredDone_stations (State.release_bmu ..) _ _ _

end Sys2Proof.Machine
end

section
/-! CLOSE of a held or a failed record (R56, Table 3-5). -/

namespace Sys2Proof.Machine

section
variable {s : State} {h : Ask} {slot rev : Nat} {r : Record}

/-- A served CLOSE of a record that stands, at its revision, meets the checks of its decision. -/
theorem Served.close (hs : Served s h .close) (hslot : slot < 512) (hr : s.recAt slot = some r) (hrev : rev = s.revAt slot)
    (own : Record → Ruling) : s.requestOn h .close (slotOk slot) slot (some rev) own = s.take h Req.close.code (own r) :=
  hs.onRecord (slotOk_iff.2 hslot) hr (by simp [hrev]) own

/-- A CLOSE whose decision suits the record is one update for the sender. -/
theorem Served.closes (hs : Served s h .close) (hslot : slot < 512) (hr : s.recAt slot = some r) (hrev : rev = s.revAt slot)
    {own : Record → Ruling} {f : Record → Record} (hown : own r = Machine.doneRev (s.update slot h.station f) slot) :
    ∃ t, s.requestOn h .close (slotOk slot) slot (some rev) own = .next t ∧ RecordDone s t h .close slot r (f r) := by
  refine ⟨_, ?_, State.recordDone hr h .close f⟩
  rw [hs.close hslot hr hrev, hown]
  exact hs.doneRev _ _

/-- Any other is refused. -/
theorem Served.closeRefused (hs : Served s h .close) (hslot : slot < 512) (hr : s.recAt slot = some r)
    (hrev : rev = s.revAt slot) {own : Record → Ruling} {res : Result} (hown : own r = refuse s res) :
    s.requestOn h .close (slotOk slot) slot (some rev) own = .next (Answered s h .close res []) := by
  rw [hs.close hslot hr hrev, hown]
  exact hs.refused res []

end

theorem heldWith_iff {k : CtxKind} {r : Record} : heldWith k r = true ↔ r.state = .held ∧ r.heldKind = some k :=
  decide_eq_true_iff

theorem heldWith_false {k : CtxKind} {r : Record} (h : r.state ≠ .held ∨ r.heldKind ≠ some k) : ¬ heldWith k r = true := by
  rw [heldWith_iff, not_and_or]
  exact h

/-- Settles O16: each decision is one record update where the record suits it. -/
theorem closeMovesAHeldOrFailedRecord : Obligations.CloseMovesAHeldOrFailedRecord := by
  intro h slot rev s r hs hslot hr hrev
  have closes {own : Record → Ruling} {f : Record → Record} := hs.closes (own := own) (f := f) hslot hr hrev
  have refused {own : Record → Ruling} {res : Result} := hs.closeRefused (own := own) (res := res) hslot hr hrev
  refine ⟨fun hst hk => ?_, fun cls hst hk hcls => ?_, fun hst hk hcls => ?_, fun hst hk => ?_, fun hno => ?_, fun hno => ?_,
    fun hno => ?_, fun hst hlt => ?_, fun hst hle => ?_, fun hno => ?_⟩
  · exact closes (f := fun q => { unheld .bored q with insertion := none }) (if_pos (heldWith_iff.2 ⟨hst, hk⟩))
  · refine closes (f := fun q => { unheld .curing q with
      grout := some (acceptedGrout q.grout s.wck.time), cureEnd := some (cureEndOf cls s.wck.time) }) ?_
    rw [if_pos (heldWith_iff.2 ⟨hst, hk⟩), hcls]
  · refine refused ?_
    rw [if_pos (heldWith_iff.2 ⟨hst, hk⟩), hcls]
  · exact closes (f := unheld .ready) (if_pos (heldWith_iff.2 ⟨hst, hk⟩))
  · exact refused (if_neg (heldWith_false hno))
  · exact refused (if_neg (heldWith_false hno))
  · exact refused (if_neg (heldWith_false hno))
  · refine closes (f := fun q => { q with state := .ready, retests := q.retests + 1 }) ?_
    rw [if_pos hst, if_neg (Nat.not_le.2 hlt)]
  · refine refused ?_
    rw [if_pos hst, if_pos hle]
  · exact refused (if_neg hno)

end Sys2Proof.Machine
end

section
/-! END (R75): what each unit makes of the work of its sender (R76, R83, R85, R123). -/

namespace Sys2Proof.Machine

section
variable {h : Ask} {s : State} {c : Nat} {x : Context} {r : Record} {cls : ClassEntry}

theorem distance_le_iff {a b n : Nat} : distance a b ≤ n ↔ a ≤ b + n ∧ b ≤ a + n := by unfold distance; omega

/-- The figures of a taken END: the slot, the code of the new state, the new revision (R75). -/
theorem EndsWork.endBody {t : State} {p : Parting} {st : Nat} {cs : List Cond} {r' : Record}
    (hends : EndsWork s t c x p st cs r r') : t.endBody x.slot =
      [.u16 x.slot, enum8 RecState.all r'.state, .u16 ((s.revAt x.slot + 1) % 65536)] := by
  have hrec : t.recAt x.slot = (stepped s x.slot st { r' with conds := addConds cs r.conds }).rec? := by
    rw [State.recAt_eq, hends.slot]
  rw [State.endBody, hends.revAt, hrec]
  rfl

/-- A served END of a bound sender is answered with what its unit has made of the work. -/
theorem Served.endWork (hs : Served s h .endWork) (hc : (s.stationAt h.station).ctx = some c) (hx : s.ctxAt c = some x)
    {p : Parting} {st : Nat} {cs : List Cond} {r' : Record} {blocks more : List Block}
    (hends : EndsWork s (s.endCtx c x) c x p st cs r r')
    (hbmu : (s.endCtx c x).bmu = { s.bmu with stations := (s.endCtx c x).bmu.stations })
    (honly : OnlyIn blocks s (s.endCtx c x)) (hmore : ∀ b ∈ .bmu :: blocks, b ∈ more) {code : Nat}
    (hcode : enum8 RecState.all r'.state = .u8 code) : ∃ t, exec (.endWork h) s = .next t ∧
      EndsWork s t c x p st cs r r' ∧ t.bmu = { s.bmu with stations := t.bmu.stations }.answering h
        (answerTo .endWork .done [.u16 x.slot, .u8 code, .u16 ((s.revAt x.slot + 1) % 65536)]) ∧ OnlyIn more s t := by
  refine ⟨(s.endCtx c x).answeredDone h .endWork [.u16 x.slot, .u8 code, .u16 ((s.revAt x.slot + 1) % 65536)], ?_, hends, ?_,
    honly.answeredDone hmore _ _ _⟩
  · refine (hs.inRange rfl _).trans ?_
    simp only [hc, hx]
    rw [hs.done, hends.endBody, hcode]
  · exact State.answeredDone_stations hbmu _ _ _

/-- An END that holds the record, raising `cs` (R76, R83, R123). -/
theorem Served.endHeld (hs : Served s h .endWork) (hw : WorkLaw s) (hc : (s.stationAt h.station).ctx = some c)
    (hx : s.ctxAt c = some x) (hr : s.recAt x.slot = some r) {reason : HeldReason} {cs : List Cond}
    {ending : Option (EndReason × Nat)} {o : Order} (hstop : stopOrder x.prog.kind.stationKind = o)
    (hend : s.endCtx c x = s.releaseHeld c x reason x.station cs ending) {blocks more : List Block} (honly : OnlyIn blocks s (s.releaseHeld c x reason x.station cs ending))
    (hmore : ∀ b ∈ .bmu :: blocks, b ∈ more) : ∃ t, exec (.endWork h) s = .next t ∧
      EndsWork s t c x (Parting.plain o) x.station cs r (heldRecord x.prog reason ending r) ∧
      t.bmu = { s.bmu with stations := t.bmu.stations }.answering h
        (answerTo .endWork .done [.u16 x.slot, .u8 12, .u16 ((s.revAt x.slot + 1) % 65536)]) ∧ OnlyIn more s t := by
  refine hs.endWork hc hx ?_ ?_ (hend ▸ honly) hmore rfl
  · rw [hend, ← hstop]; exact hw.releaseHeld_endsWork hx hr reason _ cs ending
  · rw [hend]; exact State.release_bmu _ _ _ _ _

end

/-- Settles O17: the judgement of each unit, applied to the context of the sender. -/
theorem endJudgesTheWorkOfItsSender : Obligations.EndJudgesTheWorkOfItsSender := by
  refine ⟨fun h s hs hc => ?_, ?_⟩
  · refine (hs.inRange rfl _).trans ?_
    simp only [hc]
    exact hs.refused .wrongState []
  intro h s c x r cls hs hw hc hx hr hcls length hlen
  have hst : x.station = h.station := by
    obtain ⟨y, hy, hstation⟩ := hw.2.2.2.1 _ _ hc
    rw [← hstation, Option.some.inj (hx.symm.trans hy)]
  obtain ⟨hwork, hlt⟩ := hw.atWork hx hr
  have htendon : tendonLength cls r = length := hlen.symm
  rw [← hst]
  refine ⟨fun p hp h1 h2 => ?_, fun p hp hout => ?_, fun p hp hvol => ?_, fun p hp hvol => ?_, fun p hp => ?_⟩
  · have hend : s.endCtx c x = (s.freeCtx c x (Parting.plain .hold)).updateRaising x.slot x.station [] (fun q => { q with
        state := .inserted, context := none, insertion := some (payout p) }) := by
      rw [State.updateRaising_nil]
      simp only [State.endCtx, hp, State.winchEnd, hr, hcls, htendon, if_pos (distance_le_iff.2 ⟨h1, h2⟩)]
    refine hs.endWork hc hx ?_ ?_ (blocks := [.tbc, .cxp, .isi, .bmu]) ?_ (by decide) rfl
    · rw [hend]
      refine State.release_endsWork hlt hr _ _ [] rfl ?_
      rw [hwork, hp]; nofun
    · rw [hend]; exact State.release_bmu _ _ _ _ _
    · rw [hend, State.updateRaising_nil]; exact State.release_onlyIn_nil _ _ _ _
  · have hout' : ¬ distance (payout p) (tendonLength cls r) ≤ cls.insTol := by rw [htendon, distance_le_iff]; omega
    exact hs.endHeld hw hc hx hr (reason := .insertLength) (cs := [.insertLength]) (ending := none)
      (by rw [hp]; rfl) (by simp only [State.endCtx, hp, State.winchEnd, hr, hcls, if_neg hout']) (State.release_onlyIn _ _ _ _ _)
      (more := [.tbc, .cxp, .isi, .atu, .bmu]) (by decide)
  · have hend : s.endCtx c x = s.toCuring c x p cls .operator := by
      simp only [State.endCtx, hp, State.groutEnd, hr, Option.bind_some, hcls, if_pos hvol]
    refine hs.endWork hc hx ?_ ?_ (hend ▸ s.toCuring_onlyIn c x p cls .operator) (by decide) rfl
    · rw [hend]; exact hw.toCuring_endsWork hx hr p cls .operator
    · rw [hend]; exact s.toCuring_bmu c x p cls .operator
  · exact hs.endHeld hw hc hx hr (reason := .groutShort) (cs := [.groutShort]) (ending := some (.operator, s.wck.time))
      (by rw [hp]; rfl) (by simp only [State.endCtx, hp, State.groutEnd, hr, Option.bind_some, hcls, if_neg (Nat.not_le.2 hvol)])
      (State.release_onlyIn _ _ _ _ _) (more := [.tbc, .cxp, .isi, .atu, .bmu]) (by decide)
  · exact hs.endHeld hw hc hx hr (reason := .operator) (cs := []) (ending := none)
      (by rcases hp with hp | hp <;> rw [hp] <;> rfl)
      (by rcases hp with hp | hp <;> simp only [State.endCtx, hp]) (s.releaseHeld_onlyIn_nil c x .operator x.station none)
      (more := [.tbc, .cxp, .isi, .bmu]) (by decide)

end Sys2Proof.Machine
end

section
/-! START, BEGIN and RESUME whose checks all pass (R48, R49, R51, R52): what a binding leaves, and the answer. -/

namespace Sys2Proof.Machine

/-! ## The checks pass (R50) -/

theorem firstFailing_eq_none {checks : List (Bool × Result)} (h : ∀ b ∈ checks, b.1 = false) :
    firstFailing checks = none := by
  have hnone : checks.find? Prod.fst = none := List.find?_eq_none.2 fun b hb => by rw [h b hb]; nofun
  rw [firstFailing, hnone]; rfl

theorem State.lowestFreeCtx_eq {s : State} {c : Nat} (hlt : c < 12) (hfree : s.ctxAt c = none)
    (hbelow : ∀ d, d < c → s.ctxAt d ≠ none) : s.lowestFreeCtx = some c := by
  rw [State.lowestFreeCtx, List.find?_range_eq_some]
  refine ⟨by rw [hfree]; rfl, List.mem_range.2 hlt, fun d hd => ?_⟩
  cases hx : s.ctxAt d with
  | none => exact absurd hx (hbelow d hd)
  | some _ => rfl

section
variable {s : State} {k : CtxKind} {n station sender c : Nat} {r : Record} {resumed : Bool}

/-- With every check passed the lowest FREE context is bound, and the answer names it with the new revision (R51). -/
theorem State.bindOwn_of_passed (hpass : ∀ b ∈ bindingChecks s k station r resumed, b.1 = false)
    (hc : s.lowestFreeCtx = some c) : s.bindOwn k n station sender r resumed =
      done (s.bindCtx c k n station sender r resumed)
        [.u8 c, .u16 ((s.bindCtx c k n station sender r resumed).revAt n)] := by
  have none_of (l : List (Bool × Result)) (hl : ∀ b ∈ l, b ∈ bindingChecks s k station r resumed) : firstFailing l = none :=
    firstFailing_eq_none fun b hb => hpass b (hl b hb)
  rw [State.bindOwn, s.readyRefusal_eq, s.capacityRefusal_eq k station r resumed, s.nearRefusal_eq k station r resumed,
    none_of _ fun b hb => List.mem_of_mem_take hb, none_of _ fun b hb => List.mem_of_mem_drop (List.mem_of_mem_take hb),
    none_of _ fun b hb => List.mem_of_mem_drop (List.mem_of_mem_take hb), hc]
  rfl

/-! ## What the passed checks say (Table 3-3) -/

/-- The facts that the checks of Table 3-3 leave where they pass. -/
structure Admitted (s : State) (k : CtxKind) (station : Nat) (r : Record) (resumed : Bool) : Prop where
  kind : (s.stationAt station).kind = k.stationKind
  free : (s.stationAt station).ctx = none
  needed : if resumed then r.state = .held ∧ r.heldKind = some k else r.state = k.neededState
  cal : k = .stress ∨ k = .destress → ∃ cal, s.calAt station = some cal

theorem admitted_of_passed (hpass : ∀ b ∈ bindingChecks s k station r resumed, b.1 = false) :
    Admitted s k station r resumed := by
  simp only [bindingChecks, List.forall_mem_cons] at hpass
  obtain ⟨hkind, -, hfree, hneed, -, -, hcal, -⟩ := hpass
  refine ⟨by simpa using hkind, by simpa using hfree, by simpa using hneed, fun hk => ?_⟩
  rw [← Option.isSome_iff_exists]
  simp only [Bool.or_eq_false_iff, Bool.and_eq_false_iff, decide_eq_false_iff_not] at hcal
  simpa using hcal.2.resolve_left (not_not_intro hk)

/-- The record is in no work state yet. -/
theorem Admitted.not_workState (h : Admitted s k station r resumed) : k.workState ≠ r.state := by
  have hneed := h.needed
  split at hneed
  · rw [hneed.1]; cases k <;> nofun
  · rw [hneed]; cases k <;> nofun

/-- The kind that a BEGIN of an admitted sender binds is the one it is admitted for (R49). -/
theorem Admitted.beginKind (h : Admitted s k station r false) : Machine.beginKind (s.stationAt station).kind r.state = some k := by
  have hneed : r.state = k.neededState := h.needed
  rw [h.kind, hneed]
  cases k <;> rfl

/-! ## What a binding leaves (R51, R52, R124) -/

theorem State.bindCtx_parting (s : State) (c : Nat) (k : CtxKind) (n station sender : Nat) (r : Record) (resumed : Bool) :
    (s.bindCtx c k n station sender r resumed).cxp.parting = s.cxp.parting.erase station := by
  unfold State.bindCtx
  dsimp only
  split <;> simp

theorem State.bindCtx_channels (s : State) (c : Nat) (k : CtxKind) (n station sender : Nat) (r : Record) (resumed : Bool) :
    (s.bindCtx c k n station sender r resumed).channels = (match k, r.binding with
      | .destress, some b => s.channels.erase (channelKey b)
      | _, _ => s.channels) := by
  unfold State.bindCtx
  cases k <;> cases hb : r.binding <;> simp [State.freeChannel]

theorem State.bindCtx_onlyIn (s : State) (c : Nat) (k : CtxKind) (n station sender : Nat) (r : Record) (resumed : Bool) :
    OnlyIn [.tbc, .cxp, .channels, .isi, .bmu] s (s.bindCtx c k n station sender r resumed) := fun b hb => by
  cases b <;> simp_all [Block.agrees]

theorem State.bindCtx_bindsWork (hr : s.recAt n = some r) (hlt : station < 16) (hne : k.workState ≠ r.state) :
    BindsWork s (s.bindCtx c k n station sender r resumed) c k n station sender r (s.startProg k station r resumed) := by
  have hf : bindFields k c r ≠ r := fun e => hne (congrArg Record.state e)
  obtain ⟨hown, hother, htbc⟩ := State.update_slotIs hr sender hf
  have hslot (m : Nat) := State.slotAt_congr (congrArg Tbc.slots (s.bindCtx_tbc c k n station sender r resumed)) m
  refine ⟨?_, fun d hd => ?_, ?_, fun m hm => ?_, ?_, fun m hm => ?_, ⟨(hslot n).trans hown, ?_, ?_⟩, ?_, ?_⟩
  · rw [State.ctxAt, State.bindCtx_contexts, Table.get?_put_same]
  · rw [State.ctxAt, State.bindCtx_contexts, Table.get?_put_ne _ _ _ _ hd]; rfl
  · rw [State.bindCtx_stationAt, if_pos ⟨rfl, hlt⟩]
  · rw [State.bindCtx_stationAt, if_neg fun e => hm e.1]
  · rw [State.bindCtx_parting, Table.get?_erase_same]
  · rw [State.bindCtx_parting, Table.get?_erase_ne _ _ _ hm]
  · exact fun m hm => (hslot m).trans (hother m hm)
  · rw [State.bindCtx_tbc]; exact htbc
  · rw [State.bindCtx_isi, State.update_isi_eq hr sender hf]
  · exact s.bindCtx_channels c k n station sender r resumed

/-- A binding starts the progress of its kind, in the first phase with its order (R51, R52, R69, R97, R106, R124). -/
theorem State.startProg_starts {cls : ClassEntry} (hcls : s.classOf r = some cls) (h : Admitted s k station r resumed) :
    StartsProgress s k station r cls resumed (s.startProg k station r resumed) := by
  cases k with
  | insert =>
    exact ⟨_, rfl, rfl, rfl, rfl, rfl, fun count tension ht => by simp only [State.latestCount, ht]⟩
  | grout =>
    exact ⟨_, rfl, rfl, rfl, rfl, rfl, rfl, rfl, fun count pressure ht => by simp only [State.latestCount, ht]⟩
  | stress =>
    obtain ⟨cal, hcal⟩ := h.cal (.inl rfl)
    refine ⟨_, cal, rfl, hcal, rfl, rfl, ?_, rfl, rfl, rfl, rfl, rfl, rfl, fun pr st a b c d ht => ?_⟩
    · simp only [JackProg.start, hcls, hcal, Option.map_some, Option.getD_some]
    · simp only [JackProg.start, State.latestStroke, ht]; rfl
  | destress => exact ⟨_, rfl, rfl, rfl, rfl, rfl, rfl, rfl, rfl⟩

end

/-- Settles O13: each request comes to the checks of Table 3-3, and where all pass the lowest FREE context is bound. -/
theorem startBeginAndResumeBindTheLowestFreeContext : Obligations.StartBeginAndResumeBindTheLowestFreeContext := by
  intro cmd h q k slot station c resumed s r cls hcmd hs hslot h1 h2 hr hcls hpass hc hfree hbelow
  have hadm := admitted_of_passed hpass
  have hbinds := State.bindCtx_bindsWork (station := station) (c := c) (sender := h.station) (resumed := resumed) hr (by omega) hadm.not_workState
  have hrev : (s.bindCtx c k slot station h.station r resumed).revAt slot = (s.revAt slot + 1) % 65536 := by
    obtain ⟨-, -, -, -, -, -, ⟨hown, -, -⟩, -, -⟩ := hbinds
    exact State.revAt_stepped hown
  have hexec : exec cmd s = s.take h q.code (s.bindOwn k slot station h.station r resumed) := by
    obtain ⟨rfl, rfl, rfl⟩ | ⟨rfl, rfl, rfl, rfl, hlive, hrow1, hrow2, hbay1, hbay2⟩ | ⟨rfl, rfl, rfl⟩ := hcmd
    · exact execStart_served hs k hslot ⟨h1, h2⟩ hr
    · have hbound : s.boundTo h.station slot = none := State.boundTo_eq_none fun d x hd _ => by
        rw [hadm.free] at hd; cases hd
      rw [execBegin_served hs ⟨hrow1, hrow2⟩ ⟨hbay1, hbay2⟩, State.beginOwn]
      simp only [hlive, hr, hbound, hadm.beginKind]
    · obtain ⟨hheld, hkind⟩ : r.state = .held ∧ r.heldKind = some k := hadm.needed
      rw [execResume_served hs hslot ⟨h1, h2⟩ hr, hkind]
      exact congrArg _ (if_pos hheld)
  refine ⟨(s.bindCtx c k slot station h.station r resumed).answeredDone h q [.u8 c, .u16 ((s.revAt slot + 1) % 65536)], _, ?_,
    hbinds, State.startProg_starts hcls hadm, ?_,
    (s.bindCtx_onlyIn c k slot station h.station r resumed).answeredDone (by decide) _ _ _⟩
  · rw [hexec, State.bindOwn_of_passed hpass (State.lowestFreeCtx_eq hc hfree hbelow), hrev]
    exact hs.done _ _
  · exact State.answeredDone_stations (by rw [State.bindCtx_bmu]; rfl) _ _ _

end Sys2Proof.Machine
end

section
/-! Works time (R59, R61 to R64, R82, R86): the real second, the ends of the times it advances, and TIME_SET. -/

namespace Sys2Proof.Machine

/-! ## A real second (R59, R61 to R63) -/

/-- The works time that a real second leaves (R63). -/
theorem Wck.next_eq (w : Wck) : w.next = if w.clock = .running then min 4294967295 (w.time + w.scale) else w.time := by
  unfold Wck.next
  cases w.clock <;> rfl

section
variable (x : Context) (d : Nat) (lim : Option Nat) (siteStopped : Bool) (limit : Nat)

theorem Context.advance_kept : (x.advance d lim).slot = x.slot ∧ (x.advance d lim).station = x.station ∧
    (x.advance d lim).run = x.run ∧ (x.advance d lim).suspend = x.suspend ∧ (x.advance d lim).limitDue = x.limitDue := by
  unfold Context.advance
  split
  · exact ⟨rfl, rfl, rfl, rfl, rfl⟩
  · split <;> exact ⟨rfl, rfl, rfl, rfl, rfl⟩
  · exact ⟨rfl, rfl, rfl, rfl, rfl⟩
  · exact ⟨rfl, rfl, rfl, rfl, rfl⟩

theorem Context.addSuspend_counts (h : x.run = .suspended ∧ siteStopped = false ∧ x.limitDue = false) :
    x.addSuspend siteStopped limit = { x with suspend := x.suspend + 1, limitDue := limit ≤ x.suspend + 1 } := if_pos h

theorem Context.addSuspend_rests (h : ¬ (x.run = .suspended ∧ siteStopped = false ∧ x.limitDue = false)) :
    x.addSuspend siteStopped limit = x := if_neg h

theorem Context.addSuspend_kept : (x.addSuspend siteStopped limit).slot = x.slot ∧
    (x.addSuspend siteStopped limit).station = x.station ∧ (x.addSuspend siteStopped limit).run = x.run ∧
    (x.addSuspend siteStopped limit).prog = x.prog := by
  unfold Context.addSuspend
  split <;> exact ⟨rfl, rfl, rfl, rfl⟩

/-- A refusal timer after a second: it counts outside SUSPENDED, and reaching the refusal time in RUNNING is due (R62, R82). -/
theorem Context.advance_grout {p : GroutProg} (hp : x.prog = .grout p) : ∃ q, (x.advance d lim).prog = .grout q ∧
    q = { p with
      refTimer := if p.counting = true ∧ x.run ≠ .suspended then min 4294967295 (p.refTimer + d) else p.refTimer
      due := q.due } ∧
    ∀ n, lim = some n → (q.due = true ↔ p.due = true ∨
      p.counting = true ∧ x.run = .running ∧ p.refTimer < n ∧ n ≤ q.refTimer) := by
  have hadv : x.advance d lim = if p.counting = true ∧ x.run ≠ .suspended then
      { x with prog := .grout (p.advance d lim (x.run = .running)) } else x := by simp only [Context.advance, hp]
  rw [hadv]
  by_cases hcount : p.counting = true ∧ x.run ≠ .suspended
  · refine ⟨p.advance d lim (x.run = .running), by rw [if_pos hcount], by rw [if_pos hcount]; rfl, fun n hn => ?_⟩
    simp [GroutProg.advance, hn, hcount.1]
  · refine ⟨p, by rw [if_neg hcount]; exact hp, by rw [if_neg hcount], fun n hn => ⟨.inl, ?_⟩⟩
    rintro (h | ⟨h1, h2, -⟩)
    · exact h
    · exact absurd ⟨h1, by rw [h2]; nofun⟩ hcount

/-- The timers of a jack's context after a second (R61). -/
theorem Context.advance_jack {p : JackProg} (hp : x.prog = .stress p ∨ x.prog = .destress p) :
    (x.prog = .stress p → (x.advance d lim).prog = .stress (p.advance d)) ∧
      (x.prog = .destress p → (x.advance d lim).prog = .destress (p.advance d)) := by
  unfold Context.advance
  rcases hp with hp | hp <;> rw [hp]
  · exact ⟨fun _ => rfl, nofun⟩
  · exact ⟨nofun, fun _ => rfl⟩

end

/-- The part after a real second. -/
def State.afterSecond (s : State) : State :=
  ({ s with wck := { s.wck with time := s.wck.next } }).eachCtx
    (fun x => x.second (s.wck.next - s.wck.time) (s.refusalTime x) s.ifu.stop.isSome s.tbc.site.suspend)

/-- Settles O19: works time moves once, and every context by what it moved. -/
theorem realSecondAdvancesTimeAndTimers : Obligations.RealSecondAdvancesTimeAndTimers := by
  intro s
  have hctx (c : Nat) : s.afterSecond.ctxAt c = (s.ctxAt c).map (fun x =>
      x.second (s.wck.next - s.wck.time) (s.refusalTime x) s.ifu.stop.isSome s.tbc.site.suspend) :=
    State.ctxAt_eachCtx _ _ _
  have hd : s.afterSecond.wck.time - s.wck.time = s.wck.next - s.wck.time := rfl
  refine ⟨s.afterSecond, rfl, by rw [← Wck.next_eq]; rfl, rfl, fun c => by rw [hctx, Option.map_eq_none_iff], fun c x hx => ?_,
    fun b hb => by cases b <;> simp_all [Block.agrees, State.afterSecond]⟩
  rw [hctx, hx, hd]
  generalize s.wck.next - s.wck.time = d
  obtain ⟨hslot, hstation, hrun, hsuspend, hdue⟩ := x.advance_kept d (s.refusalTime x)
  obtain ⟨kslot, kstation, krun, kprog⟩ := (x.advance d (s.refusalTime x)).addSuspend_kept s.ifu.stop.isSome s.tbc.site.suspend
  refine ⟨(x.advance d (s.refusalTime x)).addSuspend s.ifu.stop.isSome s.tbc.site.suspend, rfl, kslot.trans hslot, kstation.trans hstation, krun.trans hrun, fun hsusp hstop hlim => ?_, fun hno => ?_,
    fun p hp => ?_, fun p hp => ?_, fun p hp => ?_⟩
  · rw [Context.addSuspend_counts _ _ _ ⟨hrun.trans hsusp, by rw [hstop]; rfl, hdue.trans hlim⟩, hsuspend]
    exact ⟨rfl, decide_eq_true_iff⟩
  · rw [Context.addSuspend_rests]
    · exact ⟨hsuspend, hdue⟩
    · rw [hrun]
      rintro ⟨h1, h2, -⟩
      rcases hno with hno | hno
      · exact hno h1
      · exact hno (by simpa using h2)
  · refine kprog.trans ?_
    rw [Context.advance, hp]
    exact hp
  · obtain ⟨q, hq, hfields, hreach⟩ := x.advance_grout d (s.refusalTime x) hp
    refine ⟨q, kprog.trans hq, hfields, fun r cls hr hcls => hreach cls.refTime ?_⟩
    rw [State.refusalTime, hr, Option.bind_some, hcls]; rfl
  · obtain ⟨h1, h2⟩ := x.advance_jack d (s.refusalTime x) hp
    exact ⟨p.advance d, fun h => kprog.trans (h1 h), fun h => kprog.trans (h2 h), rfl⟩

/-! ## The ends of times (R59, R82, R86) -/

/-- A record that a cure expiry check finds at a works time (R86). -/
def curedAt (now : Nat) (r : Record) : Record :=
  if r.state = .curing ∧ r.cureEnd.any (fun e => decide (e ≤ now)) then { r with state := .ready } else r

theorem curedAt_ne_iff {now : Nat} {r : Record} : curedAt now r ≠ r ↔
    r.state = .curing ∧ r.cureEnd.any (fun e => decide (e ≤ now)) = true := by
  unfold curedAt
  split
  · next h => exact iff_of_true (fun e => by have := congrArg Record.state e; rw [h.1] at this; cases this) h
  · next h => exact iff_of_false (not_not_intro rfl) h

/-- The cure expiry check of a record is one update (R86). -/
theorem State.expireCure_eq (s : State) (n : Nat) : s.expireCure n = s.update n Config.partStation (curedAt s.wck.time) := by
  unfold State.expireCure
  cases hr : s.recAt n with
  | none => exact (State.update_none hr _ _).symm
  | some r =>
    by_cases hdue : r.state = .curing ∧ r.cureEnd.any (fun e => decide (e ≤ s.wck.time))
    · have hcured : curedAt s.wck.time r = { r with state := .ready } := if_pos hdue
      simp only [if_pos hdue]
      rw [State.update, State.update, hr]
      simp only [hcured]
    · simp only [if_neg hdue]
      exact (State.update_same (f := curedAt s.wck.time) hr _ (if_neg hdue)).symm

/-- Settles O20: each end of a time is a release or an update where the time has ended, and nothing where it has not. -/
theorem theEndOfATimeActsOnItsContextOrRecord : Obligations.TheEndOfATimeActsOnItsContextOrRecord := by
  refine ⟨fun c s => ⟨fun x r hw hx hrun hdue hr => ?_, fun hno => ?_⟩, fun c s x p r cls hw hx hp hr hcls => ⟨?_, ?_⟩,
    fun slot s r e hr he => ⟨fun hclock hst hle => ?_, fun hno => ?_⟩⟩
  · refine ⟨_, ?_, hw.releaseHeld_endsWork hx hr .lost 31 [.stationLost] none, State.release_bmu _ _ _ _ _,
      State.release_onlyIn _ _ _ _ _⟩
    show execSuspendLimitReached c s = _
    simp only [execSuspendLimitReached, hx, hrun, hdue, and_self, if_true]
  · show execSuspendLimitReached c s = _
    unfold execSuspendLimitReached
    split
    · next x hx =>
      rw [if_neg]
      rintro ⟨h1, h2⟩
      exact (hno x hx).elim (fun h => h h1) (fun h => by rw [h] at h2; cases h2)
    · rfl
  · intro hrun hcount hdue hle
    refine ⟨_, ?_, hw.toCuring_endsWork hx hr p cls .refusal, s.toCuring_bmu c x p cls .refusal, s.toCuring_onlyIn c x p cls .refusal⟩
    show execRefusalCompletion c s = _
    simp only [execRefusalCompletion, hx, State.completeRefusal, hp, hr, Option.bind_some, hcls]
    rw [if_pos (by simp [refusalDue, hrun, hcount, hdue, hle])]
  · intro hno
    show execRefusalCompletion c s = _
    simp only [execRefusalCompletion, hx, State.completeRefusal, hp, hr, Option.bind_some, hcls]
    rw [if_neg]
    simp only [refusalDue, decide_eq_true_eq]
    rintro ⟨h1, h2, h3, h4⟩
    rcases hno with h | h | h | h
    · exact h h1
    · rw [h2] at h; cases h
    · rw [h3] at h; cases h
    · omega
  · have hcured : curedAt s.wck.time r = { r with state := .ready } := if_pos ⟨hst, by rw [he]; exact decide_eq_true hle⟩
    refine ⟨s.expireCure slot, if_pos hclock, ?_, ?_⟩
    · rw [State.expireCure_eq, ← hcured]; exact State.update_recordUpdate hr 31 _
    · rw [State.expireCure_eq]; exact State.update_onlyIn _ _ _ _
  · show (if s.wck.clock = .running then Host.Outcome.next (s.expireCure slot) else .next s) = _
    split
    · next hclock =>
      rw [State.expireCure_eq, State.update_same hr]
      by_contra hne
      obtain ⟨hst, hany⟩ := curedAt_ne_iff.1 hne
      rw [he] at hany
      rcases hno with h | h | h
      · rw [hclock] at h; cases h
      · exact h hst
      · exact absurd (of_decide_eq_true hany) (Nat.not_le.2 h)
    · rfl

/-! ## One update of every record (R5) -/

/-- One update of every record, in ascending slot order. -/
def State.updateEach (s : State) (st : Nat) (f : Record → Record) : State :=
  s.usedSlots.foldl (fun t n => t.update n st f) s

section
variable {s : State} (ht : TableLaw s) (st : Nat) (f : Record → Record)
include ht

/-- Every slot is stepped once, by what it held. -/
theorem TableLaw.slotAt_updateEach (n : Nat) : (s.updateEach st f).slotAt n = updatedSlot s st f (s.slotAt n) := by
  obtain ⟨hw, -⟩ := ht
  rw [State.updateEach, State.slotAt_updates st f ((State.usedSlots_sorted hw).imp Nat.ne_of_lt)]
  split
  · rfl
  · next hno =>
    refine (updatedSlot_free s st f ?_).symm
    cases hr : (s.slotAt n).rec? with
    | none => rfl
    | some r => exact absurd (State.mem_usedSlots_of_recAt hr) hno

/-- A record that the update changes. -/
theorem TableLaw.slotAt_updateEach_of_ne {n : Nat} {r : Record} (hr : s.recAt n = some r) (hf : f r ≠ r) :
    (s.updateEach st f).slotAt n = stepped s n st (f r) := by
  rw [ht.slotAt_updateEach, ← State.slotAt_update, State.slotAt_update_same hr st hf]

/-- A slot without a record that it changes. -/
theorem TableLaw.slotAt_updateEach_of_same {n : Nat} (hf : ∀ r, s.recAt n = some r → f r = r) :
    (s.updateEach st f).slotAt n = s.slotAt n := by
  rw [ht.slotAt_updateEach, ← State.slotAt_update]
  cases hr : s.recAt n with
  | none => rw [State.update_none hr]
  | some r => rw [State.update_same hr st (hf r hr)]

/-- The slots that change are handed in ascending order. -/
theorem TableLaw.updateEach_isi : (s.updateEach st f).isi = s.isi.handed
    (((List.range 512).filter (fun n => (s.recAt n).any (fun r => decide (f r ≠ r)))).map Item.slot) := by
  obtain ⟨hw, -, hrecs, -⟩ := ht
  rw [State.updateEach, State.updates_isi st f ((State.usedSlots_sorted hw).imp Nat.ne_of_lt),
    State.filter_usedSlots hw (fun n r hr => (hrecs n r hr).1)]
  intro n hn
  obtain ⟨r, hr, -⟩ := (Option.any_eq_true _ _).1 hn
  rw [hr]; rfl

end

theorem State.updateEach_tbc (s : State) (st : Nat) (f : Record → Record) :
    (s.updateEach st f).tbc = { s.tbc with slots := (s.updateEach st f).tbc.slots } :=
  foldl_keeps (P := fun t : State => t.tbc = { s.tbc with slots := t.tbc.slots })
    (fun t n h => by rw [State.update_tbc_rest, h]) s.usedSlots rfl

theorem State.updateEach_onlyIn (s : State) (st : Nat) (f : Record → Record) : OnlyIn [.tbc, .isi] s (s.updateEach st f) :=
  OnlyIn.foldl (fun t n => State.update_onlyIn t n st f) _ _

/-! ## TIME_SET (R64, R86) -/

theorem State.expireCures_eq (s : State) : s.expireCures = s.updateEach Config.partStation (curedAt s.wck.time) := by
  have hfold (l : List Nat) (t : State) (hwck : t.wck = s.wck) : l.foldl (fun t n => t.expireCure n) t =
      l.foldl (fun t n => t.update n Config.partStation (curedAt s.wck.time)) t := by
    induction l generalizing t with
    | nil => rfl
    | cons n l ih =>
      rw [List.foldl_cons, List.foldl_cons, State.expireCure_eq, hwck]
      exact ih _ (by simpa using hwck)
  exact hfold s.usedSlots s rfl

/-- The part as the works time is set, before the cures that it reaches expire (R64). -/
def State.timeSet (s : State) (time : Nat) : State :=
  ({ s with wck := { s.wck with time := time, clock := .running } }).hand .header

theorem execTimeSet_served {s : State} {h : Ask} {time : Nat} (hs : Served s h .timeSet) (htime : time ≤ 4294967295) :
    exec (.timeSet h time) s = s.take h Req.timeSet.code
      (if time < s.wck.time then refuseWith s .badValue [.u32 s.wck.time, .u8 s.wck.clock.code]
      else if time = s.wck.time ∧ s.wck.clock = .running then done s [.u32 time]
      else done (s.setTime time) [.u32 time]) := hs.inRange (decide_eq_true htime) _

/-- Settles O36: below, equal while running, and otherwise, where one check of every record follows. -/
theorem timeSetStartsTheClock : Obligations.TimeSetStartsTheClock := by
  intro h time s hs htime
  rw [execTimeSet_served hs htime]
  refine ⟨fun hlt => ?_, fun he hrun => ?_, fun hle hheld ht due hdue => ?_⟩
  · rw [if_pos hlt]
    have hcode : s.wck.clock.code = if s.wck.clock = .running then 1 else 2 := by cases s.wck.clock <;> rfl
    exact hcode ▸ hs.refused .badValue _
  · rw [if_neg (by omega), if_pos ⟨he, hrun⟩]
    exact hs.done s _
  · have hne : ¬ (time = s.wck.time ∧ s.wck.clock = .running) := fun ⟨h1, h2⟩ => by
      rw [hheld h1] at h2; cases h2
    have hrec (n : Nat) : (s.timeSet time).recAt n = s.recAt n := by rw [State.timeSet, State.recAt_hand]; rfl
    have hrev (n : Nat) : (s.timeSet time).revAt n = s.revAt n := by rw [State.timeSet, State.revAt_hand]; rfl
    have hslot (n : Nat) : (s.timeSet time).slotAt n = s.slotAt n := by rw [State.timeSet, State.slotAt_hand]; rfl
    have htbc : (s.timeSet time).tbc = s.tbc := by simp [State.timeSet]
    have hwck : (s.timeSet time).wck = { s.wck with time := time, clock := .running } := by simp [State.timeSet]
    have hlaw : TableLaw (s.timeSet time) := ht.congr (by rw [htbc]) (by rw [htbc])
    have hset : s.setTime time = (s.timeSet time).updateEach 31 (curedAt time) :=
      (State.expireCures_eq _).trans (by rw [show (({ s with wck := { s.wck with time := time, clock := .running } } : State).hand
        .header).wck.time = time from congrArg Wck.time hwck]; rfl)
    have hchange (n : Nat) : due n = ((s.timeSet time).recAt n).any (fun r => decide (curedAt time r ≠ r)) := by
      rw [hdue, hrec]
      congr 1
      funext r
      rw [decide_eq_decide.2 curedAt_ne_iff, Bool.decide_and]
      simp
    have honly := (s.timeSet time).updateEach_onlyIn 31 (curedAt time)
    rw [if_neg (by omega), if_neg hne, hs.done, hset]
    refine ⟨((s.timeSet time).updateEach 31 (curedAt time)).answeredDone h .timeSet [.u32 time], rfl,
      (honly .wck (by decide)).trans hwck, fun n r hd hr => ?_, fun n hd => ?_, ?_, ?_, ?_, ?_⟩
    · rw [hchange, hrec, hr] at hd
      have hne : curedAt time r ≠ r := of_decide_eq_true hd
      have hcured : curedAt time r = { r with state := .ready } := if_pos (curedAt_ne_iff.1 hne)
      rw [State.answeredDone_slotAt, hlaw.slotAt_updateEach_of_ne 31 _ ((hrec n).trans hr) hne, stepped, hrev, hwck, hcured]
    · refine (hlaw.slotAt_updateEach_of_same 31 _ fun r hr => ?_).trans (hslot n)
      rw [hchange, hr] at hd
      exact not_not.1 (of_decide_eq_false hd)
    · exact ((s.timeSet time).updateEach_tbc 31 _).trans (by rw [htbc]; rfl)
    · refine (hlaw.updateEach_isi 31 _).trans ?_
      rw [← funext hchange, State.timeSet, State.hand_isi_eq, Isi.handed_handed]
      rfl
    · refine State.answeredDone_bmu ((honly .bmu (by decide)).trans ?_) _ _ _
      simp [State.timeSet]
    · refine OnlyIn.answeredDone (blocks := [.tbc, .wck, .isi]) ?_ (by decide) _ _ _
      refine OnlyIn.trans (t := s.timeSet time) (fun b hb => ?_) (honly.mono (by decide))
      cases b <;> simp_all [Block.agrees, State.timeSet]

end Sys2Proof.Machine
end

section
/-! The end of a site stop (R148) and the cabinet restart (R66, R150 to R152, R170). -/

namespace Sys2Proof.Machine

/-! ## RELEASE (R148) -/

theorem Served.release {s : State} {h : Ask} (hs : Served s h .release) :
    exec (.release h) s = s.take h Req.release.code { s.releaseOwn with body := [inputReadings s] } := by
  show execRelease h s = _
  rw [execRelease, State.screen_pass hs.2 rfl, readings_eq]

/-- An input of function PERMIT, as the own checks of RELEASE find one. -/
theorem anyPermit_iff (site : SiteSettings) : site.inputs.toList.any (fun x => decide (x.function = .permit)) = true ↔
    ∃ i : Fin 4, site.inputs[i].function = .permit := by
  rw [List.any_eq_true]
  constructor
  · rintro ⟨x, hx, hp⟩
    obtain ⟨i, hi, rfl⟩ := Vector.mem_iff_getElem.1 (Vector.mem_toList_iff.1 hx)
    exact ⟨⟨i, hi⟩, of_decide_eq_true hp⟩
  · rintro ⟨i, hp⟩
    exact ⟨_, Vector.mem_toList_iff.2 (Vector.getElem_mem i.2), decide_eq_true hp⟩

theorem Context.goOn_eq (x : Context) : x.goOn = { x with run := if x.run = .stopped then .running else x.run } := by
  obtain ⟨slot, station, run, suspend, limitDue, prog⟩ := x
  cases run <;> rfl

/-- What the end of a site stop leaves (R58, R137, R148). -/
theorem State.endStop_onlyIn (s : State) : OnlyIn [.ifu, .atu, .cxp, .bmu] s s.endStop := fun b hb => by
  cases b <;> simp_all [Block.agrees, State.endStop]

/-- Settles O37: the own checks of RELEASE in their order, each answered with the readings. -/
theorem releaseEndsASiteStop : Obligations.ReleaseEndsASiteStop := by
  rintro h s hs body rfl
  rw [hs.release]
  refine ⟨fun hclear => ?_, fun hstop hd => ?_, fun hstop hd hp hno => ?_, fun hstop hd hp => ?_⟩
  · rw [State.releaseOwn, hclear]
    exact hs.done s _
  all_goals rw [State.releaseOwn, if_neg (by simpa using hstop)]
  · rw [if_pos hd]
    exact hs.refused .wrongState _
  all_goals rw [if_neg (by simp [hd])]
  · rw [if_pos ⟨(anyPermit_iff _).2 hp, hno⟩]
    exact hs.refused .notPermitted _
  · rw [if_neg fun ⟨hany, hno⟩ => by rw [hp ((anyPermit_iff _).1 hany)] at hno; cases hno]
    refine ⟨s.endStop.answeredDone h .release [inputReadings s], hs.done _ _, rfl, rfl, fun c => ?_, rfl, rfl,
      (State.endStop_onlyIn s).answeredDone (by decide) _ _ _⟩
    rw [← funext Context.goOn_eq]
    exact State.ctxAt_eachCtx _ _ c


/-! ## Every context released (R66) -/

/-- What the releases of a restart leave of the contexts of `l`, each of a record and a station of its own. -/
structure ReleasedEach (s t : State) (l : List (Nat × Context)) : Prop where
  parted : ∀ p ∈ l, t.cxp.parting.get? p.2.station = some (Parting.plain (stopOrder p.2.prog.kind.stationKind))
  parting : ∀ m, (∀ p ∈ l, p.2.station ≠ m) → t.cxp.parting.get? m = s.cxp.parting.get? m
  held : ∀ p ∈ l, ∀ r, s.recAt p.2.slot = some r →
    t.slotAt p.2.slot = stepped s p.2.slot 31 (heldRecord p.2.prog .restart none r)
  slots : ∀ n, (∀ p ∈ l, p.2.slot ≠ n) → t.slotAt n = s.slotAt n
  tbc : t.tbc = { s.tbc with slots := t.tbc.slots }
  isi : t.isi = s.isi.handed (l.map (fun p => .slot p.2.slot))
  unbound : ∀ p ∈ l, t.stationAt p.2.station = { s.stationAt p.2.station with ctx := none }
  stations : ∀ m, (∀ p ∈ l, p.2.station ≠ m) → t.stationAt m = s.stationAt m
  bmu : t.bmu = { s.bmu with stations := t.bmu.stations }
  rest : OnlyIn [.tbc, .cxp, .isi, .bmu] s t

theorem ReleasedEach.line {s t : State} {l : List (Nat × Context)} (h : ReleasedEach s t l) (m : LineId) :
    t.lineAt m = s.lineAt m := by
  have ha := congrArg Bmu.lineA h.bmu
  have hb := congrArg Bmu.lineB h.bmu
  cases m
  · exact ha
  · exact hb

/-- One release of a restart. -/
def State.releaseOne (t : State) (p : Nat × Context) : State := t.releaseHeld p.1 p.2 .restart Config.partStation [] none

theorem ReleasedEach.nil (s : State) : ReleasedEach s s [] :=
  ⟨List.forall_mem_nil _, fun _ _ => rfl, List.forall_mem_nil _, fun _ _ => rfl, rfl, (Isi.handed_nil _).symm, List.forall_mem_nil _,
    fun _ _ => rfl, rfl, OnlyIn.refl _ s⟩

theorem State.releaseOne_each {s : State} {p : Nat × Context} (hlt : p.2.station < 16) {r : Record}
    (hr : s.recAt p.2.slot = some r) (hwork : r.state.isWork = true) : ReleasedEach s (s.releaseOne p) [p] := by
  obtain ⟨-, -, hpart, hparting, hst, hstations, ⟨hslot, hslots, htbc⟩, hisi, -⟩ := State.release_endsWork (c := p.1) hlt hr
    (Parting.plain (stopOrder p.2.prog.kind.stationKind)) 31 [] (f := heldFields p.2.prog .restart none)
    (by cases p.2.prog <;> rfl) (RecState.isWork_ne_held hwork).symm
  refine ⟨List.forall_mem_singleton.2 hpart, fun m hm => hparting m (hm p List.mem_cons_self).symm,
    List.forall_mem_singleton.2 fun q hq => ?_, fun n hn => hslots n (hn p List.mem_cons_self).symm, htbc, hisi,
    List.forall_mem_singleton.2 hst, fun m hm => hstations m (hm p List.mem_cons_self).symm, State.release_bmu _ _ _ _ _,
    State.releaseHeld_onlyIn_nil _ _ _ _ _ _⟩
  obtain rfl := Option.some.inj (hr.symm.trans hq)
  rw [heldFields_eq] at hslot
  exact hslot

/-- A release before others, none of which is of its record or of its station. -/
theorem ReleasedEach.cons {s t u : State} {p : Nat × Context} {l : List (Nat × Context)} (h : ReleasedEach s t [p])
    (h' : ReleasedEach t u l) (hslot : ∀ q ∈ l, p.2.slot ≠ q.2.slot) (hstation : ∀ q ∈ l, p.2.station ≠ q.2.station) :
    ReleasedEach s u (p :: l) := by
  have hp : p ∈ [p] := List.mem_cons_self
  have hslots (q : Nat × Context) (hq : q ∈ l) : t.slotAt q.2.slot = s.slotAt q.2.slot :=
    h.slots _ (List.forall_mem_singleton.2 (hslot q hq))
  have hwck : t.wck = s.wck := h.rest .wck (by decide)
  refine ⟨List.forall_mem_cons.2 ⟨?_, h'.parted⟩, fun m hm => ?_, List.forall_mem_cons.2 ⟨fun r hr => ?_, fun q hq r hr => ?_⟩,
    fun n hn => ?_, ?_, ?_, List.forall_mem_cons.2 ⟨?_, fun q hq => ?_⟩, fun m hm => ?_, ?_, h.rest.trans h'.rest⟩
  · rw [h'.parting _ fun q hq => (hstation q hq).symm]
    exact h.parted p hp
  · obtain ⟨h1, h2⟩ := List.forall_mem_cons.1 hm
    exact (h'.parting m h2).trans (h.parting m (List.forall_mem_singleton.2 h1))
  · rw [h'.slots _ fun q hq => (hslot q hq).symm]
    exact h.held p hp r hr
  · rw [h'.held q hq r (by rw [State.recAt, hslots q hq]; exact hr), stepped, stepped, State.revAt, hslots q hq, hwck]
    rfl
  · obtain ⟨h1, h2⟩ := List.forall_mem_cons.1 hn
    exact (h'.slots n h2).trans (h.slots n (List.forall_mem_singleton.2 h1))
  · rw [h'.tbc, h.tbc]
  · rw [h'.isi, h.isi, Isi.handed_handed]
    rfl
  · rw [h'.stations _ fun q hq => (hstation q hq).symm]
    exact h.unbound p hp
  · rw [h'.unbound q hq, h.stations _ (List.forall_mem_singleton.2 (hstation q hq))]
  · obtain ⟨h1, h2⟩ := List.forall_mem_cons.1 hm
    exact (h'.stations m h2).trans (h.stations m (List.forall_mem_singleton.2 h1))
  · rw [h'.bmu, h.bmu]

/-- Contexts of different records and stations, every record at work, are released one after the other. -/
theorem State.releaseEach_each (l : List (Nat × Context))
    (hpair : l.Pairwise fun a b => a.2.slot ≠ b.2.slot ∧ a.2.station ≠ b.2.station) (s : State)
    (hl : ∀ p ∈ l, p.2.station < 16 ∧ ∃ r, s.recAt p.2.slot = some r ∧ r.state.isWork = true) :
    ReleasedEach s (l.foldl State.releaseOne s) l := by
  induction l generalizing s with
  | nil => exact ReleasedEach.nil s
  | cons p l ih =>
    obtain ⟨hfirst, hrest⟩ := List.pairwise_cons.1 hpair
    obtain ⟨⟨hlt, r, hr, hwork⟩, htail⟩ := List.forall_mem_cons.1 hl
    have hone := State.releaseOne_each hlt hr hwork
    refine hone.cons (ih hrest _ fun q hq => ?_) (fun q hq => (hfirst q hq).1) fun q hq => (hfirst q hq).2
    obtain ⟨hqlt, rq, hrq, hqwork⟩ := htail q hq
    refine ⟨hqlt, rq, ?_, hqwork⟩
    rw [State.recAt, hone.slots _ (List.forall_mem_singleton.2 (hfirst q hq).1)]
    exact hrq

theorem WorkLaw.releaseAll_each {s : State} (h : WorkLaw s) : ReleasedEach s s.releaseAll s.cxp.contexts := by
  have hat (p : Nat × Context) (hp : p ∈ s.cxp.contexts) : s.ctxAt p.1 = some p.2 := Table.get?_of_mem h.1 hp
  refine State.releaseEach_each _ (List.Pairwise.imp_of_mem (fun {a b} ha hb hab => ?_) h.1) s fun p hp => ?_
  · exact ⟨fun e => Nat.ne_of_lt hab (h.slot_inj (hat a ha) (hat b hb) e),
      fun e => Nat.ne_of_lt hab (h.station_inj (hat a ha) (hat b hb) e)⟩
  · obtain ⟨-, ⟨r, hr, -, -⟩, hlt, -, -⟩ := h.2.1 p.1 p.2 (hat p hp)
    exact ⟨hlt, r, hr, (h.atWork (hat p hp) hr).1 ▸ WorkKind.isWork _⟩

/-- No context is bound once every one has been released. -/
theorem State.releaseAll_contexts (s : State) : s.releaseAll.cxp.contexts = [] := by
  have hfold (l : List (Nat × Context)) (t : State) : (l.foldl State.releaseOne t).cxp.contexts =
      t.cxp.contexts.filter (fun p => decide (∀ q ∈ l, p.1 ≠ q.1)) := by
    induction l generalizing t with
    | nil => simp
    | cons q l ih =>
      have hone : (t.releaseOne q).cxp.contexts = t.cxp.contexts.filter (fun p => p.1 ≠ q.1) := by
        rw [State.releaseOne, State.releaseHeld, State.updateRaising_cxp]
        rfl
      rw [List.foldl_cons, ih, hone, List.filter_filter]
      refine List.filter_congr fun p _ => ?_
      rw [← Bool.decide_and]
      exact decide_eq_decide.2 (by rw [List.forall_mem_cons, and_comm])
  refine (hfold s.cxp.contexts s).trans (List.filter_eq_nil_iff.2 fun p hp => ?_)
  simpa using ⟨p.2, hp⟩

/-! ## The cabinet restart (R66, R150 to R152, R170, R183) -/

theorem Station.restart_eq (x : Station) : { x with ctx := none }.restart = stationRestarted x := by
  unfold Station.restart stationRestarted
  split <;> rfl

/-- The releases and the works bus of a restart. -/
theorem WorkLaw.restartCore_spec {s : State} (h : WorkLaw s) : CabinetRestarted s s.restartCore := by
  have hrel := h.releaseAll_each
  have hmem {c : Nat} {x : Context} (hx : s.ctxAt c = some x) : (c, x) ∈ s.cxp.contexts := Table.mem_of_get? hx
  have hat (p : Nat × Context) (hp : p ∈ s.cxp.contexts) : s.ctxAt p.1 = some p.2 := Table.get?_of_mem h.1 hp
  have hslot (n : Nat) : s.restartCore.slotAt n = s.releaseAll.slotAt n := rfl
  refine ⟨s.releaseAll_contexts, fun c x hx => ⟨hrel.parted _ (hmem hx), hrel.held _ (hmem hx)⟩,
    fun m hm => hrel.parting m fun p hp => hm p.1 p.2 (hat p hp), fun n hn => hrel.slots n fun p hp => hn p.1 p.2 (hat p hp), ?_,
    hrel.isi, fun n _ => ?_, fun l => ?_, rfl, rfl, rfl, s.restartCore_wck, s.restartCore_cals, s.restartCore_channels,
    s.restartCore_freeNext⟩
  · exact congrArg (fun b : Tbc => { b with staged := none }) hrel.tbc
  · refine (Bmu.restart_stationAt s.releaseAll n).trans ?_
    rw [← Station.restart_eq]
    by_cases hbound : ∃ p ∈ s.cxp.contexts, p.2.station = n
    · obtain ⟨p, hp, rfl⟩ := hbound
      rw [hrel.unbound p hp]
    · have hnone : (s.stationAt n).ctx = none := by
        cases hc : (s.stationAt n).ctx with
        | none => rfl
        | some c =>
          obtain ⟨x, hx, hxs⟩ := h.2.2.2.1 n c hc
          exact absurd ⟨(c, x), hmem hx, hxs⟩ hbound
      rw [hrel.stations n fun p hp e => hbound ⟨p, hp, e⟩, ← hnone]
  · have hcut : s.restartCore.lineAt l = (s.lineAt l).restart := by
      rw [← hrel.line]
      cases l <;> rfl
    rw [hcut]
    unfold Line.restart lineRestarted
    split <;> rfl

/-- A stop demand with the site CLEAR begins a stop at the lowest input that demands it; nothing else follows (R146). -/
theorem State.followStop_cases (s : State) :
    (∃ i, s.ifu.stop = none ∧ stopDemand s.tbc.site s.ifu = true ∧ s.followStop = s.beginStop i) ∨
      (s.ifu.stop ≠ none ∨ stopDemand s.tbc.site s.ifu = false) ∧ s.followStop = s := by
  unfold State.followStop stopDemand
  cases hstop : s.ifu.stop with
  | some o => exact .inr ⟨.inl nofun, rfl⟩
  | none =>
    cases stopInputs s.tbc.site s.ifu with
    | nil => exact .inr ⟨.inr rfl, rfl⟩
    | cons i l => exact .inl ⟨i, rfl, rfl, rfl⟩

section
variable (s : State) (i : Fin 4)

theorem State.beginStop_ifu : (s.beginStop i).ifu = { s.ifu with stop := some { input := i.val, time := s.wck.time } } := by
  unfold State.beginStop
  dsimp only
  split
  · rw [State.tell_ifu]; rfl
  · rfl

theorem State.beginStop_atu : (s.beginStop i).atu = if s.sys.phase = .up then tellAtu s .site s.atu .siteStop else s.atu := by
  unfold State.beginStop
  dsimp only
  split
  · rfl
  · rfl

theorem State.beginStop_bmu : (s.beginStop i).bmu = (s.eachLine Line.oweAllstop).bmu := by
  unfold State.beginStop
  dsimp only
  split
  · rw [State.tell_bmu]; rfl
  · rfl

theorem State.beginStop_cxp : (s.beginStop i).cxp = (s.eachCtx Context.stop).cxp := by
  unfold State.beginStop
  dsimp only
  split
  · rw [State.tell_cxp]; rfl
  · rfl

end

/-- The part as its input filters restart, before their signals are acted on (R149, R152). -/
def State.filtersRestart (s : State) : State := { s with ifu := { s.ifu with inputs := s.ifu.inputs.map Input.restart } }

/-- Settling the key state follows the stop (R150, R152). -/
theorem State.restartInputs_ifu (s : State) : s.restartInputs.ifu = { s.filtersRestart.followStop.ifu with
    key := if keyCombination s.restartInputs.tbc.site s.restartInputs.ifu then .spent else .idle } := by
  have hkey : keyCombination s.restartInputs.tbc.site s.restartInputs.ifu =
      keyCombination s.filtersRestart.followStop.tbc.site s.filtersRestart.followStop.ifu :=
    keyCombination_congr rfl fun _ => rfl
  rw [hkey]
  rfl

/-- What the filters of a restart leave (R150, R152). -/
theorem State.restartInputs_filters (s : State) : FiltersRestarted s s.restartInputs := by
  have hinputs : s.restartInputs.ifu.inputs = s.ifu.inputs.map Input.restart := (State.followStop_inputs s.filtersRestart).1
  have hstop : s.restartInputs.ifu.stop = s.filtersRestart.followStop.ifu.stop := rfl
  have hdemand : stopDemand s.restartInputs.tbc.site s.restartInputs.ifu =
      stopDemand s.filtersRestart.tbc.site s.filtersRestart.ifu := by
    rw [stopDemand, stopDemand, stopInputs_congr (site := s.filtersRestart.tbc.site) (ifu := s.filtersRestart.ifu)
      (congrArg (fun b : Tbc => b.site.inputs) s.restartInputs_tbc) fun i => by rw [hinputs]; rfl]
  refine ⟨fun i => ?_, fun o ho => ?_, fun hclear => ?_, congrArg Ifu.key s.restartInputs_ifu⟩
  · rw [hinputs, Fin.getElem_fin, Vector.getElem_map]
    exact ⟨rfl, rfl, rfl⟩
  all_goals rw [hstop]
  · rcases s.filtersRestart.followStop_cases with ⟨i, hnone, -⟩ | ⟨-, hsame⟩
    · rw [show s.ifu.stop = none from hnone] at ho; cases ho
    · rw [hsame]; exact ho
  · rw [hdemand]
    rcases s.filtersRestart.followStop_cases with ⟨i, -, hd, hbegin⟩ | ⟨hno, hsame⟩
    · rw [hbegin, State.beginStop_ifu, hd]
      exact iff_of_true rfl rfl
    · rw [hsame, hno.resolve_left (not_not_intro hclear), show s.filtersRestart.ifu.stop = none from hclear]
      exact iff_of_false nofun nofun

/-- What a site stop that the filters begin does to the list and the lines (R146, R147). -/
theorem State.restartInputs_follows (s : State) : StopFollows s s.restartInputs := by
  have hline (l : LineId) : s.restartInputs.lineAt l = s.filtersRestart.followStop.lineAt l := by cases l <;> rfl
  have hstop : s.restartInputs.ifu.stop = s.filtersRestart.followStop.ifu.stop := rfl
  have hatu : s.restartInputs.atu = s.filtersRestart.followStop.atu := rfl
  unfold StopFollows
  rw [hstop, hatu]
  rcases s.filtersRestart.followStop_cases with ⟨i, hnone, -, hbegin⟩ | ⟨hno, hsame⟩
  · refine ⟨fun _ => ⟨by rw [hbegin, State.beginStop_atu]; rfl, fun l => ?_⟩, fun hnot => absurd ⟨hnone, ?_⟩ hnot⟩
    · rw [hline, hbegin, State.lineAt_congr (State.beginStop_bmu _ i)]
      cases l <;> rfl
    · rw [hbegin, State.beginStop_ifu]; nofun
  · rw [hsame]
    refine ⟨fun ⟨h1, h2⟩ => absurd h1 h2, fun _ => ⟨rfl, fun l => ?_⟩⟩
    rw [hline, hsame]
    cases l <;> rfl

/-- With no context bound, the filters reach nothing but the list and what the lines owe. -/
theorem State.restartInputs_kept (s : State) (hidle : s.cxp.contexts = []) : s.restartInputs.cxp = s.cxp ∧
    s.restartInputs.bmu = { s.bmu with lineA := s.restartInputs.bmu.lineA, lineB := s.restartInputs.bmu.lineB } ∧
    ∀ l, s.restartInputs.lineAt l = { s.lineAt l with allstopDue := (s.restartInputs.lineAt l).allstopDue } := by
  have hline (l : LineId) : s.restartInputs.lineAt l = s.filtersRestart.followStop.lineAt l := by cases l <;> rfl
  have hbmu : s.restartInputs.bmu = s.filtersRestart.followStop.bmu := rfl
  have hcxp : s.restartInputs.cxp = s.filtersRestart.followStop.cxp := rfl
  rw [hbmu, hcxp, funext hline]
  rcases s.filtersRestart.followStop_cases with ⟨i, -, -, hbegin⟩ | ⟨-, hsame⟩
  · rw [hbegin, State.beginStop_cxp, State.beginStop_bmu, funext (State.lineAt_congr (State.beginStop_bmu _ i))]
    refine ⟨?_, rfl, fun l => by cases l <;> rfl⟩
    show ({ s.cxp with contexts := s.cxp.contexts.mapValues Context.stop } : Cxp) = s.cxp
    rw [hidle]
    exact congrArg (fun l => ({ s.cxp with contexts := l } : Cxp)) hidle.symm
  · rw [hsame]
    exact ⟨rfl, rfl, fun l => by cases l <;> rfl⟩

/-- A cabinet restart that brings its filters: the releases, then the filters. -/
theorem WorkLaw.cabinetRestart_spec {s : State} (h : WorkLaw s) : CabinetRestarted s s.cabinetRestart ∧
    FiltersRestarted s s.cabinetRestart ∧ StopFollows s s.cabinetRestart ∧ s.cabinetRestart.sys = s.sys := by
  obtain ⟨hidle, hheld, hparting, hslots, htbc, hisi, hstations, hlines, hturn, hexch, htime, hwck, hcals, hchan, hfree⟩ :=
    h.restartCore_spec
  obtain ⟨kcxp, kbmu, klines⟩ := s.restartCore.restartInputs_kept hidle
  have hslot (n : Nat) : s.cabinetRestart.slotAt n = s.restartCore.slotAt n :=
    State.slotAt_congr (congrArg Tbc.slots (State.restartInputs_tbc _)) n
  have hstation (n : Nat) : s.cabinetRestart.stationAt n = s.restartCore.stationAt n := by
    have hst := congrArg Bmu.stations kbmu
    exact congrArg (fun v : Vector Station 16 => v[n]?.getD Station.unenrolled) hst
  have hifu := s.restartCore_ifu
  have hatu : s.restartCore.atu = s.atu := h.releaseAll_each.rest .atu (by decide)
  refine ⟨⟨(congrArg Cxp.contexts kcxp).trans hidle, fun c x hx => ?_, fun m hm => ?_, fun n hn => (hslot n).trans (hslots n hn),
    ?_, ?_, fun n hn => (hstation n).trans (hstations n hn), fun l => ?_, (congrArg Bmu.turn kbmu).trans hturn,
    (congrArg Bmu.exchange kbmu).trans hexch, (congrArg Bmu.lastTime kbmu).trans htime,
    (State.restartInputs_wck _).trans hwck, (State.restartInputs_cals _).trans hcals,
    (State.restartInputs_channels _).trans hchan, (State.restartInputs_freeNext _).trans hfree⟩, ?_, ?_, ?_⟩
  · obtain ⟨h1, h2⟩ := hheld c x hx
    exact ⟨(congrArg (fun y : Cxp => y.parting.get? x.station) kcxp).trans h1, fun r hr => (hslot _).trans (h2 r hr)⟩
  · exact (congrArg (fun y : Cxp => y.parting.get? m) kcxp).trans (hparting m hm)
  · rw [show s.cabinetRestart.tbc = s.restartCore.tbc from State.restartInputs_tbc _]
    exact htbc
  · exact (State.restartInputs_isi _).trans hisi
  · refine (klines l).trans ?_
    rw [hlines l]
    rfl
  · have hfilters := s.restartCore.restartInputs_filters
    unfold FiltersRestarted at hfilters
    rw [hifu] at hfilters
    exact hfilters
  · have hfollows := s.restartCore.restartInputs_follows
    have hsite : s.restartCore.tbc.site = s.tbc.site := by
      have := congrArg Tbc.site htbc
      exact this
    have hdue (l : LineId) : (s.restartCore.lineAt l).allstopDue = (s.lineAt l).allstopDue := by
      have hcut : s.restartCore.lineAt l = (s.releaseAll.lineAt l).restart := by cases l <;> rfl
      rw [hcut, h.releaseAll_each.line]
      unfold Line.restart
      split <;> rfl
    simp only [StopFollows, tellAtu, hifu, hatu, hsite, hdue, hwck, State.restartCore_sys] at hfollows ⊢
    exact hfollows
  · exact (State.restartInputs_sys _).trans s.restartCore_sys

/-- Settles O38: the ANSWER's end and the key's end make one and the same restart. -/
theorem requestAndKeyRestartTheCabinet : Obligations.RequestAndKeyRestartTheCabinet := by
  refine ⟨fun h s hs => ?_, fun h a s hw hx => ?_, fun s => ⟨fun ms hw hkey hrst hup => ?_, fun ms hkey hno => ?_, fun hkey => ?_⟩⟩
  · exact (hs.inRange rfl _).trans (State.take_taken hs.1 _ _)
  · have hidle : WorkLaw (s.setExchange .idle) := hw
    refine ⟨(s.setExchange .idle).cabinetRestart, ?_, hidle.cabinetRestart_spec⟩
    show execAnswerEnd s = _
    rw [execAnswerEnd, hx]
    rfl
  · refine ⟨s.cabinetRestart, ?_, hw.cabinetRestart_spec⟩
    show execKeyTimerExpiry s = _
    rw [execKeyTimerExpiry, hkey]
    exact if_neg (by simp [hrst, hup])
  · show execKeyTimerExpiry s = _
    rw [execKeyTimerExpiry, hkey]
    exact if_pos hno
  · show execKeyTimerExpiry s = _
    unfold execKeyTimerExpiry
    split
    · next ms hms => exact absurd hms (hkey ms)
    · rfl

end Sys2Proof.Machine
end

section
/-! STATION_WRITE (R54, R89, R130, R156, R162): the line coverage test, the bindings that a change takes away, the effects of a
change of kind, and the write itself. -/

namespace Sys2Proof.Machine

/-! ## The line coverage test (R156) -/

theorem anyLine_iff {p : LineId → Bool} : LineId.all.any p = true ↔ ∃ l, p l = true := by
  rw [List.any_eq_true]
  exact ⟨fun ⟨l, _, h⟩ => ⟨l, h⟩, fun ⟨l, h⟩ => ⟨l, by cases l <;> decide, h⟩⟩

/-- The stations of a table, as the entries under their numbers. -/
theorem stationAt_all (s : State) (p : Station → Bool) : s.bmu.stations.toList.all p = true ↔
    ∀ n, n < 16 → p (s.stationAt n) = true := by
  have hat {n : Nat} (hn : n < 16) : s.stationAt n = s.bmu.stations[n] := by simp [State.stationAt, hn]
  rw [List.all_eq_true]
  constructor
  · intro h n hn
    rw [hat hn]
    exact h _ (Vector.mem_toList_iff.2 (Vector.getElem_mem hn))
  · intro h x hx
    obtain ⟨n, hn, rfl⟩ := Vector.mem_iff_getElem.1 (Vector.mem_toList_iff.1 hx)
    rw [← hat hn]
    exact h n hn

theorem covered_iff (before after : LineId → LineState) (s : State) : covered before after s.bmu.stations = true ↔
    Covers before after (fun m => (s.stationAt m).inhibits) (fun m => (s.stationAt m).kind) := by
  have hzero : s.bmu.stations[0] = s.stationAt 0 := by simp [State.stationAt]
  have husable (l : LineId) : usableIn after (s.stationAt 0).inhibits 0 l = true ↔
      (after l = .active ∨ after l = .quiet) ∧ inhibitedOn (s.stationAt 0).inhibits l = false := by
    simp [usableIn, carriesCalls]
  have hactive (x : Station) : hasActive after x = true ↔
      (x.kind ≠ .none → ∃ l, after l = .active ∧ inhibitedOn x.inhibits l = false) := by
    simp only [hasActive, Bool.decide_or, Bool.or_eq_true, decide_eq_true_eq, anyLine_iff, Bool.not_eq_true', imp_iff_not_or,
      ne_eq, not_not]
  simp only [covered, hzero, decide_eq_true_eq, ← Bool.not_eq_true, anyLine_iff, husable, stationAt_all, hactive, Covers]
  rw [imp_iff_not_or]


/-! ## Bindings that a write takes away (R129, R130) -/

/-- A record without its binding, where it is one that goes. -/
def unbindIf (lost : Binding → Bool) (r : Record) : Record :=
  if r.binding.any lost = true then { r with binding := none } else r

theorem unbindIf_ne_iff {lost : Binding → Bool} {r : Record} : unbindIf lost r ≠ r ↔ r.binding.any lost = true := by
  unfold unbindIf
  split
  · next h =>
    refine iff_of_true (fun e => ?_) h
    rw [← e] at h
    cases h
  · next h => exact iff_of_false (not_not_intro rfl) h

/-- The binding of a slot, where it is one that goes. -/
def State.lostBinding (s : State) (lost : Binding → Bool) (n : Nat) : Option Binding :=
  (s.recAt n).bind (fun r => r.binding.filter lost)

/-- One binding goes: an update of the record, and of the channel that it named (R129). -/
def State.unbindOne (lost : Binding → Bool) (stamp : Nat) (s : State) (n : Nat) : State :=
  (s.update n stamp (unbindIf lost)).freeChannel (s.lostBinding lost n)

section
variable (lost : Binding → Bool) (stamp : Nat)

theorem State.unbindOne_lost {s : State} {n : Nat} {r : Record} (hr : s.recAt n = some r) (hb : r.binding.any lost = true) :
    State.unbindOne lost stamp s n = s.dropBinding n stamp r := by
  have hfilter : s.lostBinding lost n = r.binding := by
    obtain ⟨b, hrb, hlost⟩ := (Option.any_eq_true _ _).1 hb
    rw [State.lostBinding, hr, Option.bind_some, hrb]
    exact if_pos hlost
  have hupd : s.update n stamp (unbindIf lost) = s.update n stamp (fun q => { q with binding := none }) := by
    simp only [State.update, hr, unbindIf, if_pos hb]
  rw [State.unbindOne, hfilter, hupd]
  rfl

theorem State.unbindOne_kept {s : State} {n : Nat} (hb : ∀ r, s.recAt n = some r → r.binding.any lost = false) :
    State.unbindOne lost stamp s n = s := by
  unfold State.unbindOne State.lostBinding
  cases hr : s.recAt n with
  | none => rw [State.update_none hr]; rfl
  | some r =>
    have hnone : r.binding.filter lost = none := by
      cases hrb : r.binding with
      | none => rfl
      | some b => exact if_neg (by simpa [hrb] using hb r hr)
    rw [Option.bind_some, hnone]
    exact State.update_same hr stamp (not_not.1 fun hne => Bool.eq_false_iff.1 (hb r hr) (unbindIf_ne_iff.1 hne))

theorem State.unbindOne_tbc (s : State) (n : Nat) :
    (State.unbindOne lost stamp s n).tbc = (s.update n stamp (unbindIf lost)).tbc := State.freeChannel_tbc _ _

theorem State.unbindOne_onlyIn (s : State) (n : Nat) : OnlyIn [.tbc, .isi, .channels] s (State.unbindOne lost stamp s n) :=
  fun b hb => by cases b <;> simp_all [Block.agrees, State.unbindOne]

/-- Other slots keep the bindings that are to go. -/
theorem State.lostBinding_unbindOne_ne (s : State) {n m : Nat} (h : m ≠ n) :
    (State.unbindOne lost stamp s n).lostBinding lost m = s.lostBinding lost m := by
  rw [State.lostBinding, State.lostBinding,
    State.recAt_congr (s := s.update n stamp (unbindIf lost)) (congrArg Tbc.slots (State.unbindOne_tbc lost stamp s n)),
    State.recAt_update_ne s n m stamp _ h]

/-- The records and the write queue of the removals are those of one update of each slot. -/
theorem State.unbindEach_updates (l : List Nat) (s t : State) (htbc : t.tbc = s.tbc) (hisi : t.isi = s.isi)
    (hwck : t.wck = s.wck) :
    (l.foldl (State.unbindOne lost stamp) t).tbc = (l.foldl (fun u n => u.update n stamp (unbindIf lost)) s).tbc ∧
      (l.foldl (State.unbindOne lost stamp) t).isi = (l.foldl (fun u n => u.update n stamp (unbindIf lost)) s).isi := by
  induction l generalizing s t with
  | nil => exact ⟨htbc, hisi⟩
  | cons n l ih =>
    refine ih _ _ ?_ ?_ ?_
    · exact (State.unbindOne_tbc lost stamp t n).trans (State.update_tbc_congr htbc hwck n stamp _)
    · exact (State.freeChannel_isi _ _).trans (State.update_isi_congr htbc hisi n stamp _)
    · exact ((State.unbindOne_onlyIn lost stamp t n) .wck (by decide)).trans (by rw [State.update_wck, hwck])

/-- The channels that the removals free are those of the bindings that go. -/
theorem State.unbindEach_channels (l : List Nat) (hl : l.Nodup) (s : State) (key : Nat) :
    (l.foldl (State.unbindOne lost stamp) s).channels.get? key =
      if ∃ n ∈ l, (s.lostBinding lost n).map channelKey = some key then none else s.channels.get? key := by
  induction l generalizing s with
  | nil => simp
  | cons n l ih =>
    obtain ⟨hn, hnodup⟩ := List.nodup_cons.1 hl
    have hrest : (∃ m ∈ l, ((State.unbindOne lost stamp s n).lostBinding lost m).map channelKey = some key) ↔
        ∃ m ∈ l, (s.lostBinding lost m).map channelKey = some key :=
      exists_congr fun m => and_congr_right fun hm => by
        rw [State.lostBinding_unbindOne_ne lost stamp s fun e : m = n => hn (e ▸ hm)]
    rw [List.foldl_cons, ih hnodup, State.unbindOne, State.freeChannel_get?, State.update_channels, ← State.unbindOne]
    simp only [hrest, List.exists_mem_cons_iff]
    by_cases hown : (s.lostBinding lost n).map channelKey = some key
    · simp only [hown, true_or, if_true, ite_self]
    · rw [if_neg hown]
      simp only [hown, false_or]

end

theorem State.dropBindings_eq (s : State) (station first stamp : Nat) : s.dropBindings station first stamp =
    s.usedSlots.foldl (State.unbindOne (fun b => b.station = station ∧ first ≤ b.channel) stamp) s := by
  unfold State.dropBindings
  congr 1
  funext t n
  split
  · next r hr =>
    split
    · next hb => exact (State.unbindOne_lost _ _ hr hb).symm
    · next hb =>
      refine (State.unbindOne_kept _ _ fun q hq => ?_).symm
      rw [hr] at hq
      cases hq
      exact Bool.eq_false_iff.2 hb
  · next hr => exact (State.unbindOne_kept _ _ fun q hq => by rw [hr] at hq; cases hq).symm

/-- What a write of a monitor leaves where the bindings of `lost` go: one update each, and their channels free (R130). -/
structure Unbinds (s t : State) (stamp : Nat) (lost : Binding → Bool) : Prop where
  gone : ∀ m r, s.recAt m = some r → r.binding.any lost = true → t.slotAt m = stepped s m stamp { r with binding := none }
  kept : ∀ m, (∀ r, s.recAt m = some r → r.binding.any lost = false) → t.slotAt m = s.slotAt m
  tbc : t.tbc = { s.tbc with slots := t.tbc.slots }
  freed : ∀ key, (∃ m r b, s.recAt m = some r ∧ r.binding = some b ∧ lost b = true ∧ channelKey b = key) →
    t.channels.get? key = none
  channels : ∀ key, (∀ m r b, s.recAt m = some r → r.binding = some b → lost b = true → channelKey b ≠ key) →
    t.channels.get? key = s.channels.get? key
  isi : t.isi = s.isi.handed
    (((List.range 512).filter (fun m => (s.recAt m).any (fun r => r.binding.any lost))).map Item.slot)
  rest : OnlyIn [.tbc, .isi, .channels] s t

theorem Unbinds.nothing (s : State) (stamp : Nat) : Unbinds s s stamp (fun _ => false) := by
  have hno (o : Option Binding) : o.any (fun _ => false) = false := by cases o <;> rfl
  refine ⟨fun m r _ h => ?_, fun _ _ => rfl, rfl, ?_, fun _ _ => rfl, ?_, OnlyIn.refl _ s⟩
  · rw [hno] at h; cases h
  · rintro key ⟨m, r, b, -, -, h, -⟩; cases h
  · have hnil : (List.range 512).filter (fun m => (s.recAt m).any (fun r => r.binding.any (fun _ => false))) = [] := by
      refine List.filter_eq_nil_iff.2 fun m _ h => ?_
      obtain ⟨r, -, hr⟩ := (Option.any_eq_true _ _).1 h
      rw [hno] at hr; cases hr
    rw [hnil]
    rfl

theorem TableLaw.dropBindings_unbinds {s : State} (ht : TableLaw s) (station first stamp : Nat) :
    Unbinds s (s.dropBindings station first stamp) stamp (fun b => b.station = station ∧ first ≤ b.channel) := by
  rw [State.dropBindings_eq]
  generalize (fun b : Binding => decide (b.station = station ∧ first ≤ b.channel)) = lost
  obtain ⟨htbc, hisi⟩ := State.unbindEach_updates lost stamp s.usedSlots s s rfl rfl rfl
  have hslot (m : Nat) : (s.usedSlots.foldl (State.unbindOne lost stamp) s).slotAt m =
      (s.updateEach stamp (unbindIf lost)).slotAt m := State.slotAt_congr (congrArg Tbc.slots htbc) m
  have hchannel (key : Nat) := State.unbindEach_channels lost stamp s.usedSlots
    ((State.usedSlots_sorted ht.1).imp Nat.ne_of_lt) s key
  refine ⟨fun m r hr hb => ?_, fun m hm => ?_, ?_, ?_, fun key hno => ?_, ?_,
    OnlyIn.foldl (fun t n => State.unbindOne_onlyIn lost stamp t n) _ _⟩
  · rw [hslot, ht.slotAt_updateEach_of_ne stamp _ hr (unbindIf_ne_iff.2 hb), unbindIf, if_pos hb]
  · rw [hslot, ht.slotAt_updateEach_of_same stamp]
    intro r hr
    exact not_not.1 fun hne => Bool.eq_false_iff.1 (hm r hr) (unbindIf_ne_iff.1 hne)
  · exact htbc.trans ((s.updateEach_tbc stamp _).trans (by rw [htbc]; rfl))
  · rintro key ⟨m, r, b, hr, hrb, hlost, hkey⟩
    rw [hchannel, if_pos]
    refine ⟨m, State.mem_usedSlots_of_recAt hr, ?_⟩
    rw [State.lostBinding, hr, Option.bind_some, hrb, ← hkey]
    exact congrArg (Option.map channelKey) (if_pos hlost)
  · rw [hchannel, if_neg]
    rintro ⟨m, -, hm⟩
    obtain ⟨b, hb, hkey⟩ := Option.map_eq_some_iff.1 hm
    obtain ⟨r, hr, hrb⟩ := Option.bind_eq_some_iff.1 hb
    obtain ⟨hrb, hlost⟩ := Option.filter_eq_some_iff.1 hrb
    exact hno m r b hr hrb hlost hkey
  · refine hisi.trans ((ht.updateEach_isi stamp _).trans ?_)
    congr 3
    funext m
    congr 1
    funext r
    exact Bool.eq_iff_iff.2 (decide_eq_true_iff.trans unbindIf_ne_iff)

/-! ## The write (R54, R89, R130, R162) -/

theorem State.clearMark_station (s : State) (n : Nat) : s.clearMark (.station n) .stationFault =
    if (s.stationAt n).faultMark = true then
      (s.putStation n { s.stationAt n with faultMark := false }).untellOne (.station n) .stationFault
    else s := by
  simp [State.clearMark, State.marked, State.setMark]

theorem resetParting_get? (s : State) (n m : Nat) (k : StationKind) : (s.resetParting n k).cxp.parting.get? m =
    if m = n then (if k = .winch ∨ k = .grout ∨ k = .jack then some (Parting.plain (unboundOrder k)) else none)
    else s.cxp.parting.get? m := by
  have hkeeps : keepsParting k = true ↔ k = .winch ∨ k = .grout ∨ k = .jack := by cases k <;> simp [keepsParting]
  show (s.cxp.parting.set n (if keepsParting k then some (Parting.plain (unboundOrder k)) else none)).get? m = _
  simp only [hkeeps]
  by_cases hm : m = n
  · subst hm
    rw [if_pos rfl]
    split
    · exact Table.get?_put_same _ _ _
    · exact Table.get?_erase_same _ _
  · rw [if_neg hm]
    split
    · exact Table.get?_put_ne _ _ _ _ hm
    · exact Table.get?_erase_ne _ _ _ hm

/-- What the write of the entry `y` leaves before the bindings it takes away: the entry, and where the kind changes the
calibration table, the parting order and the mark (R54, R89, R162). -/
structure EntryWritten (s t : State) (n : Nat) (y : Station) : Prop where
  entry : t.stationAt n = { y with
    faultMark := y.faultMark && !(decide (y.kind ≠ (s.stationAt n).kind) && decide (y.kind = .none)) }
  stations : ∀ m, m ≠ n → t.stationAt m = s.stationAt m
  bmu : t.bmu = { s.bmu with stations := t.bmu.stations }
  cal : t.calAt n = if y.kind = (s.stationAt n).kind then s.calAt n else none
  cals : ∀ m, m ≠ n → t.calAt m = s.calAt m
  parted : t.cxp.parting.get? n = if y.kind = (s.stationAt n).kind then s.cxp.parting.get? n
    else if y.kind = .winch ∨ y.kind = .grout ∨ y.kind = .jack then some (Parting.plain (unboundOrder y.kind)) else none
  parting : ∀ m, m ≠ n → t.cxp.parting.get? m = s.cxp.parting.get? m
  contexts : t.cxp.contexts = s.cxp.contexts
  atu : t.atu = if y.kind ≠ (s.stationAt n).kind ∧ y.kind = .none ∧ y.faultMark = true then
    (s.atu.drop (fun e => e.subject = .station n ∧ e.cond = .stationFault)).sound s.tbc.site.alarm else s.atu
  rest : OnlyIn [.cxp, .cals, .atu, .bmu] s t

/-- The part as the entry is written. -/
def State.entryWritten (s : State) (n : Nat) (y : Station) : State :=
  if (s.stationAt n).kind = y.kind then s.putStation n y else (s.putStation n y).kindChanged n y.kind

/-- The part as the kind of an entry changes, but for its mark (R54, R89). -/
def State.kindWritten (s : State) (n : Nat) (y : Station) : State :=
  ({ s.putStation n y with cals := s.cals.erase n }).resetParting n y.kind

theorem State.kindChanged_eq (s : State) {n : Nat} (hn : n < 16) (y : Station) :
    (s.putStation n y).kindChanged n y.kind = if y.kind = .none ∧ y.faultMark = true then
      ((s.kindWritten n y).putStation n { y with faultMark := false }).untellOne (.station n) .stationFault
    else s.kindWritten n y := by
  have hentry : (s.kindWritten n y).stationAt n = y := State.stationAt_putStation_same _ _ _ hn
  have hchanged : (s.putStation n y).kindChanged n y.kind =
      if y.kind = .none then (s.kindWritten n y).clearMark (.station n) .stationFault else s.kindWritten n y := rfl
  rw [hchanged, State.clearMark_station, hentry]
  by_cases hk : y.kind = .none
  · rw [if_pos hk]
    simp only [hk, true_and]
  · rw [if_neg hk, if_neg fun h => hk h.1]

/-- A change of kind, whatever it does to the mark. -/
theorem EntryWritten.of_kindWritten {s t : State} {n : Nat} {y : Station} (hk : y.kind ≠ (s.stationAt n).kind)
    (hentry : t.stationAt n = { y with faultMark := y.faultMark && !decide (y.kind = .none) })
    (hstations : ∀ m, m ≠ n → t.stationAt m = s.stationAt m) (hbmu : t.bmu = { s.bmu with stations := t.bmu.stations })
    (hcals : t.cals = s.cals.erase n) (hcxp : t.cxp = (s.kindWritten n y).cxp)
    (hatu : t.atu = if y.kind = .none ∧ y.faultMark = true then
      (s.atu.drop (fun e => e.subject = .station n ∧ e.cond = .stationFault)).sound s.tbc.site.alarm else s.atu)
    (hrest : OnlyIn [.cxp, .cals, .atu, .bmu] s t) : EntryWritten s t n y := by
  have hpart (m : Nat) : (s.kindWritten n y).cxp.parting.get? m = _ := resetParting_get? _ n m y.kind
  refine ⟨by rw [hentry]; simp [hk], hstations, hbmu, ?_, fun m hm => ?_, ?_, fun m hm => ?_, by rw [hcxp]; rfl,
    by rw [hatu]; simp [hk], hrest⟩
  · rw [if_neg hk, State.calAt, hcals, Table.get?_erase_same]
  · rw [State.calAt, hcals, Table.get?_erase_ne _ _ _ hm, State.calAt]
  · rw [if_neg hk, hcxp, hpart, if_pos rfl]
  · rw [hcxp, hpart, if_neg hm]
    rfl

theorem State.entryWritten_spec (s : State) {n : Nat} (hn : n < 16) (y : Station) :
    EntryWritten s (s.entryWritten n y) n y := by
  have hput (m : Nat) (z : Station) (t : State) : (t.putStation n z).stationAt m = if m = n then z else t.stationAt m := by
    rw [State.stationAt_putStation]
    simp [hn]
  unfold State.entryWritten
  by_cases hk : (s.stationAt n).kind = y.kind
  · rw [if_pos hk]
    refine ⟨?_, fun m hm => (hput m y s).trans (if_neg hm), rfl, (if_pos hk.symm).symm, fun _ _ => rfl, (if_pos hk.symm).symm,
      fun _ _ => rfl, rfl, (if_neg fun h => h.1 hk.symm).symm, fun b hb => by cases b <;> simp_all [Block.agrees]⟩
    rw [hput, if_pos rfl]
    simp [hk]
  · have hstation (m : Nat) : (s.kindWritten n y).stationAt m = if m = n then y else s.stationAt m := hput m y s
    rw [if_neg hk, State.kindChanged_eq s hn]
    by_cases hmark : y.kind = .none ∧ y.faultMark = true
    · rw [if_pos hmark]
      refine EntryWritten.of_kindWritten (Ne.symm hk) ?_ (fun m hm => ?_) rfl rfl rfl (if_pos hmark).symm fun b hb => ?_
      · refine (hput n _ (s.kindWritten n y)).trans ((if_pos rfl).trans ?_)
        simp [hmark]
      · exact (hput m _ (s.kindWritten n y)).trans ((if_neg hm).trans ((hstation m).trans (if_neg hm)))
      · cases b <;> simp_all [Block.agrees, State.kindWritten, State.resetParting]
    · rw [if_neg hmark]
      refine EntryWritten.of_kindWritten (Ne.symm hk) ?_ (fun m hm => ?_) rfl rfl rfl (if_neg hmark).symm fun b hb => ?_
      · rw [hstation, if_pos rfl]
        have hkeep : (y.faultMark && !decide (y.kind = .none)) = y.faultMark := by cases hf : y.faultMark <;> simp_all
        rw [hkeep]
      · exact (hstation m).trans (if_neg hm)
      · cases b <;> simp_all [Block.agrees, State.kindWritten, State.resetParting]

/-! ## STATION_WRITE (R162) -/

theorem paramOk_iff {k : StationKind} {v : Nat} : paramOk k v = true ↔ k = .winch ∧ 1 ≤ v ∧ v ≤ 1000 ∨
    k = .grout ∧ 1 ≤ v ∧ v ≤ 65535 ∨ k = .monitor ∧ 1 ≤ v ∧ v ≤ 8 := by
  cases k <;> simp [paramOk, within]

theorem needsParam_iff {k : StationKind} : needsParam k = true ↔ k = .winch ∨ k = .grout ∨ k = .monitor := by
  cases k <;> simp [needsParam]

theorem ofCode_stationKind (k : StationKind) : ofCode StationKind.all (codeIn StationKind.all k) = some k := by
  cases k <;> rfl

theorem kindAfter_code (x : Station) (kind : Option StationKind) :
    kindAfter x (kind.map (codeIn StationKind.all)) = kind.getD x.kind := by
  cases kind with
  | none => rfl
  | some k =>
    rw [kindAfter, Option.map_some, Option.bind_some, ofCode_stationKind, Option.getD_some]

theorem stationWriteOk_iff (s : State) (n : Nat) (kind : Option StationKind) (retry param : Option Nat) {x : Station}
    {k : StationKind} (hx : x = s.stationAt n) (hk : k = kind.getD x.kind) :
    s.stationWriteOk n (kind.map (codeIn StationKind.all)) retry param = true ↔
      n < 16 ∧ (∀ v, retry = some v → v ≤ 3) ∧ (n = 0 ↔ k = .supervisor) ∧
      (∀ v, param = some v → k = .winch ∧ 1 ≤ v ∧ v ≤ 1000 ∨ k = .grout ∧ 1 ≤ v ∧ v ≤ 65535 ∨
        k = .monitor ∧ 1 ≤ v ∧ v ≤ 8) ∧
      (k ≠ x.kind → k = .winch ∨ k = .grout ∨ k = .monitor → param ≠ none) := by
  have hcode : (kind.map (codeIn StationKind.all)).all (codeOk StationKind.all) = true := by
    cases kind with
    | none => rfl
    | some k => simp [codeOk, ofCode_stationKind]
  subst hx
  rw [State.stationWriteOk, kindAfter_code, ← hk, decide_eq_true_eq]
  simp only [stationOk, decide_eq_true_eq, hcode, true_and, withinOpt_iff, Nat.zero_le, kindAllowed, Option.all_eq_true,
    paramOk_iff, ← Bool.not_eq_true, needsParam_iff, Option.isSome_iff_ne_none, ne_eq]
  tauto

theorem Served.stationWrite {s : State} {h : Ask} (hs : Served s h .stationWrite) {n : Nat} {kind : Option StationKind}
    {retry param : Option Nat} (inhibits : Option Inhibits)
    (hgood : s.stationWriteOk n (kind.map (codeIn StationKind.all)) retry param = true) :
    exec (.stationWrite h n (kind.map (codeIn StationKind.all)) retry inhibits param) s = s.take h Req.stationWrite.code
      (s.stationOwn n h.station ((s.stationAt n).written (kind.map (codeIn StationKind.all)) retry inhibits param)) :=
  hs.inRange hgood _

theorem enrolmentDiffers_iff {x y : Station} {k : StationKind} {retry : Nat} {inhibits : Inhibits} {own new : Option Nat}
    {st : StationState}
    (hy : y = if k = x.kind then { x with retry := retry, inhibits := inhibits, param := own }
      else { x with
        kind := k, retry := retry, inhibits := inhibits, param := new, state := st, failures := 0, lastError := none
        telemetry := none }) :
    y.kind = k ∧ (enrolmentDiffers x y = true ↔ ¬ (k = x.kind ∧ y = x)) := by
  subst hy
  by_cases hk : k = x.kind
  · subst hk
    obtain ⟨kind, state, r, i, preferred, failures, lastError, ctx, p, telemetry, faultMark⟩ := x
    simp only [if_true, true_and, enrolmentDiffers, decide_eq_true_eq, Station.mk.injEq, ne_eq, not_true_eq_false, false_or,
      and_true]
    rw [eq_comm (a := r), eq_comm (a := i), eq_comm (a := p)]
    tauto
  · simp [hk, enrolmentDiffers, Ne.symm hk]

/-- The bindings that a write takes away, as the first channel lost gives them (R130). -/
def losesBinding (n : Nat) (x y : Station) (b : Binding) : Bool :=
  (firstLost x y).any (fun c => decide (b.station = n ∧ c ≤ b.channel))

theorem losesBinding_eq (n : Nat) (x y : Station) (b : Binding) : losesBinding n x y b =
    (decide (b.station = n) && decide (x.kind = .monitor) && (decide (y.kind ≠ .monitor) ||
      decide (y.param.getD 0 < x.param.getD 0) && decide (y.param.getD 0 ≤ b.channel))) := by
  unfold losesBinding firstLost
  by_cases hx : x.kind = .monitor <;> by_cases hy : y.kind = .monitor <;>
    by_cases hp : y.param.getD 0 < x.param.getD 0 <;> simp [hx, hy, hp]

/-- The part as an entry is written and the bindings that it takes away are removed (R130, R162). -/
def State.bindingsWritten (s : State) (n sender : Nat) (y : Station) : State :=
  match firstLost (s.stationAt n) y with
  | some c => (s.entryWritten n y).dropBindings n c sender
  | none => s.entryWritten n y

theorem State.writeStation_eq (s : State) (n sender : Nat) (y : Station) : s.writeStation n sender y =
    if enrolmentDiffers (s.stationAt n) y = true then (s.bindingsWritten n sender y).hand .header
    else s.bindingsWritten n sender y := rfl

theorem State.bindingsWritten_unbinds {s : State} (ht : TableLaw s) {n : Nat} (hn : n < 16) (sender : Nat) (y : Station) :
    Unbinds (s.entryWritten n y) (s.bindingsWritten n sender y) sender (losesBinding n (s.stationAt n) y) := by
  have htbc : (s.entryWritten n y).tbc = s.tbc := (s.entryWritten_spec hn y).rest .tbc (by decide)
  have ht' : TableLaw (s.entryWritten n y) := ht.congr (by rw [htbc]) (by rw [htbc])
  unfold State.bindingsWritten
  have hlose (b : Binding) : losesBinding n (s.stationAt n) y b =
    (firstLost (s.stationAt n) y).any (fun c => decide (b.station = n ∧ c ≤ b.channel)) := rfl
  rw [funext hlose]
  cases firstLost (s.stationAt n) y with
  | none => exact Unbinds.nothing _ _
  | some c => exact ht'.dropBindings_unbinds n c sender

/-- What a taken STATION_WRITE leaves: the entry written, the bindings removed, the header handed where the enrolment differs. -/
theorem State.writeStation_spec {s : State} (ht : TableLaw s) {n : Nat} (hn : n < 16) (sender : Nat) (y : Station) :
    ∃ e u, EntryWritten s e n y ∧ Unbinds e u sender (losesBinding n (s.stationAt n) y) ∧
      OnlyIn [.isi] u (s.writeStation n sender y) ∧ (s.writeStation n sender y).isi = u.isi.handed
        (if enrolmentDiffers (s.stationAt n) y = true then [.header] else []) := by
  refine ⟨s.entryWritten n y, s.bindingsWritten n sender y, s.entryWritten_spec hn y, State.bindingsWritten_unbinds ht hn sender y,
    ?_, ?_⟩
  all_goals
    rw [State.writeStation_eq]
    split
  · exact fun b hb => by cases b <;> simp_all [Block.agrees]
  · exact OnlyIn.refl _ _
  · exact State.hand_isi_eq _ _
  · rfl

/-- Settles O39: the ranges, the own checks in their order, and the entry, the bindings and the header of a taken write. -/
theorem stationWriteSetsTheEntry : Obligations.StationWriteSetsTheEntry := by
  refine ⟨fun h n k retry inhibits param s hs hk => ?_, ?_⟩
  · refine hs.outOfRange (Bool.eq_false_iff.2 fun hok => ?_) _
    have hcode : codeOk StationKind.all k = true := by
      obtain ⟨-, h2, -⟩ := of_decide_eq_true hok
      exact h2
    obtain ⟨h1, h2⟩ := codeOk_iff.1 hcode
    have hlen : StationKind.all.length = 6 := rfl
    omega
  intro h n kind retry inhibits param s x y k cmd hcmd hs hx hk hy good covered lost hgood hcovered hlost
  subst hcmd
  have hok := stationWriteOk_iff s n kind retry param hx hk
  have hwritten : y = (s.stationAt n).written (kind.map (codeIn StationKind.all)) retry inhibits param := by
    rw [Station.written, kindAfter_code, ← hx, ← hk]
    exact hy
  obtain ⟨hkind, hdiffers⟩ := enrolmentDiffers_iff hy
  refine ⟨fun hbad => ?_, ?_⟩
  · exact hs.outOfRange (Bool.eq_false_iff.2 fun hok' => hbad (hgood.2 (hok.1 hok'))) _
  have hcov (hg : good) : Machine.covered s.lineStates s.lineStates (s.putStation n y).bmu.stations = true ↔ covered := by
    have hst (m : Nat) : (s.putStation n y).stationAt m = if m = n then y else s.stationAt m := by
      rw [State.stationAt_putStation]
      simp [(hgood.1 hg).1]
    rw [covered_iff, hcovered]
    simp only [hst, apply_ite Station.inhibits, apply_ite Station.kind, hkind]
  refine ⟨fun hg hne hctx => ?_, fun hg hfree hch hno => ?_, fun hg hfree hch ht => ?_⟩
  all_goals rw [hs.stationWrite inhibits (hok.2 (hgood.1 hg)), ← hwritten, State.stationOwn, ← hx, hkind]
  · rw [if_pos ⟨hne.symm, Option.isSome_iff_ne_none.2 hctx⟩]
    exact hs.refused .stationBound []
  all_goals rw [if_neg fun hbound => hfree.elim hbound.1.symm (Option.isSome_iff_ne_none.1 hbound.2)]
  · rw [if_pos ⟨hch.imp Ne.symm Ne.symm, Bool.eq_false_iff.2 fun hc => hno ((hcov hg).1 hc)⟩]
    exact hs.refused .lastLine []
  · rw [if_neg fun ⟨hchange, hc⟩ => hch.elim (fun e => hchange.elim (fun h => h e.1.symm) fun h => h e.2.symm)
      fun hc' => by rw [(hcov hg).2 hc'] at hc; cases hc]
    obtain ⟨e, u, he, hu, hw, hisi⟩ := State.writeStation_spec ht (hgood.1 hg).1 h.station y
    have hetbc : e.tbc = s.tbc := he.rest .tbc (by decide)
    have hslot (m : Nat) : e.slotAt m = s.slotAt m := State.slotAt_congr (congrArg Tbc.slots hetbc) m
    have hrec (m : Nat) : e.recAt m = s.recAt m := congrArg Slot.rec? (hslot m)
    have hwtbc : (s.writeStation n h.station y).tbc = u.tbc := hw .tbc (by decide)
    have hwslot (m : Nat) : (s.writeStation n h.station y).slotAt m = u.slotAt m :=
      State.slotAt_congr (congrArg Tbc.slots hwtbc) m
    have hbmu : (s.writeStation n h.station y).bmu = e.bmu := (hw .bmu (by decide)).trans (hu.rest .bmu (by decide))
    have hcxp : (s.writeStation n h.station y).cxp = e.cxp := (hw .cxp (by decide)).trans (hu.rest .cxp (by decide))
    have hcals : (s.writeStation n h.station y).cals = e.cals := (hw .cals (by decide)).trans (hu.rest .cals (by decide))
    have hchan : (s.writeStation n h.station y).channels = u.channels := hw .channels (by decide)
    have hlost' (m : Nat) : lost m = (s.recAt m).any (fun r => r.binding.any (losesBinding n x y)) := by
      rw [hlost, funext (losesBinding_eq n x y), hkind]
    have hgone (m : Nat) (r : Record) (hl : lost m = true) (hr : s.recAt m = some r) : r.binding.any (losesBinding n x y) = true := by
      rwa [hlost', hr] at hl
    have hmark : y.faultMark = x.faultMark := by rw [hwritten, hx]; exact (Station.written_kept _ _ _ _ _).2
    subst hx
    rw [hs.done]
    refine ⟨(s.writeStation n h.station y).answeredDone h .stationWrite [], rfl, ?_, fun m hm => ?_, ?_, ?_, fun m hm => ?_, ?_,
      fun m hm => ?_, ?_, fun m r hl hr => ?_, fun m hl => ?_, ?_, ?_, fun key hno => ?_, ?_, ?_, ?_⟩
    · refine (State.stationAt_congr hbmu n).trans ?_
      rw [he.entry, hkind, hmark]
    · exact (State.stationAt_congr hbmu m).trans (he.stations m hm)
    · exact State.answeredDone_stations (by rw [hbmu]; exact he.bmu) _ _ _
    · refine (congrArg (fun c : Table (List CalPoint) => c.get? n) hcals).trans (he.cal.trans ?_)
      rw [hkind]
    · exact (congrArg (fun c : Table (List CalPoint) => c.get? m) hcals).trans (he.cals m hm)
    · refine (congrArg (fun c : Cxp => c.parting.get? n) hcxp).trans (he.parted.trans ?_)
      rw [hkind]
    · exact (congrArg (fun c : Cxp => c.parting.get? m) hcxp).trans (he.parting m hm)
    · exact (congrArg Cxp.contexts hcxp).trans he.contexts
    · refine (hwslot m).trans ((hu.gone m r ((hrec m).trans hr) (hgone m r hl hr)).trans ?_)
      rw [stepped, stepped, State.revAt, hslot, show e.wck = s.wck from he.rest .wck (by decide)]
      rfl
    · refine (hwslot m).trans ((hu.kept m fun r hr => ?_).trans (hslot m))
      rwa [hlost', ← hrec, hr] at hl
    · exact hwtbc.trans (hu.tbc.trans (by rw [hetbc, ← hwtbc]; rfl))
    · rintro key ⟨m, r, b, hl, hr, hrb, hkey⟩
      have hb : losesBinding n (s.stationAt n) y b = true := by simpa [hrb] using hgone m r hl hr
      exact (congrArg (fun c : Table Nat => c.get? key) hchan).trans (hu.freed key ⟨m, r, b, (hrec m).trans hr, hrb, hb, hkey⟩)
    · refine (congrArg (fun c : Table Nat => c.get? key) hchan).trans ((hu.channels key fun m r b hr hrb hb => ?_).trans ?_)
      · refine hno m r b ?_ ((hrec m).symm.trans hr) hrb
        rw [hlost', ← hrec, hr, Option.any_some, hrb]
        exact hb
      · rw [show e.channels = s.channels from he.rest .channels (by decide)]
    · refine hisi.trans ?_
      rw [hu.isi, Isi.handed_handed, funext hrec, ← funext hlost', show e.isi = s.isi from he.rest .isi (by decide)]
      by_cases hd : enrolmentDiffers (s.stationAt n) y = true
      · rw [if_pos hd, if_neg (hdiffers.1 hd)]
      · rw [if_neg hd, if_pos (not_not.1 fun hne => hd (hdiffers.2 hne))]
    · refine ((hw .atu (by decide)).trans (hu.rest .atu (by decide))).trans (he.atu.trans ?_)
      rw [hkind, hmark]
    · exact OnlyIn.answeredDone (blocks := [.tbc, .cxp, .cals, .channels, .atu, .isi, .bmu])
        ((he.rest.mono (by decide)).trans ((hu.rest.mono (by decide)).trans (hw.mono (by decide)))) (by decide) _ _ _

end Sys2Proof.Machine
end

section
/-! The turns of a scan (R57, R156, R159 to R168): where the turn goes, what a failed window leaves, and the events of the scan. -/

namespace Sys2Proof.Machine

/-! ## What the judgement of a scan leaves (R159) -/

/-- Of the works bus at most the lines differ, and beside it at most the attention list. -/
structure LinesOnly (s t : State) : Prop where
  bmu : t.bmu = { s.bmu with lineA := t.bmu.lineA, lineB := t.bmu.lineB }
  rest : OnlyIn [.bmu, .atu] s t

theorem LinesOnly.refl (s : State) : LinesOnly s s := ⟨rfl, OnlyIn.refl _ s⟩

theorem LinesOnly.trans {s t u : State} (h : LinesOnly s t) (h' : LinesOnly t u) : LinesOnly s u :=
  ⟨by rw [h'.bmu, h.bmu], h.rest.trans h'.rest⟩

theorem LinesOnly.raiseIf (s : State) (l : LineId) {c : Cond} (hc : c = .lineFault ∨ c = .lineNoise) (shows : Bool) :
    LinesOnly s (s.raiseIf l c shows) := by
  unfold State.raiseIf State.raiseMark
  split
  · split
    · exact LinesOnly.refl s
    · obtain ⟨x, hx⟩ : ∃ x, s.setMark (.line l) c true = s.putLine l x := by rcases hc with rfl | rfl <;> exact ⟨_, rfl⟩
      rw [hx]
      refine ⟨?_, fun b hb => by cases b <;> simp_all [Block.agrees]⟩
      rw [State.tell_bmu]
      cases l <;> rfl
  · exact LinesOnly.refl s

/-- The part once the scan's figures are those of the last completed one, before they are judged (R163). -/
def State.scanClosed (s : State) : State :=
  ({ s with bmu := { s.bmu with turn := none } }).eachLine Line.completeScan

theorem State.endScan_lines (s : State) : LinesOnly s.scanClosed s.endScan :=
  (((LinesOnly.raiseIf _ .a (.inr rfl) _).trans (LinesOnly.raiseIf _ .b (.inr rfl) _)).trans
    (LinesOnly.raiseIf _ .a (.inl rfl) _)).trans (LinesOnly.raiseIf _ .b (.inl rfl) _)

/-- A scan without attempts or noise is judged without a mark. -/
theorem State.endScan_quiet {s : State} (h : ∀ l, (s.lineAt l).tally = 0 ∧ (s.lineAt l).attempts = 0) :
    s.endScan = s.scanClosed := by
  have hnoise (l : LineId) : decide (8 ≤ (s.lineAt l).tally) = false := by rw [(h l).1]; rfl
  have hfault (l : LineId) (y : Line) : lineFaulty (s.lineAt l) y = false := by simp [lineFaulty, (h l).2]
  show State.raiseIf (State.raiseIf (State.raiseIf (State.raiseIf s.scanClosed .a .lineNoise (decide (8 ≤ (s.lineAt .a).tally)))
    .b .lineNoise (decide (8 ≤ (s.lineAt .b).tally))) .a .lineFault (lineFaulty (s.lineAt .a) (s.lineAt .b))) .b .lineFault
    (lineFaulty (s.lineAt .b) (s.lineAt .a)) = _
  rw [hnoise, hnoise, hfault, hfault]
  rfl

/-! ## Where the turn goes (R164) -/

/-- Of the works bus at most the lines and the turn differ, and beside it at most the attention list. -/
structure TurnOnly (s t : State) : Prop where
  bmu : t.bmu = { s.bmu with lineA := t.bmu.lineA, lineB := t.bmu.lineB, turn := t.bmu.turn }
  rest : OnlyIn [.bmu, .atu] s t

theorem TurnOnly.stations {s t : State} (h : TurnOnly s t) : t.bmu.stations = s.bmu.stations := by
  have := congrArg Bmu.stations h.bmu
  exact this

theorem TurnOnly.exchange {s t : State} (h : TurnOnly s t) : t.bmu.exchange = s.bmu.exchange := by
  have := congrArg Bmu.exchange h.bmu
  exact this

theorem State.endScan_turnOnly (s : State) : TurnOnly s s.endScan :=
  ⟨by rw [s.endScan_lines.bmu]; rfl, OnlyIn.trans (t := s.scanClosed) (fun b hb => by cases b <;> simp_all [Block.agrees, State.scanClosed])
    s.endScan_lines.rest⟩

theorem State.endScan_turn (s : State) : s.endScan.bmu.turn = none := by
  have := congrArg Bmu.turn s.endScan_lines.bmu
  exact this

theorem State.turnFrom_turnOnly (s : State) (n : Nat) : TurnOnly s (s.turnFrom n) := by
  unfold State.turnFrom
  split
  · exact ⟨rfl, fun b hb => by cases b <;> simp_all [Block.agrees]⟩
  · exact s.endScan_turnOnly

/-- The turn goes to the next station that has one, and with none left the scan ends (R164). -/
theorem State.turnFrom_goesTo (s : State) (n : Nat) : TurnGoesTo s (s.turnFrom n) n := by
  have hnext (m : Nat) : decide (n ≤ m ∧ s.hasTurn m = true) = true ↔ n ≤ m ∧ HasTurn s m := by
    rw [decide_eq_true_eq, hasTurn_iff]
  have hlt {m : Nat} (h : HasTurn s m) : m < Config.stationCount := h.1
  unfold State.turnFrom
  constructor
  · intro m hm hturn hfirst
    have hfind : (List.range Config.stationCount).find? (fun m => decide (n ≤ m ∧ s.hasTurn m = true)) = some m := by
      refine List.find?_range_eq_some.2 ⟨(hnext m).2 ⟨hm, hturn⟩, List.mem_range.2 (hlt hturn), fun j hj => ?_⟩
      rw [Bool.not_eq_true', ← Bool.not_eq_true, hnext]
      exact fun ⟨h1, h2⟩ => hfirst j h1 hj h2
    rw [hfind]
    rfl
  · intro hnone
    have hfind : (List.range Config.stationCount).find? (fun m => decide (n ≤ m ∧ s.hasTurn m = true)) = none :=
      List.find?_eq_none.2 fun m _ h => hnone m ((hnext m).1 h).1 ((hnext m).1 h).2
    rw [hfind]
    exact s.endScan_turn

/-- Stations have turns alike where they are called alike on lines in like states. -/
theorem HasTurn.congr {s s' : State} (hstations : ∀ n, ((s'.stationAt n).state = .unused ↔ (s.stationAt n).state = .unused) ∧
    (s'.stationAt n).inhibits = (s.stationAt n).inhibits) (hlines : ∀ l, (s'.lineAt l).state = (s.lineAt l).state) (n : Nat) :
    HasTurn s' n ↔ HasTurn s n := by
  simp only [HasTurn, State.usable, hlines, (hstations n).2, ne_eq, (hstations n).1]

theorem TurnGoesTo.congr {s s' t : State} {n : Nat} (h : TurnGoesTo s' t n) (hturn : ∀ m, HasTurn s' m ↔ HasTurn s m) :
    TurnGoesTo s t n := by
  unfold TurnGoesTo at *
  simpa only [hturn] using h

/-- The turn under way ends (R164, R168). -/
theorem State.moveTurn_goesTo {s : State} {u : Turn} (hu : s.bmu.turn = some u) :
    TurnGoesTo s s.moveTurn (u.station + 1) ∧ TurnOnly s s.moveTurn := by
  have hmove : s.moveTurn = s.turnFrom (u.station + 1) := by rw [State.moveTurn, hu]
  rw [hmove]
  exact ⟨s.turnFrom_goesTo _, s.turnFrom_turnOnly _⟩

theorem State.setExchange_onlyIn (s : State) (x : Exchange) : OnlyIn [.bmu] s (s.setExchange x) := fun b hb => by
  cases b <;> simp_all [Block.agrees]

theorem HasTurn.setExchange (s : State) (x : Exchange) (m : Nat) : HasTurn (s.setExchange x) m ↔ HasTurn s m :=
  HasTurn.congr (fun _ => ⟨Iff.rfl, rfl⟩) (fun l => by cases l <;> rfl) m

/-- A turn that ends as an exchange does: where it goes, and what it leaves. -/
theorem State.moveTurn_idle {s : State} {u : Turn} (hu : s.bmu.turn = some u) :
    TurnGoesTo s (s.setExchange .idle).moveTurn (u.station + 1) ∧ (s.setExchange .idle).moveTurn.bmu.exchange = .idle ∧
      (s.setExchange .idle).moveTurn.bmu.stations = s.bmu.stations ∧ OnlyIn [.bmu, .atu] s (s.setExchange .idle).moveTurn := by
  obtain ⟨hgoes, honly⟩ := State.moveTurn_goesTo (s := s.setExchange .idle) hu
  exact ⟨hgoes.congr (HasTurn.setExchange s .idle), honly.exchange, honly.stations,
    ((s.setExchange_onlyIn .idle).mono (by decide)).trans honly.rest⟩


/-! ## A window that fails (R57, R160, R162, R167) -/

theorem Context.suspended_eq (x : Context) : x.suspended = suspendedContext x := by
  obtain ⟨slot, station, run, suspend, limitDue, prog⟩ := x
  cases run <;> cases prog <;> rfl

theorem State.attemptFailed_retried {s : State} {u : Turn} (e : FrameError) (hleft : u.tries ≤ u.retry)
    (hturn : HasTurn s u.station) : s.attemptFailed u e = s := if_pos ⟨hleft, (pickLine_isSome s u).2 hturn⟩

theorem State.attemptFailed_failed {s : State} {u : Turn} (e : FrameError)
    (hno : u.retry < u.tries ∨ ¬ HasTurn s u.station) : s.attemptFailed u e = (s.callFailed u.station e).moveTurn :=
  if_neg fun ⟨h1, h2⟩ => hno.elim (Nat.not_lt.2 h1) (not_not_intro ((pickLine_isSome s u).1 h2))

/-- The entry of a station whose call has failed (R160, R167). -/
def Station.missed (x : Station) (e : FrameError) (silence : Nat) : Station :=
  { x with
    failures := min 255 (x.failures + 1), lastError := some e
    state := if x.state = .present ∧ silence ≤ min 255 (x.failures + 1) then .seeking else x.state }

/-- A failed call counts against its station, and one that is lost has its context suspended (R57, R167). -/
theorem State.callFailed_eq (s : State) (n : Nat) (e : FrameError) : s.callFailed n e =
    if (s.stationAt n).state = .present ∧ s.tbc.site.silence ≤ min 255 ((s.stationAt n).failures + 1) then
      (s.putStation n ((s.stationAt n).missed e s.tbc.site.silence)).suspendBound n
    else s.putStation n ((s.stationAt n).missed e s.tbc.site.silence) := by
  have hbump : bump255 (s.stationAt n).failures = min 255 ((s.stationAt n).failures + 1) := rfl
  simp only [State.callFailed, hbump]
  split
  · next h => rw [Station.missed, if_pos h]
  · next h => rw [Station.missed, if_neg h]

theorem State.callFailed_stationAt (s : State) {n : Nat} (hn : n < 16) (e : FrameError) (m : Nat) :
    (s.callFailed n e).stationAt m = if m = n then (s.stationAt n).missed e s.tbc.site.silence else s.stationAt m := by
  have hput : (s.putStation n ((s.stationAt n).missed e s.tbc.site.silence)).stationAt m =
      if m = n then (s.stationAt n).missed e s.tbc.site.silence else s.stationAt m := by
    rw [State.stationAt_putStation]
    simp [hn]
  rw [State.callFailed_eq]
  split
  · exact (State.stationAt_congr (State.suspendBound_bmu _ n) m).trans hput
  · exact hput

theorem State.callFailed_bmu (s : State) (n : Nat) (e : FrameError) :
    (s.callFailed n e).bmu = { s.bmu with stations := (s.callFailed n e).bmu.stations } := by
  rw [State.callFailed_eq]
  split
  · rw [State.suspendBound_bmu]
    rfl
  · rfl

theorem State.suspendBound_parting (s : State) (n : Nat) : (s.suspendBound n).cxp.parting = s.cxp.parting := by
  unfold State.suspendBound
  split
  · rfl
  · split <;> rfl

/-- Of the contexts, the one that the station names is suspended. -/
theorem State.suspendBound_ctxAt (s : State) (n d : Nat) : (s.suspendBound n).ctxAt d =
    if (s.stationAt n).ctx = some d then (s.ctxAt d).map Context.suspended else s.ctxAt d := by
  unfold State.suspendBound
  cases hc : (s.stationAt n).ctx with
  | none => rw [if_neg nofun]
  | some c =>
    dsimp only
    by_cases hd : d = c
    · subst hd
      rw [if_pos rfl]
      cases hx : s.ctxAt d with
      | none => exact hx
      | some x => exact State.ctxAt_putCtx_same _ _ _
    · rw [if_neg fun e => hd (Option.some.inj e).symm]
      cases s.ctxAt c with
      | none => rfl
      | some x => exact State.ctxAt_putCtx_ne _ _ _ _ hd

/-- A failed call takes no turn from a station: one that is lost is called again (R162, R164). -/
theorem State.callFailed_hasTurn (s : State) {n : Nat} (hn : n < 16) (e : FrameError) (m : Nat) :
    HasTurn (s.callFailed n e) m ↔ HasTurn s m := by
  refine HasTurn.congr (fun k => ?_) (fun l => ?_) m
  · rw [State.callFailed_stationAt s hn]
    split
    · next hk =>
      subst hk
      refine ⟨?_, rfl⟩
      rw [Station.missed]
      dsimp only
      split
      · next hp => rw [hp.1]; exact iff_of_false nofun nofun
      · exact Iff.rfl
    · exact ⟨Iff.rfl, rfl⟩
  · have ha := congrArg Bmu.lineA (s.callFailed_bmu n e)
    have hb := congrArg Bmu.lineB (s.callFailed_bmu n e)
    cases l
    · exact congrArg Line.state ha
    · exact congrArg Line.state hb

theorem State.callFailed_onlyIn (s : State) (n : Nat) (e : FrameError) : OnlyIn [.bmu, .cxp] s (s.callFailed n e) :=
  fun b hb => by cases b <;> simp_all [Block.agrees]

/-- The contexts of a failed call (R57). -/
theorem State.callFailed_cxp (s : State) {n : Nat} (hn : n < 16) (e : FrameError) :
    (s.callFailed n e).cxp.parting = s.cxp.parting ∧ ∀ d, (s.callFailed n e).ctxAt d =
      if ((s.stationAt n).state = .present ∧ s.tbc.site.silence ≤ min 255 ((s.stationAt n).failures + 1)) ∧
        (s.stationAt n).ctx = some d then (s.ctxAt d).map suspendedContext else s.ctxAt d := by
  rw [State.callFailed_eq]
  split
  · next hlost =>
    refine ⟨State.suspendBound_parting _ _, fun d => ?_⟩
    rw [State.suspendBound_ctxAt, State.stationAt_putStation_same _ _ _ hn, ← funext Context.suspended_eq]
    simp only [hlost, and_self, true_and]
    rfl
  · next hkept => exact ⟨rfl, fun d => (if_neg fun h => hkept h.1).symm⟩

/-- Settles O45: an attempt is retried or its call has failed, a FETCH ends its turn, and no open window changes nothing. -/
theorem failedWindowCountsAgainstTheStation : Obligations.FailedWindowCountsAgainstTheStation := by
  refine ⟨fun cmd e s u hcmd hu hn => ?_, fun e s hno => ?_⟩
  · have hexec : exec cmd s = .next (s.windowFailed e) := by rcases hcmd with ⟨rfl, rfl⟩ | rfl <;> rfl
    rw [hexec]
    refine ⟨fun l hx => ?_, fun l hx => ?_⟩
    · have hfail : s.windowFailed e = (s.setExchange .idle).attemptFailed u e := by rw [State.windowFailed, hx, hu]
      rw [hfail]
      refine ⟨fun hleft hturn => congrArg Host.Outcome.next (State.attemptFailed_retried e hleft hturn),
        fun hfailed count lost hcount hlost => ?_⟩
      have hbmu := (s.setExchange .idle).callFailed_bmu u.station e
      have hst (m : Nat) : ((s.setExchange .idle).callFailed u.station e).stationAt m =
          if m = u.station then (s.stationAt u.station).missed e s.tbc.site.silence else s.stationAt m :=
        State.callFailed_stationAt _ hn e m
      obtain ⟨hparting, hctx⟩ := (s.setExchange .idle).callFailed_cxp hn e
      have hmiss : (s.stationAt u.station).missed e s.tbc.site.silence = { s.stationAt u.station with
          failures := count, lastError := some e
          state := if (s.stationAt u.station).state = .present ∧ s.tbc.site.silence ≤ count then .seeking
            else (s.stationAt u.station).state } := by rw [hcount]; rfl
      have hsame := State.callFailed_hasTurn (s.setExchange .idle) hn e
      generalize hs1 : (s.setExchange .idle).callFailed u.station e = s1 at *
      have hturn : s1.bmu.turn = some u := by rw [hbmu]; exact hu
      have hidle : s1.bmu.exchange = .idle := by rw [hbmu]; rfl
      obtain ⟨hgoes, honly⟩ := State.moveTurn_goesTo hturn
      have hstation (m : Nat) : s1.moveTurn.stationAt m = s1.stationAt m := by
        rw [State.stationAt, State.stationAt, honly.stations]
      have hcxp : s1.moveTurn.cxp = s1.cxp := honly.rest .cxp (by decide)
      have hctxAt (d : Nat) : s1.moveTurn.ctxAt d = s1.ctxAt d := by rw [State.ctxAt, State.ctxAt, hcxp]
      have hcond : lost ↔ (s.stationAt u.station).state = .present ∧
          s.tbc.site.silence ≤ min 255 ((s.stationAt u.station).failures + 1) := by rw [hlost, hcount]
      have hctx' (d : Nat) : s1.moveTurn.ctxAt d = if ((s.stationAt u.station).state = .present ∧
          s.tbc.site.silence ≤ min 255 ((s.stationAt u.station).failures + 1)) ∧ (s.stationAt u.station).ctx = some d then
          (s.ctxAt d).map suspendedContext else s.ctxAt d := (hctxAt d).trans (hctx d)
      refine ⟨s1.moveTurn, congrArg Host.Outcome.next ?_, honly.exchange.trans hidle,
        hgoes.congr fun m => (hsame m).trans (HasTurn.setExchange s .idle m), fun hl => ?_,
        fun hl => ?_, fun m hm => ?_, fun c => ?_, fun c x hl hc hx => ?_, ?_, ?_⟩
      · rw [← hs1]
        exact State.attemptFailed_failed (s := s.setExchange .idle) e hfailed
      · rw [hstation, hst, if_pos rfl, hmiss, if_pos (hlost.1 hl)]
      · rw [hstation, hst, if_pos rfl, hmiss, if_neg fun h => hl (hlost.2 h)]
      · rw [hstation, hst, if_neg hm]
      · rw [hctx']
        split
        · next h => exact .inr ⟨hcond.2 h.1, h.2⟩
        · exact .inl rfl
      · rw [hctx', if_pos ⟨hcond.1 hl, hc⟩, hx]
        rfl
      · rw [hcxp]
        exact hparting
      · refine OnlyIn.trans (t := s1) ?_ (honly.rest.mono (by decide))
        rw [← hs1]
        exact ((s.setExchange_onlyIn .idle).mono (by decide)).trans ((State.callFailed_onlyIn _ _ _).mono (by decide))
    · obtain ⟨hgoes, hidle, hst, honly⟩ := State.moveTurn_idle hu
      exact ⟨(s.setExchange .idle).moveTurn, by rw [State.windowFailed, hx, hu], hidle, hgoes, hst, honly⟩
  · have hnone (e : FrameError) : s.windowFailed e = s := by
      unfold State.windowFailed
      split
      · next h _ => exact absurd h (hno _ _).1
      · next h _ => exact absurd h (hno _ _).2
      · next h _ => exact absurd h (hno _ _).1
      · next h _ => exact absurd h (hno _ _).2
      · rfl
    exact ⟨congrArg Host.Outcome.next (hnone .timeout), congrArg Host.Outcome.next (hnone e)⟩

end Sys2Proof.Machine
end

section
/-! The scan (R54, R60, R141, R156, R162, R164, R165, R168): its start, its CALLs and FETCHes, and the turns that an ANSWER moves. -/

namespace Sys2Proof.Machine

/-! ## What a scan sends (R54, R60, R164, R165) -/

/-- The order of a CALL is the one that the tables of orders give (R54, R60). -/
theorem State.orderFor_callOrder (s : State) (n : Nat) : CallOrder s n (s.orderFor n) := by
  refine ⟨fun hk => ?_, fun hk => ⟨fun hfree => ?_, fun c x hc hx => ?_⟩⟩
  · rw [State.orderFor, hk]
  · unfold State.orderFor
    split
    · next h => exact absurd h hk
    · rw [hfree]
      rfl
  · rw [State.orderFor_bound hk hc hx, Context.callOrder]
    refine ⟨fun hrun => ?_, fun hrun => ?_⟩
    · split
      · next h => exact absurd h hrun
      · rfl
    · rw [hrun]
      refine ⟨fun p hp => ?_, fun p hp => ?_, fun p hp => ?_⟩
      · rw [hp]; rfl
      · rw [hp]; rfl
      · rcases hp with hp | hp <;> rw [hp] <;> rfl

theorem State.broadcasts_eq (s : State) (l : LineId) : s.broadcasts l = if (s.lineAt l).state = .active then
    (if s.ifu.stop = none then [] else [.frame l .allstop]) ++
      (if s.bmu.lastTime = some (s.wck.time, s.wck.clock) then [] else [.frame l (.time s.wck.time s.wck.clock)])
    else [] := by
  have hstop : (if s.ifu.stop.isSome = true then [Sent.frame l .allstop] else []) =
      if s.ifu.stop = none then [] else [Sent.frame l .allstop] := by cases s.ifu.stop <;> rfl
  have htime : (if s.timeDue = true then [Sent.frame l (.time s.wck.time s.wck.clock)] else []) =
      if s.bmu.lastTime = some (s.wck.time, s.wck.clock) then [] else [Sent.frame l (.time s.wck.time s.wck.clock)] := by
    rw [State.timeDue]
    by_cases h : s.bmu.lastTime = some (s.wck.time, s.wck.clock) <;> simp [h]
  rw [State.broadcasts, hstop, htime]

/-! ## The start of a scan (R164) -/

/-- A turn that begins a scan without figures judges nothing. -/
theorem State.turnFrom_quiet {s : State} (h : ∀ l, (s.lineAt l).tally = 0 ∧ (s.lineAt l).attempts = 0) (n : Nat) :
    (∀ l, (s.turnFrom n).lineAt l = s.lineAt l ∨ (s.turnFrom n).lineAt l = (s.lineAt l).completeScan) ∧
      OnlyIn [.bmu] s (s.turnFrom n) := by
  unfold State.turnFrom
  split
  · exact ⟨fun l => .inl (by cases l <;> rfl), fun b hb => by cases b <;> simp_all [Block.agrees]⟩
  · rw [State.endScan_quiet h]
    exact ⟨fun l => .inr (by cases l <;> rfl), fun b hb => by cases b <;> simp_all [Block.agrees, State.scanClosed]⟩

/-- The part as a scan begins, before its first turn (R164). -/
def State.scanOpened (s : State) : State :=
  { s.eachLine Line.beginScan with bmu := { (s.eachLine Line.beginScan).bmu with
      lastTime := s.lastTimeAfter, tx := s.broadcasts .a ++ s.broadcasts .b } }

theorem State.scanOpened_lineAt (s : State) (l : LineId) : s.scanOpened.lineAt l = (s.lineAt l).beginScan := by cases l <;> rfl

theorem State.scanOpened_onlyIn (s : State) : OnlyIn [.bmu] s s.scanOpened := fun b hb => by
  cases b <;> simp_all [Block.agrees, State.scanOpened]

/-! ## The line of a CALL (R156, R164, R165) -/

/-- The line that a turn tries first. -/
theorem State.pickLine_first {s : State} {u : Turn} {first l : LineId} (hturn : HasTurn s u.station)
    (hretry : ∀ m, u.lastLine = some m → first = otherLine m)
    (hfresh : u.lastLine = none → first = (s.stationAt u.station).preferred)
    (hl : s.usable u.station first = true ∧ l = first ∨
      s.usable u.station first = false ∧ s.usable u.station (otherLine first) = true ∧ l = otherLine first) :
    s.pickLine u = some l := by
  have hmay (m : LineId) : s.mayCall u.station m = s.usable u.station m := by
    simp [State.mayCall, hturn.2.1]
  have hpick : s.pickLine u = if s.usable u.station first = true then some first
      else if s.usable u.station (otherLine first) = true then some (otherLine first) else none := by
    unfold State.pickLine
    simp only [hmay]
    cases hlast : u.lastLine with
    | none => rw [hfresh hlast]
    | some m => rw [hretry m hlast]
  rw [hpick]
  rcases hl with ⟨h1, rfl⟩ | ⟨h1, h2, rfl⟩
  · rw [if_pos h1]
  · rw [h1, if_neg nofun, if_pos h2]

theorem State.pickLine_none {s : State} {u : Turn} (h : ¬ HasTurn s u.station) : s.pickLine u = none := by
  cases hp : s.pickLine u with
  | none => rfl
  | some l => exact absurd ((pickLine_isSome s u).1 (by rw [hp]; rfl)) h

section
variable {s : State} {u : Turn}

theorem execCall_out (h : s.busUp = false ∨ s.bmu.exchange ≠ .idle ∨ ∀ u, s.bmu.turn = some u → u.fetchLine ≠ none) :
    exec .call s = .next s := by
  show execCall s = _
  unfold execCall
  split
  · next u hu =>
    refine if_neg fun ⟨h1, h2, h3⟩ => ?_
    rcases h with h | h | h
    · rw [h1] at h; cases h
    · exact h h2
    · exact h u hu h3
  · rfl

theorem execFetch_out (h : s.busUp = false ∨ s.bmu.exchange ≠ .idle ∨ ∀ u, s.bmu.turn = some u → u.fetchLine = none) :
    exec .fetch s = .next s := by
  show execFetch s = _
  unfold execFetch
  split
  · next u hu =>
    split
    · next l hl =>
      refine if_neg fun ⟨h1, h2⟩ => ?_
      rcases h with h | h | h
      · rw [h1] at h; cases h
      · exact h h2
      · rw [h u hu] at hl; cases hl
    · rfl
  · rfl

variable (hup : s.busUp = true) (hu : s.bmu.turn = some u) (hidle : s.bmu.exchange = .idle)
include hup hu hidle

theorem execCall_due (hfetch : u.fetchLine = none) : exec .call s = .next
    (((s.pickLine u).map (s.sendCall u)).getD s.moveTurn) := by
  show execCall s = _
  simp only [execCall, hu, hup, hidle, hfetch, and_self, if_true]
  cases s.pickLine u <;> rfl

theorem execFetch_due {l : LineId} (hfetch : u.fetchLine = some l) : exec .fetch s = .next
    (if s.mayCall u.station l = true then s.sendFetch u l else s.moveTurn) := by
  show execFetch s = _
  simp only [execFetch, hu, hup, hidle, hfetch, and_self, if_true]
  split <;> rfl

omit hup in
/-- A turn that ends with no exchange in progress. -/
theorem State.moveTurn_free : TurnGoesTo s s.moveTurn (u.station + 1) ∧ s.moveTurn.bmu.exchange = .idle ∧
    s.moveTurn.bmu.stations = s.bmu.stations ∧ OnlyIn [.bmu, .atu] s s.moveTurn := by
  obtain ⟨hgoes, honly⟩ := State.moveTurn_goesTo hu
  exact ⟨hgoes, honly.exchange.trans hidle, honly.stations, honly.rest⟩

end

theorem State.sendCall_onlyIn (s : State) (u : Turn) (l : LineId) : OnlyIn [.bmu] s (s.sendCall u l) := fun b hb => by
  cases b <;> simp_all [Block.agrees, State.sendCall, State.setExchange, State.setTurn, State.transmit]

/-- The start of a scan (R164). -/
theorem State.beginScan_spec (s : State) : TurnGoesTo s s.beginScan 0 ∧ TurnOnly s.scanOpened s.beginScan ∧
    (∀ l, (s.beginScan.lineAt l).tally = 0 ∧ (s.beginScan.lineAt l).attempts = 0 ∧ (s.beginScan.lineAt l).successes = 0 ∧
      (s.beginScan.lineAt l).allstopDue = false ∧ (s.beginScan.lineAt l).state = (s.lineAt l).state ∧
      (s.beginScan.lineAt l).noiseMark = (s.lineAt l).noiseMark ∧ (s.beginScan.lineAt l).faultMark = (s.lineAt l).faultMark) ∧
    OnlyIn [.bmu] s s.beginScan := by
  have hbegin : s.beginScan = s.scanOpened.turnFrom 0 := rfl
  obtain ⟨hlines, honly⟩ := State.turnFrom_quiet (s := s.scanOpened) (fun l => by
    rw [State.scanOpened_lineAt]; exact ⟨rfl, rfl⟩) 0
  rw [hbegin]
  refine ⟨(s.scanOpened.turnFrom_goesTo 0).congr (HasTurn.congr (fun _ => ⟨Iff.rfl, rfl⟩) fun l => ?_),
    s.scanOpened.turnFrom_turnOnly 0, fun l => ?_, s.scanOpened_onlyIn.trans honly⟩
  · rw [State.scanOpened_lineAt]
    rfl
  · rcases hlines l with h | h <;> rw [h, State.scanOpened_lineAt] <;> exact ⟨rfl, rfl, rfl, rfl, rfl, rfl, rfl⟩

/-- The end of an ANSWER that leaves its turn alone, moves it, or lets it go on (R168). -/
theorem execAnswerEnd_turn {s : State} {h : Ask} {a : Answer} {after : AfterAnswer} (hx : s.bmu.exchange = .answer h a after)
    (hafter : after = .nothing ∨ after = .allstop) : exec .answerEnd s = .next ((s.setExchange .idle).turnAfterAnswer h) := by
  show execAnswerEnd s = _
  rw [execAnswerEnd, hx]
  rcases hafter with rfl | rfl <;> rfl

/-- Settles O41: each event of the scan in its place, and out of it. -/
theorem scanGivesEachStationItsTurn : Obligations.ScanGivesEachStationItsTurn := by
  intro s
  refine ⟨fun hup hnone hidle => ?_, fun hno => ?_, fun u hup hu hidle hfetch => ⟨fun first l hturn hfirst hl => ?_, fun hno => ?_⟩,
    fun u l hup hu hidle hfetch may hmay => ?_, ⟨fun hno => ⟨?_, ?_⟩, fun hno => ⟨?_, ?_⟩, fun u hu => ⟨fun hf => ?_, fun hf => ?_⟩⟩,
    fun hno => ?_, fun u h a after hx hafter hu hstation hdue hline more hmore => ?_, fun h a after hx hafter hno => ?_⟩
  · obtain ⟨hgoes, hturn, hlines, honly⟩ := s.beginScan_spec
    refine ⟨s.beginScan, if_pos ⟨hup, hnone, hidle⟩, hturn.exchange.trans hidle, hgoes, hturn.stations, hlines, ?_, ?_, honly⟩
    · have := congrArg Bmu.lastTime hturn.bmu
      exact this
    · have htx := congrArg Bmu.tx hturn.bmu
      refine htx.trans ?_
      rw [List.flatMap_cons, List.flatMap_cons, List.flatMap_nil, List.append_nil, ← State.broadcasts_eq, ← State.broadcasts_eq]
      rfl
  · refine if_neg fun ⟨h1, h2, h3⟩ => ?_
    rcases hno with h | h | h
    · rw [h1] at h; cases h
    · exact h h2
    · exact h h3
  · have hretry (m : LineId) (hm : u.lastLine = some m) : first = otherLine m := by rw [hfirst, hm]
    have hfresh (hm : u.lastLine = none) : first = (s.stationAt u.station).preferred := by rw [hfirst, hm]
    rw [execCall_due hup hu hidle hfetch, State.pickLine_first hturn hretry hfresh hl]
    refine ⟨s.sendCall u l, s.callBody u.station, rfl, rfl, fun hzero => ?_, fun hrig => ?_, by cases l <;> rfl, by cases l <;> rfl,
      by cases l <;> rfl, s.sendCall_onlyIn u l⟩
    · exact ⟨highestLevel s.atu.entries, if_pos hzero, highestLevel_spec _⟩
    · exact ⟨s.orderFor u.station, if_neg hrig, s.orderFor_callOrder _⟩
  · rw [execCall_due hup hu hidle hfetch, State.pickLine_none hno]
    exact ⟨s.moveTurn, rfl, State.moveTurn_free hu hidle⟩
  · rw [execFetch_due hup hu hidle hfetch]
    rw [← mayCall_iff] at hmay
    refine ⟨fun h => by rw [if_pos (hmay.1 h)]; rfl, fun h => ?_⟩
    rw [if_neg (hmay.not.1 h)]
    exact ⟨s.moveTurn, rfl, State.moveTurn_free hu hidle⟩
  · exact execCall_out (hno.imp id .inl)
  · exact execFetch_out (hno.imp id .inl)
  · exact execCall_out (.inr (.inr fun u hu => by rw [hno] at hu; cases hu))
  · exact execFetch_out (.inr (.inr fun u hu => by rw [hno] at hu; cases hu))
  · exact execCall_out (.inr (.inr fun v hv => by rw [hu] at hv; cases hv; exact hf))
  · exact execFetch_out (.inr (.inr fun v hv => by rw [hu] at hv; cases hv; exact hf))
  · show execAnswerEnd s = _
    unfold execAnswerEnd
    split
    · next h => exact absurd h (hno _ _ _)
    · rfl
  · have hgoesOn : (goesOn u h = true ∧ (s.setExchange .idle).mayCall h.station h.line = true) ↔ more := by
      rw [hmore, mayCall_iff, goesOn, decide_eq_true_eq]
      have husable : (s.setExchange .idle).usable h.station h.line = s.usable h.station h.line := by
        unfold State.usable
        cases h.line <;> rfl
      rw [husable]
      exact ⟨fun ⟨⟨h1, h2, h3⟩, h4⟩ => ⟨h1, h2, h3, h4⟩, fun ⟨h1, h2, h3, h4⟩ => ⟨⟨h1, h2, h3⟩, h4⟩⟩
    have hmove : (s.setExchange .idle).turnAfterAnswer h =
        if goesOn u h = true ∧ (s.setExchange .idle).mayCall h.station h.line = true then
          (s.setExchange .idle).setTurn { u with fetchLine := some h.line }
        else (s.setExchange .idle).moveTurn := by
      have hturn : (s.setExchange .idle).bmu.turn = some u := hu
      simp only [State.turnAfterAnswer, hturn, hstation, hdue, hline, and_self, if_true]
    rw [execAnswerEnd_turn hx hafter, hmove]
    refine ⟨fun hm => by rw [if_pos (hgoesOn.2 hm)]; rfl, fun hm => ?_⟩
    rw [if_neg (hgoesOn.not.2 hm)]
    obtain ⟨hgoes, hidle, hst, honly⟩ := State.moveTurn_idle hu
    exact ⟨_, rfl, hidle, hgoes, hst, honly⟩
  · rw [execAnswerEnd_turn hx hafter]
    unfold State.turnAfterAnswer
    split
    · next u hu => rw [if_neg (hno u hu)]; rfl
    · rfl

end Sys2Proof.Machine
end

section
/-! Used replies of winches and pumps (R57, R60, R71 to R74, R78 to R82, R166): the record's updates in a row, what the conditions of
one reply tell, and the two units. -/

namespace Sys2Proof.Machine

/-! ## Record updates in a row (R5, R6) -/

/-- A slot as it stood, or at most `k` record updates on. -/
def StepsOn (k : Nat) (z0 z : Slot) : Prop := z = z0 ∨ ∃ j, 1 ≤ j ∧ j ≤ k ∧ z.rev = (z0.rev + j) % 65536

theorem StepsOn.mono {k k' : Nat} {z0 z : Slot} (h : StepsOn k z0 z) (hk : k ≤ k') : StepsOn k' z0 z :=
  h.imp id fun ⟨j, h1, h2, h3⟩ => ⟨j, h1, h2.trans hk, h3⟩

theorem updatedSlot_cases (s : State) (st : Nat) (f : Record → Record) (z : Slot) : updatedSlot s st f z = z ∨
    (updatedSlot s st f z).rev = (z.rev + 1) % 65536 := updatedSlot_oneStep s st f z

theorem StepsOn.updated {k : Nat} {z0 z : Slot} (h : StepsOn k z0 z) (s : State) (st : Nat) (f : Record → Record) :
    StepsOn (k + 1) z0 (updatedSlot s st f z) := by
  rcases updatedSlot_cases s st f z with hsame | hrev
  · rw [hsame]
    exact h.mono (Nat.le_succ k)
  · right
    rcases h with rfl | ⟨j, h1, h2, h3⟩
    · exact ⟨1, Nat.le_refl 1, Nat.le_add_left 1 k, hrev⟩
    · exact ⟨j + 1, by omega, by omega, by omega⟩

/-- Fewer updates than there are revisions do not lead back. -/
theorem StepsOn.back {k : Nat} {z0 z : Slot} (h : StepsOn k z0 z) (hk : k < 65535) {s : State} {st : Nat}
    {f : Record → Record} (heq : updatedSlot s st f z = z0) : z = z0 := by
  rcases updatedSlot_cases s st f z with hsame | hrev
  · exact hsame.symm.trans heq
  · rcases h with h | ⟨j, h1, h2, h3⟩
    · exact h
    · have : z0.rev = (z.rev + 1) % 65536 := heq ▸ hrev
      omega

/-- One update after others of the same slot. -/
theorem SlotBecomes.trans {s t u : State} {n : Nat} {z z' : Slot} (h : SlotBecomes s t n z) (h' : SlotBecomes t u n z')
    (hback : z' = s.slotAt n → z = s.slotAt n) : SlotBecomes s u n z' := by
  obtain ⟨⟨hown, hother, htbc⟩, hisi⟩ := h
  obtain ⟨⟨hown', hother', htbc'⟩, hisi'⟩ := h'
  refine ⟨⟨hown', fun m hm => (hother' m hm).trans (hother m hm), by rw [htbc', htbc]⟩, ?_⟩
  rw [hisi', hisi, hown]
  by_cases hz : z = s.slotAt n
  · by_cases hz' : z' = z
    · rw [if_pos hz', if_pos hz, if_pos (hz'.trans hz)]
    · rw [if_neg hz', if_pos hz, if_neg fun e => hz' (e.trans hz.symm)]
  · rw [if_neg hz, if_neg fun e => hz (hback e)]
    split
    · rfl
    · exact Isi.handed_same _ _

/-- What a reply has done to the record `r` of slot `m` so far: at most `k` updates to `z`, which raised `cs`. -/
structure RecordWork (s w : State) (m : Nat) (r : Record) (k : Nat) (z : Slot) (cs : List Cond) : Prop where
  slot : SlotBecomes s w m z
  steps : StepsOn k (s.slotAt m) z
  wck : w.wck = s.wck
  atu : w.atu = toldNew s (.record m) r.conds cs
  conds : ∃ q, w.recAt m = some q ∧ ∀ d, d ∈ q.conds ↔ d ∈ r.conds ∨ d ∈ cs

section
variable {s w : State} {m : Nat} {r : Record} {k : Nat} {z : Slot} {cs : List Cond}

/-- A change of the contexts or of the works bus is none of the record. -/
theorem RecordWork.congr (h : RecordWork s w m r k z cs) {u : State} (htbc : u.tbc = w.tbc) (hisi : u.isi = w.isi)
    (hwck : u.wck = w.wck) (hatu : u.atu = w.atu) : RecordWork s u m r k z cs := by
  obtain ⟨⟨⟨hown, hother, hrest⟩, hq⟩, hsteps, hw, ha, hc⟩ := h
  have hslot (j : Nat) : u.slotAt j = w.slotAt j := State.slotAt_congr (congrArg Tbc.slots htbc) j
  refine ⟨⟨⟨(hslot m).trans hown, fun j hj => (hslot j).trans (hother j hj), ?_⟩, hisi.trans hq⟩, hsteps, hwck.trans hw,
    hatu.trans ha, ?_⟩
  · rw [htbc]; exact hrest
  · obtain ⟨q, hq, hmem⟩ := hc
    exact ⟨q, (congrArg Slot.rec? (hslot m)).trans hq, hmem⟩

/-- One more update, which raises conditions that the reply has not raised yet. -/
theorem RecordWork.raising (h : RecordWork s w m r k z cs) (hk : k < 65535) (st : Nat) {ds : List Cond}
    (hds : ∀ d ∈ ds, d ∉ cs) {f : Record → Record} (hf : ∀ v, (f v).conds = v.conds) :
    RecordWork s (w.updateRaising m st ds f) m r (k + 1)
      (updatedSlot s st (fun v => { f v with conds := addConds ds (f v).conds }) z) (cs ++ ds) := by
  obtain ⟨q, hq, hmem⟩ := h.conds
  have hsite : w.tbc.site = s.tbc.site := by
    obtain ⟨⟨-, -, htbc⟩, -⟩ := h.slot
    rw [htbc]
  have hown : w.slotAt m = z := h.slot.1.1
  have hone := (SlotBecomes.refl w m).updateRaising (.inl rfl) rfl st ds f
  have hsame : updatedSlot w st (fun v => { f v with conds := addConds ds (f v).conds }) z =
      updatedSlot s st (fun v => { f v with conds := addConds ds (f v).conds }) z := by
    rw [updatedSlot, updatedSlot, h.wck]
  rw [hown, hsame] at hone
  refine ⟨h.slot.trans hone (h.steps.back hk), h.steps.updated s st _, ?_, ?_, ?_⟩
  · rw [State.updateRaising_wck, h.wck]
  · have htell : tellAtu w (.record m) = tellAtu s (.record m) := by
      funext a d
      rw [tellAtu, tellAtu, hsite, h.wck]
    have hfilter : ds.filter (fun d => d ∉ q.conds) = ds.filter (fun d => d ∉ r.conds) :=
      List.filter_congr fun d hd => decide_eq_decide.2 (by rw [hmem, or_iff_left (hds d hd)])
    rw [State.updateRaising_atu hq rfl rfl rfl, toldNew, toldNew, htell, h.atu, toldNew, hfilter, List.filter_append,
      List.foldl_append]
  · obtain ⟨stamp, hnew⟩ := State.recAt_update hq st (fun v => { f v with conds := addConds ds (f v).conds })
    refine ⟨_, (State.recAt_congr (congrArg Tbc.slots (State.updateRaising_tbc w m st ds f)) m).trans hnew, fun d => ?_⟩
    dsimp only
    rw [hf, mem_addConds, hmem, List.mem_append]
    tauto

end


/-- A condition raised on a record where `on` says that it is (R6). -/
def State.raiseWhen (s : State) (m st : Nat) (d : Cond) (on : Bool) : State := if on = true then s.raise m st d else s

theorem State.raiseWhen_kept (s : State) (m st : Nat) (d : Cond) (on : Bool) : (s.raiseWhen m st d on).cxp = s.cxp ∧
    (s.raiseWhen m st d on).bmu = s.bmu ∧ OnlyIn [.tbc, .isi, .atu] s (s.raiseWhen m st d on) := by
  unfold State.raiseWhen
  split
  · exact ⟨State.raise_cxp _ _ _ _, State.raise_bmu _ _ _ _, fun b hb => by cases b <;> simp_all [Block.agrees]⟩
  · exact ⟨rfl, rfl, OnlyIn.refl _ s⟩

section
variable {s w : State} {m : Nat} {r : Record} {k : Nat} {z : Slot} {cs : List Cond}

theorem RecordWork.raiseWhen (h : RecordWork s w m r k z cs) (hk : k < 65535) (st : Nat) {d : Cond} (hd : d ∉ cs) (on : Bool) :
    RecordWork s (w.raiseWhen m st d on) m r (k + 1) (raisedSlot s st d on z)
      (cs ++ if on = true then [d] else []) := by
  cases on with
  | true => exact h.raising hk st (fun e he => List.mem_singleton.1 he ▸ hd) (f := id) fun _ => rfl
  | false =>
    obtain ⟨hslot, hsteps, hwck, hatu, hconds⟩ := h
    have hnil : cs ++ (if false = true then [d] else []) = cs := List.append_nil cs
    rw [hnil]
    exact ⟨hslot, hsteps.mono (Nat.le_succ k), hwck, hatu, hconds⟩

theorem State.afterReply_onlyIn (s : State) (l : LineId) (srq : Bool) : OnlyIn [.bmu, .atu] s (s.afterReply l srq) := by
  unfold State.afterReply
  split
  · next u hu =>
    split
    · exact fun b hb => by cases b <;> simp_all [Block.agrees, State.setTurn]
    · exact (State.moveTurn_goesTo hu).2.rest
  · exact OnlyIn.refl _ s

/-- The end of a used reply: STATION_FAULT where it carries FAULT, and the turn (R166). -/
theorem RecordWork.finish (h : RecordWork s w m r k z cs) (hk : k < 65535) (hcs : .stationFault ∉ cs) (n : Nat) (l : LineId)
    (y : Reply) {t : State} (ht : t = (w.raiseFaultOf y m n).afterReply l y.srq) :
    SlotBecomes s t m (raisedSlot s n .stationFault y.fault z) ∧ Told s t y m r cs ∧ t.cxp = w.cxp ∧
      (∀ j, (t.stationAt j).ctx = (w.stationAt j).ctx) ∧ OnlyIn [.tbc, .isi, .atu, .bmu] w t := by
  have hfault : RecordWork s (w.raiseFaultOf y m n) m r (k + 1) _ _ := h.raiseWhen hk n hcs y.fault
  obtain ⟨hcxp, hbmu, honly⟩ := w.raiseWhen_kept m n .stationFault y.fault
  have hafter := SameWork.afterReply (w.raiseFaultOf y m n) l y.srq
  have hrest := (w.raiseFaultOf y m n).afterReply_onlyIn l y.srq
  rw [← ht] at hafter hrest
  refine ⟨hfault.slot.congr (SameWork.refl s) hafter, fun hsrq => ?_, hafter.cxp.trans hcxp, fun j => ?_,
    (honly.mono (by decide)).trans (hrest.mono (by decide))⟩
  · rw [ht, hsrq, State.afterReply_atu]
    exact hfault.atu
  · rw [hafter.ctx]
    exact congrArg Station.ctx (State.stationAt_congr hbmu j)

end

/-! ## The context of a used reply (R53, R57, R60) -/

section
variable {s : State} {n : Nat} {l : LineId} {y : Reply} {c : Nat} {x : Context} {r : Record} {cls : ClassEntry}

/-- The part as the unit of the context takes a used reply. -/
def State.unitTakes (s : State) (n : Nat) (l : LineId) (y : Reply) (c : Nat) (x : Context) : State :=
  (s.heardFrom n l y).putCtx c (heardContext s x)

theorem State.unitTakes_record (hr : s.recAt x.slot = some r) :
    RecordWork s (s.unitTakes n l y c x) x.slot r 0 (s.slotAt x.slot) [] ∧
      (s.unitTakes n l y c x).recAt x.slot = some r := by
  have h := beforeLogic_heard (n := n) (l := l) (y := y) (c := c) hr
  have hrec : (s.unitTakes n l y c x).recAt x.slot = some r := (congrArg Slot.rec? h.slot.1.1).trans hr
  exact ⟨⟨h.slot, .inl rfl, h.wck, h.atu, r, hrec, fun d => by simp⟩, hrec⟩

theorem State.unitTakes_onlyIn (s : State) (n : Nat) (l : LineId) (y : Reply) (c : Nat) (x : Context) :
    OnlyIn [.bmu, .cxp] s (s.unitTakes n l y c x) := fun b hb => by
  cases b <;> simp_all [Block.agrees, State.unitTakes, State.heardFrom]

theorem State.unitTakes_classOf (s : State) (n : Nat) (l : LineId) (y : Reply) (c : Nat) (x : Context) (r : Record) :
    (s.unitTakes n l y c x).classOf r = s.classOf r := by
  have htbc : (s.unitTakes n l y c x).tbc = s.tbc := s.unitTakes_onlyIn n l y c x .tbc (by decide)
  exact congrArg (fun b : Tbc => b.classes.get? r.cls) htbc

/-- The part as the unit has written the progress. -/
def State.unitWrites (s : State) (n : Nat) (l : LineId) (y : Reply) (c : Nat) (x : Context) (prog : Progress) : State :=
  (s.unitTakes n l y c x).putCtx c { heardContext s x with prog := prog }

theorem State.unitWrites_record (hr : s.recAt x.slot = some r) (prog : Progress) :
    RecordWork s (s.unitWrites n l y c x prog) x.slot r 0 (s.slotAt x.slot) [] :=
  (State.unitTakes_record (n := n) (l := l) (y := y) (c := c) hr).1.congr rfl rfl rfl rfl

theorem State.unitWrites_onlyIn (s : State) (n : Nat) (l : LineId) (y : Reply) (c : Nat) (x : Context) (prog : Progress) :
    OnlyIn [.bmu, .cxp] s (s.unitWrites n l y c x prog) :=
  (s.unitTakes_onlyIn n l y c x).trans fun b hb => by cases b <;> simp_all [Block.agrees, State.unitWrites]

/-- The context goes on where a reply has left the contexts as the unit wrote them. -/
theorem goesOn_of_cxp (hr : s.recAt x.slot = some r) {prog : Progress} {t : State}
    (hcxp : t.cxp = (s.unitWrites n l y c x prog).cxp) : GoesOn s t c x prog := by
  have h := beforeLogic_heard (n := n) (l := l) (y := y) (c := c) hr
  have hctx (d : Nat) : t.ctxAt d = (s.unitWrites n l y c x prog).ctxAt d := by
    rw [State.ctxAt, hcxp]; rfl
  refine ⟨(hctx c).trans (State.ctxAt_putCtx_same _ _ _), fun d hd => ?_, ?_⟩
  · exact (hctx d).trans ((State.ctxAt_putCtx_ne _ _ _ _ hd).trans (h.others d hd))
  · rw [hcxp, State.unitWrites, State.putCtx_parting]
    exact h.parting

/-- The context is released where a reply has freed it. -/
theorem freed_of_cxp (hr : s.recAt x.slot = some r) (hlt : x.station < 16) {x' : Context} (hst : x'.station = x.station)
    {prog : Progress} {p : Parting} {v t : State}
    (hv : v.cxp = (s.unitWrites n l y c x prog).cxp)
    (hbmu : v.bmu = (s.unitWrites n l y c x prog).bmu) (hcxp : t.cxp = (v.freeCtx c x' p).cxp)
    (hctx : ∀ j, (t.stationAt j).ctx = ((v.freeCtx c x' p).stationAt j).ctx) : Freed s t c x p := by
  have h := beforeLogic_heard (n := n) (l := l) (y := y) (c := c) hr
  have hctxAt (d : Nat) : t.ctxAt d = (v.freeCtx c x' p).ctxAt d := by rw [State.ctxAt, hcxp]; rfl
  have hpart : t.cxp.parting = s.cxp.parting.put x.station p := by
    have hvp : v.cxp.parting = s.cxp.parting := by
      rw [hv, State.unitWrites, State.putCtx_parting]
      exact h.parting
    rw [hcxp, ← hvp, ← hst]
    rfl
  have hstation (j : Nat) : (t.stationAt j).ctx = if j = x.station then none else (s.stationAt j).ctx := by
    rw [hctx, State.freeCtx_stationAt, hst]
    by_cases hj : j = x.station
    · rw [if_pos ⟨hj, hlt⟩, if_pos hj]
    · rw [if_neg fun e => hj e.1, if_neg hj, State.stationAt_congr hbmu]
      exact h.ctx j
  refine ⟨(hctxAt c).trans (State.ctxAt_freeCtx_same ..), fun d hd => ?_, ?_, fun j hj => ?_, ?_, fun j hj => ?_⟩
  · rw [hctxAt, State.ctxAt_freeCtx_ne _ _ _ _ _ hd, State.ctxAt, hv]
    exact (State.ctxAt_putCtx_ne _ _ _ _ hd).trans (h.others d hd)
  · rw [hpart, Table.get?_put_same]
  · rw [hpart, Table.get?_put_ne _ _ _ _ hj]
  · rw [hstation, if_pos rfl]
  · rw [hstation, if_neg hj]

end

/-! ## The winch (R71, R74) -/

theorem replyError_winch {u : Station} {count tension : Nat} (h : u.kind = declaredKind (.winch count tension)) :
    replyError u (.winch count tension) = none := by
  simp [replyError, h, lengthFits]

/-- The progress of an INSERT context after a used reply. -/
theorem winchRead_eq (p : InsertProg) (cls : ClassEntry) {count delta : Nat} (tension : Nat) (hb : p.baseline < 65536)
    (hd : delta < 65536) (h : (p.baseline + delta) % 65536 = count) : p.read cls count tension = { p with
      baseline := count
      total := if 32768 ≤ delta then p.total else min 4294967295 (p.total + delta)
      order := if cls.maxPull < min tension 30000 then .hold else if min tension 30000 ≤ cls.maxPull * 9 / 10 then .run
        else p.order } := by
  unfold InsertProg.read totalAfter isSetback grow
  rw [counterDelta_of p.baseline delta count hb hd h]
  by_cases g : 32768 ≤ delta <;> simp [g, winchOrder, takeLoad, releaseLevel, Config.max32]

/-- The part after the counts and the conditions of a winch's reply, those raised in updates of their own. -/
theorem State.winchReply_eq {w : State} {c : Nat} {x : Context} {p : InsertProg} {r : Record} {cls : ClassEntry}
    {count tension m st : Nat} (hr : w.recAt x.slot = some r) (hcls : w.classOf r = some cls) (hm : x.slot = m)
    (hst : x.station = st) : w.winchReply c x p count tension =
      ((w.putCtx c { x with prog := .insert (p.read cls count tension) }).raiseWhen m st .countSetback
        (isSetback (counterDelta count p.baseline))).raiseWhen m st .overpull (decide (cls.maxPull < min tension 30000)) := by
  subst hm hst
  simp only [State.winchReply, hr, Option.bind_some, hcls, State.raiseWhen, decide_eq_true_eq]
  rfl

/-- Settles O43: the counts, then each condition in an update of its own, then the FAULT. -/
theorem winchReplyCountsThePulses : Obligations.WinchReplyCountsThePulses := by
  intro n l y s c x r cls p count tension delta pull h hp hdata hb hdelta hcount hpull
  obtain ⟨-, hn, -, -, -, hkind, -, -, -, hxn, hr, hcls⟩ := id h
  obtain ⟨hslot, hst, hprog⟩ := heardContext_bond s x
  have hrec := (State.unitTakes_record (n := n) (l := l) (y := y) (c := c) hr).2
  have hfit : replyError (s.stationAt n) y.data = none := by
    rw [hdata]
    exact replyError_winch (hkind.trans (congrArg declaredKind hdata))
  have huse : (s.unitTakes n l y c x).useReply c (heardContext s x) y =
      (s.unitTakes n l y c x).winchReply c (heardContext s x) p count tension := by
    simp only [State.useReply, hprog, hp, hdata]
  rw [State.winchReply_eq (by rw [hslot]; exact hrec) ((s.unitTakes_classOf n l y c x r).trans hcls) hslot (hst.trans hxn), isSetback,
    counterDelta_of p.baseline delta count hb hdelta hcount, winchRead_eq p cls tension hb hdelta hcount, ← hpull] at huse
  generalize hprog' : Progress.insert _ = prog at huse ⊢
  change _ = ((s.unitWrites n l y c x prog).raiseWhen x.slot n .countSetback _).raiseWhen x.slot n .overpull _ at huse
  have hback := (State.unitWrites_record (n := n) (l := l) (y := y) (c := c) hr prog).raiseWhen (by decide) n
    (d := .countSetback) (by decide) (decide (32768 ≤ delta))
  obtain ⟨hcxp1, -, honly1⟩ := (s.unitWrites n l y c x prog).raiseWhen_kept x.slot n .countSetback (decide (32768 ≤ delta))
  generalize (s.unitWrites n l y c x prog).raiseWhen x.slot n .countSetback (decide (32768 ≤ delta)) = u at huse hback hcxp1 honly1
  have hpulled := hback.raiseWhen (by decide) n (d := .overpull) (by split <;> decide) (decide (cls.maxPull < pull))
  obtain ⟨hcxp2, -, honly2⟩ := u.raiseWhen_kept x.slot n .overpull (decide (cls.maxPull < pull))
  obtain ⟨hbecomes, htold, hcxp, -, honly⟩ := hpulled.finish (by decide) (by split <;> split <;> decide) n l y
    (t := s.afterUsed n l y c x) (by rw [← huse]; rfl)
  refine ⟨s.afterUsed n l y c x, h.exec_eq hfit, goesOn_of_cxp hr (hcxp.trans (hcxp2.trans hcxp1)), hbecomes, ?_, ?_⟩
  · simpa only [List.nil_append, decide_eq_true_eq] using htold
  · exact ((s.unitWrites_onlyIn n l y c x prog).mono (by decide)).trans ((honly1.mono (by decide)).trans
      ((honly2.mono (by decide)).trans (honly.mono (by decide))))


/-! ## The pump (R62, R78 to R82) -/

section
variable {s u : State} {n : Nat} {l : LineId} {y : Reply} {c : Nat} {x x' : Context} {r : Record} {prog : Progress}
  {k : Nat} {z : Slot} {cs : List Cond}

/-- A used reply that ends its work: the context is freed, and the record updated once more (R53, R81, R82). -/
theorem RecordWork.releases (h : RecordWork s u x.slot r k z cs) (hk : k < 65534) (hr : s.recAt x.slot = some r)
    (hlt : x.station < 16) (hcxp : u.cxp = (s.unitWrites n l y c x prog).cxp) (hbmu : u.bmu = (s.unitWrites n l y c x prog).bmu)
    (hst : x'.station = x.station) (p : Parting) {ds : List Cond} (hds : ∀ d ∈ ds, d ∉ cs) {f : Record → Record}
    (hf : ∀ v, (f v).conds = v.conds) (hno : .stationFault ∉ cs ++ ds) {t : State}
    (ht : t = (((u.freeCtx c x' p).updateRaising x.slot n ds f).raiseFaultOf y x.slot n).afterReply l y.srq) :
    Freed s t c x p ∧ SlotBecomes s t x.slot (raisedSlot s n .stationFault y.fault
      (updatedSlot s n (fun v => { f v with conds := addConds ds (f v).conds }) z)) ∧ Told s t y x.slot r (cs ++ ds) := by
  have hfree : RecordWork s (u.freeCtx c x' p) x.slot r k z cs := h.congr rfl rfl rfl rfl
  obtain ⟨hbecomes, htold, htcxp, htctx, -⟩ := (hfree.raising (by omega) n hds hf).finish (by omega) hno n l y ht
  refine ⟨freed_of_cxp hr hlt hst hcxp hbmu (htcxp.trans (State.updateRaising_cxp _ _ _ _ _)) fun j => (htctx j).trans ?_,
    hbecomes, htold⟩
  exact congrArg Station.ctx (State.stationAt_congr (State.updateRaising_bmu _ _ _ _ _) j)

end

theorem replyError_grout {u : Station} {count pressure : Nat} (h : u.kind = declaredKind (.grout count pressure)) :
    replyError u (.grout count pressure) = none := by
  simp [replyError, h, lengthFits]

/-- The steps of a pump's reply in their order: the counts, the burst, the cap, the refusal (R79). -/
theorem State.pumpReply_eq {w u : State} {c : Nat} {x x1 : Context} {p q : GroutProg} {r : Record} {cls : ClassEntry}
    {count reported m st : Nat} (hr : w.recAt x.slot = some r) (hcls : w.classOf r = some cls) (hm : x.slot = m)
    (hst : x.station = st) (hq : p.read cls count (min reported 100000) = q) (hx1 : x1 = { x with prog := .grout q })
    (hu : u = (w.putCtx c x1).raiseWhen m st .countSetback (isSetback (counterDelta count p.baseline))) :
    w.pumpReply c x p count reported =
      if cls.burst ≤ min reported 100000 then u.releaseHeld c x1 .burst st [.burst] none
      else if cls.theoVol * cls.volCap / 100 ≤ volume q then
        u.releaseHeld c x1 .groutLoss st [.groutLoss] (some (.volumeCap, w.wck.time))
      else if x.run = .running ∧ q.counting = true ∧ cls.refTime ≤ q.refTimer then u.toCuring c x1 q cls .refusal
      else u := by
  subst hm hst hx1 hu hq
  simp only [State.pumpReply, hr, Option.bind_some, hcls]
  rfl

theorem State.pumpReply_onlyIn (s : State) (c : Nat) (x : Context) (p : GroutProg) (count pressure : Nat) :
    OnlyIn [.tbc, .cxp, .isi, .atu, .bmu] s (s.pumpReply c x p count pressure) := fun b hb => by
  cases b <;> simp_all [Block.agrees]

/-- The record that a held grouting leaves, as the release writes it. -/
theorem heldFields_raising (prog : Progress) (reason : HeldReason) (ending : Option (EndReason × Nat)) (cs : List Cond) :
    (fun v => { heldFields prog reason ending v with conds := addConds cs (heldFields prog reason ending v).conds }) =
      fun v : Record => { heldRecord prog reason ending v with conds := addConds cs v.conds } := by
  funext v
  rw [heldFields_eq]
  cases prog <;> rfl

theorem heldFields_conds (prog : Progress) (reason : HeldReason) (ending : Option (EndReason × Nat)) (v : Record) :
    (heldFields prog reason ending v).conds = v.conds := by cases prog <;> rfl

/-- The fields of a record whose grouting a refusal completes (R82, R85). -/
def refusedFields (time : Nat) (q : GroutProg) (cls : ClassEntry) (v : Record) : Record :=
  { v with
    state := .curing, context := none
    grout := some (GroutResult.mk (volume q) q.peak (some .refusal) (some time))
    cureEnd := some (min 4294967295 (time + cls.cure)) }

section
variable {s : State} {n : Nat} {l : LineId} {y : Reply} {c : Nat} {x : Context} {r : Record} {cls : ClassEntry}
  {p q : GroutProg} {count reported delta pressure cap : Nat}

/-- A pump's reply after its counts: the part `u` in which it meets the burst, the cap and the refusal (R79). -/
theorem UsedReply.pump_counts (h : UsedReply s n l y c x r cls) (hp : x.prog = .grout p) (hdata : y.data = .grout count reported)
    (hb : p.baseline < 65536) (hdelta : delta < 65536) (hcount : (p.baseline + delta) % 65536 = count)
    (hpressure : pressure = min reported 100000) (hread : p.read cls count pressure = q)
    (hcap : cap = cls.theoVol * cls.volCap / 100) :
    ∃ u, RecordWork s u x.slot r 1 (raisedSlot s n .countSetback (decide (32768 ≤ delta)) (s.slotAt x.slot))
        (if 32768 ≤ delta then [.countSetback] else []) ∧
      u.cxp = (s.unitWrites n l y c x (.grout q)).cxp ∧ u.bmu = (s.unitWrites n l y c x (.grout q)).bmu ∧
      s.afterUsed n l y c x = ((if cls.burst ≤ pressure then
          u.releaseHeld c { heardContext s x with prog := .grout q } .burst n [.burst] none
        else if cap ≤ volume q then u.releaseHeld c { heardContext s x with prog := .grout q } .groutLoss n [.groutLoss]
          (some (.volumeCap, s.wck.time))
        else if (heardContext s x).run = .running ∧ q.counting = true ∧ cls.refTime ≤ q.refTimer then
          u.toCuring c { heardContext s x with prog := .grout q } q cls .refusal
        else u).raiseFaultOf y x.slot n).afterReply l y.srq := by
  obtain ⟨-, -, -, -, -, -, -, -, -, hxn, hr, hcls⟩ := id h
  obtain ⟨hslot, hst, hprog⟩ := heardContext_bond s x
  have hrec := (State.unitTakes_record (n := n) (l := l) (y := y) (c := c) hr).2
  subst hpressure hcap
  have huse : (s.unitTakes n l y c x).useReply c (heardContext s x) y =
      (s.unitTakes n l y c x).pumpReply c (heardContext s x) p count reported := by
    simp only [State.useReply, hprog, hp, hdata]
  rw [State.pumpReply_eq (by rw [hslot]; exact hrec) ((s.unitTakes_classOf n l y c x r).trans hcls) hslot (hst.trans hxn) hread rfl
    (u := (s.unitWrites n l y c x (.grout q)).raiseWhen x.slot n .countSetback (decide (32768 ≤ delta)))
    (by rw [isSetback, counterDelta_of p.baseline delta count hb hdelta hcount]; rfl),
    show (s.unitTakes n l y c x).wck = s.wck from s.unitTakes_onlyIn n l y c x .wck (by decide)] at huse
  have hwork := (State.unitWrites_record (n := n) (l := l) (y := y) (c := c) hr (.grout q)).raiseWhen (by decide) n
    (d := .countSetback) (by decide) (decide (32768 ≤ delta))
  obtain ⟨hcxp, hbmu, -⟩ := (s.unitWrites n l y c x (.grout q)).raiseWhen_kept x.slot n .countSetback (decide (32768 ≤ delta))
  refine ⟨_, ?_, hcxp, hbmu, by rw [← huse]; rfl⟩
  simpa only [List.nil_append, decide_eq_true_eq, Nat.zero_add] using hwork

theorem State.afterUsed_pump_onlyIn (hp : x.prog = .grout p) (hdata : y.data = .grout count reported) :
    OnlyIn [.tbc, .cxp, .isi, .atu, .bmu] s (s.afterUsed n l y c x) := by
  have huse : (s.unitTakes n l y c x).useReply c (heardContext s x) y =
      (s.unitTakes n l y c x).pumpReply c (heardContext s x) p count reported := by
    simp only [State.useReply, (heardContext_bond s x).2.2, hp, hdata]
  have honly := State.pumpReply_onlyIn (s.unitTakes n l y c x) c (heardContext s x) p count reported
  rw [← huse] at honly
  exact ((s.unitTakes_onlyIn n l y c x).mono (by decide)).trans (honly.trans
    (((State.raiseWhen_kept _ x.slot n .stationFault y.fault).2.2.mono (by decide)).trans
      ((State.afterReply_onlyIn _ l y.srq).mono (by decide))))

end

/-- Settles O22: the counts, then the first of the four ways on, then the FAULT. -/
theorem pumpReplyMakesItsStepsInOrder : Obligations.PumpReplyMakesItsStepsInOrder := by
  intro n l y s c x r cls p q count reported delta pressure cap z back h hp hdata hb hdelta hcount hpressure hq hcap hback hz
  obtain ⟨-, hn, -, -, -, hkind, -, -, -, hxn, hr, -⟩ := id h
  obtain ⟨hslot, hst, -⟩ := heardContext_bond s x
  have hfit : replyError (s.stationAt n) y.data = none := by
    rw [hdata]
    exact replyError_grout (hkind.trans (congrArg declaredKind hdata))
  have hread : p.read cls count pressure = q := by
    rw [hq]
    exact groutRead_eq p cls count delta _ hb hdelta hcount
  obtain ⟨u, hwork, hcxp, hbmu, hafter⟩ := h.pump_counts hp hdata hb hdelta hcount hpressure hread hcap
  rw [← hback, ← hz] at hwork
  have hnew (d : Cond) (hd : d ≠ .countSetback) : d ∉ back := by
    rw [hback]
    split
    · exact fun hmem => hd (List.mem_singleton.1 hmem)
    · exact List.not_mem_nil
  have hends {ds : List Cond} {f : Record → Record} (hds : ∀ d ∈ ds, d ∉ back) (hf : ∀ v, (f v).conds = v.conds)
      (hno : .stationFault ∉ ds) := hwork.releases (t := s.afterUsed n l y c x)
    (x' := { heardContext s x with prog := .grout q }) (by decide) hr (hxn ▸ hn) hcxp hbmu hst (Parting.plain .stop) hds hf
    (by rw [List.mem_append, not_or]; exact ⟨hnew _ nofun, hno⟩)
  have hheld (reason : HeldReason) (d : Cond) (ending : Option (EndReason × Nat)) :
      u.releaseHeld c { heardContext s x with prog := .grout q } reason n [d] ending =
        (u.freeCtx c { heardContext s x with prog := .grout q } (Parting.plain .stop)).updateRaising x.slot n [d]
          (heldFields (.grout q) reason ending) := by
    rw [← hslot]
    rfl
  have hcuring : u.toCuring c { heardContext s x with prog := .grout q } q cls .refusal =
      (u.freeCtx c { heardContext s x with prog := .grout q } (Parting.plain .stop)).updateRaising x.slot n []
        (refusedFields s.wck.time q cls) := by
    rw [State.updateRaising_nil, ← hslot, ← hxn, ← hst, ← hwork.wck]
    rfl
  refine ⟨s.afterUsed n l y c x, h.exec_eq hfit, State.afterUsed_pump_onlyIn hp hdata, fun held hheldSlot refused hrefused => ?_⟩
  have hrefused' : refused ↔ (heardContext s x).run = .running ∧ q.counting = true ∧ cls.refTime ≤ q.refTimer := by
    rw [hrefused, hq, decide_eq_true_eq]
  have hone (d : Cond) (hd : d ≠ .countSetback) : ∀ e ∈ [d], e ∉ back := List.forall_mem_singleton.2 (hnew d hd)
  refine ⟨fun hburst => ?_, fun hburst hvol => ?_, fun hburst hvol href => ?_, fun hburst hvol href => ?_⟩
  · rw [if_pos hburst, hheld] at hafter
    have hrel := hends (hone .burst nofun) (heldFields_conds _ _ _) (by decide) hafter
    rw [heldFields_raising] at hrel
    rw [hheldSlot]
    exact hrel
  all_goals rw [if_neg (Nat.not_le.2 hburst)] at hafter
  · rw [if_pos hvol, hheld] at hafter
    have hrel := hends (hone .groutLoss nofun) (heldFields_conds _ _ _) (by decide) hafter
    rw [heldFields_raising] at hrel
    rw [hheldSlot]
    exact hrel
  all_goals rw [if_neg (Nat.not_le.2 hvol)] at hafter
  · rw [if_pos (hrefused'.1 href), hcuring] at hafter
    have hrel := hends (List.forall_mem_nil _) (f := refusedFields s.wck.time q cls) (fun _ => rfl) List.not_mem_nil hafter
    rw [List.append_nil] at hrel
    exact hrel
  · rw [if_neg (hrefused'.not.1 href)] at hafter
    obtain ⟨hbecomes, htold, htcxp, -, -⟩ := hwork.finish (by decide) (hnew _ nofun) n l y hafter
    exact ⟨goesOn_of_cxp hr (htcxp.trans hcxp), hbecomes, htold⟩

end Sys2Proof.Machine
end

section
/-! Replies of stations that no context binds (R54, R120, R131, R132, R166): the readings of a monitor, and the end of an unload. -/

namespace Sys2Proof.Machine

/-! ## One reading (R131, R132) -/

/-- A record after a reading (R131, R132). -/
def readRecord (s : State) (reported : Nat) (q : Record) : Record :=
  { q with
    monitored := monitoredAfter q (min reported 30000) s.wck.time
    conds := addConds (if drifts s.tbc.site q (min reported 30000) then [.loadDrift] else []) q.conds }

/-- Whether a reading raises LOAD_DRIFT anew on the record of slot `m` (R132). -/
def State.driftsAnew (s : State) (m reported : Nat) : Bool :=
  (s.recAt m).any (fun r => decide (.loadDrift ∉ r.conds) && drifts s.tbc.site r (min reported 30000))

theorem State.reading_tbc (s : State) (m n reported : Nat) :
    (s.reading m n reported).tbc = (s.update m n (readRecord s reported)).tbc := by
  unfold State.reading
  cases hr : s.recAt m with
  | none => rw [State.update_none hr]
  | some r =>
    rw [State.updateRaising_tbc, State.update, State.update, hr]
    rfl

theorem State.reading_atu (s : State) (m n reported : Nat) : (s.reading m n reported).atu =
    if s.driftsAnew m reported = true then tellAtu s (.record m) s.atu .loadDrift else s.atu := by
  unfold State.reading State.driftsAnew
  cases hr : s.recAt m with
  | none => rfl
  | some r =>
    refine (State.updateRaising_atu (s := s) hr rfl rfl rfl _ _ _).trans ?_
    have hload : takeLoad reported = min reported 30000 := rfl
    rw [hload, Option.any_some, toldNew]
    by_cases hd : drifts s.tbc.site r (min reported 30000) = true <;> by_cases hm : .loadDrift ∈ r.conds <;> simp [hd, hm]

/-! ## The readings of a reply (R131) -/

/-- The slots that a monitor's reply from channel `c` on reads, with the loads reported for them. -/
def State.readSlots (s : State) (n c : Nat) : List (Nat × Bool) → List (Nat × Nat)
  | [] => []
  | (load, valid) :: rest =>
    ((s.channels.get? (n * 8 + c)).filter (fun _ => valid)).toList.map (fun m => (m, load)) ++ s.readSlots n (c + 1) rest

theorem State.readSlots_congr {s t : State} (h : t.channels = s.channels) (n c : Nat) (chs : List (Nat × Bool)) :
    t.readSlots n c chs = s.readSlots n c chs := by
  induction chs generalizing c with
  | nil => rfl
  | cons p chs ih => rw [State.readSlots, State.readSlots, h, ih]

theorem State.takeChannels_eq (s : State) (n c : Nat) (chs : List (Nat × Bool)) : s.takeChannels n c chs =
    (s.readSlots n c chs).foldl (fun t p => t.reading p.1 n p.2) s := by
  induction chs generalizing s c with
  | nil => rfl
  | cons p chs ih =>
    obtain ⟨load, valid⟩ := p
    have hkey : channelKey { station := n, channel := c } = n * 8 + c := rfl
    unfold State.takeChannels
    rw [State.readSlots]
    simp only [hkey]
    cases s.channels.get? (n * 8 + c) with
    | none => exact ih s (c + 1)
    | some m =>
      cases valid with
      | false => exact ih s (c + 1)
      | true =>
        refine (ih (s.reading m n load) (c + 1)).trans ?_
        rw [State.readSlots_congr (State.reading_channels s m n load)]
        rfl

theorem State.mem_readSlots {s : State} {n : Nat} {p : Nat × Nat} {c : Nat} {chs : List (Nat × Bool)} :
    p ∈ s.readSlots n c chs ↔ ∃ k, chs[k]? = some (p.2, true) ∧ s.channels.get? (n * 8 + (c + k)) = some p.1 := by
  induction chs generalizing c with
  | nil => simp [State.readSlots]
  | cons q chs ih =>
    obtain ⟨load, valid⟩ := q
    rw [State.readSlots, List.mem_append, ih]
    constructor
    · rintro (h | ⟨k, h1, h2⟩)
      · obtain ⟨m, hm, rfl⟩ := List.mem_map.1 h
        obtain ⟨hm, hvalid⟩ := Option.filter_eq_some_iff.1 (Option.mem_toList.1 hm)
        exact ⟨0, by rw [List.getElem?_cons_zero, hvalid], hm⟩
      · exact ⟨k + 1, h1, by rw [← h2, Nat.add_assoc, Nat.add_comm 1 k]⟩
    · rintro ⟨_ | k, h1, h2⟩
      · obtain ⟨rfl, rfl⟩ := Prod.mk.inj (Option.some.inj h1)
        refine .inl (List.mem_map.2 ⟨p.1, Option.mem_toList.2 ?_, rfl⟩)
        rw [show s.channels.get? (n * 8 + c) = some p.1 from h2]
        rfl
      · exact .inr ⟨k, h1, by rw [← h2, Nat.add_assoc, Nat.add_comm 1 k]⟩

/-- Every channel that a reply reads is bound to a record of its own (R128). -/
theorem ChannelLaw.readSlots_distinct {s : State} (h : ChannelLaw s) (n c : Nat) (chs : List (Nat × Bool)) :
    (s.readSlots n c chs).Pairwise (fun a b => a.1 ≠ b.1) := by
  have hkey {i j m : Nat} (hi : s.channels.get? i = some m) (hj : s.channels.get? j = some m) : i = j := by
    obtain ⟨r, b, hr, hb, rfl⟩ := h.2 i m hi
    obtain ⟨r', b', hr', hb', rfl⟩ := h.2 j m hj
    rw [hr] at hr'
    cases hr'
    rw [hb] at hb'
    cases hb'
    rfl
  induction chs generalizing c with
  | nil => exact List.Pairwise.nil
  | cons q chs ih =>
    obtain ⟨load, valid⟩ := q
    refine List.pairwise_append.2 ⟨?_, ih (c + 1), fun a ha b hb e => ?_⟩
    · cases (s.channels.get? (n * 8 + c)).filter (fun _ => valid) with
      | none => exact List.Pairwise.nil
      | some m => exact List.pairwise_singleton _ _
    · obtain ⟨m, hm, rfl⟩ := List.mem_map.1 ha
      obtain ⟨hm, -⟩ := Option.filter_eq_some_iff.1 (Option.mem_toList.1 hm)
      obtain ⟨k, -, hk⟩ := State.mem_readSlots.1 hb
      have := hkey hm (e ▸ hk)
      omega


/-! ## All readings of a reply (R131, R132, R136) -/

/-- What the readings `ps` of monitor `n` leave, each of a slot of its own: one update each, and the new LOAD_DRIFT marks told. -/
structure ReadEach (s t : State) (n : Nat) (ps : List (Nat × Nat)) : Prop where
  read : ∀ p ∈ ps, t.slotAt p.1 = updatedSlot s n (readRecord s p.2) (s.slotAt p.1)
  kept : ∀ m, (∀ p ∈ ps, p.1 ≠ m) → t.slotAt m = s.slotAt m
  tbc : t.tbc = { s.tbc with slots := t.tbc.slots }
  atu : t.atu = (ps.filter (fun p => s.driftsAnew p.1 p.2)).foldl (fun a p => tellAtu s (.record p.1) a .loadDrift) s.atu
  wck : t.wck = s.wck

theorem State.reading_each (s : State) (n : Nat) (p : Nat × Nat) : ReadEach s (s.reading p.1 n p.2) n [p] := by
  have hslot (m : Nat) : (s.reading p.1 n p.2).slotAt m = (s.update p.1 n (readRecord s p.2)).slotAt m :=
    State.slotAt_congr (congrArg Tbc.slots (s.reading_tbc p.1 n p.2)) m
  refine ⟨List.forall_mem_singleton.2 ((hslot _).trans (s.slotAt_update _ _ _)), fun m hm => ?_, ?_, ?_, State.reading_wck _ _ _ _⟩
  · exact (hslot m).trans (s.update_slotAt_ne _ m n _ (hm p List.mem_cons_self).symm)
  · rw [State.reading_tbc, State.update_tbc_rest]
  · rw [State.reading_atu, List.filter_cons]
    split <;> rfl

/-- A reading before others, none of which is of its slot. -/
theorem ReadEach.cons {s t u : State} {n : Nat} {p : Nat × Nat} {ps : List (Nat × Nat)} (h : ReadEach s t n [p])
    (h' : ReadEach t u n ps) (hne : ∀ q ∈ ps, p.1 ≠ q.1) : ReadEach s u n (p :: ps) := by
  have hp : p ∈ [p] := List.mem_cons_self
  have hslot (q : Nat × Nat) (hq : q ∈ ps) : t.slotAt q.1 = s.slotAt q.1 := h.kept _ (List.forall_mem_singleton.2 (hne q hq))
  have hwck := h.wck
  have hsite : t.tbc.site = s.tbc.site := by rw [h.tbc]
  have hrecord : readRecord t = readRecord s := by
    funext v q
    rw [readRecord, readRecord, hwck, hsite]
  have htell (a : Atu) (q : Nat × Nat) : tellAtu t (.record q.1) a .loadDrift = tellAtu s (.record q.1) a .loadDrift := by
    rw [tellAtu, tellAtu, hwck, hsite]
  refine ⟨List.forall_mem_cons.2 ⟨?_, fun q hq => ?_⟩, fun m hm => ?_, by rw [h'.tbc, h.tbc], ?_, h'.wck.trans h.wck⟩
  · rw [h'.kept _ fun q hq => (hne q hq).symm]
    exact h.read p hp
  · rw [h'.read q hq, hslot q hq, hrecord, updatedSlot, updatedSlot, hwck]
  · obtain ⟨h1, h2⟩ := List.forall_mem_cons.1 hm
    exact (h'.kept m h2).trans (h.kept m (List.forall_mem_singleton.2 h1))
  · have hfilter : ps.filter (fun q => t.driftsAnew q.1 q.2) = ps.filter (fun q => s.driftsAnew q.1 q.2) :=
      List.filter_congr fun q hq => by rw [State.driftsAnew, State.driftsAnew, State.recAt, State.recAt, hslot q hq, hsite]
    rw [h'.atu, h.atu, hfilter]
    simp only [htell]
    rw [← List.foldl_append, ← List.filter_append]
    rfl

theorem State.readEach_each (s : State) (n : Nat) (ps : List (Nat × Nat)) (hps : ps.Pairwise (fun a b => a.1 ≠ b.1)) :
    ReadEach s (ps.foldl (fun t p => t.reading p.1 n p.2) s) n ps := by
  induction ps generalizing s with
  | nil => exact ⟨List.forall_mem_nil _, fun _ _ => rfl, rfl, rfl, rfl⟩
  | cons p ps ih =>
    obtain ⟨hfirst, hrest⟩ := List.pairwise_cons.1 hps
    exact (s.reading_each n p).cons (ih _ hrest) hfirst

/-- The slot that one channel of a reply drifts anew. -/
def State.driftAt (s : State) (n k : Nat) (q : Option (Nat × Bool)) : Option Nat :=
  q.bind (fun p => ((s.channels.get? (n * 8 + k)).filter (fun _ => p.2)).filter (fun m => s.driftsAnew m p.1))

theorem newDrifts_driftAt (s : State) (n : Nat) (chs : List (Nat × Bool)) :
    newDrifts s n chs = (List.range chs.length).filterMap (fun k => s.driftAt n (0 + k) chs[k]?) := by
  unfold newDrifts
  congr 1
  funext k
  rw [Nat.zero_add, State.driftAt]
  cases chs[k]? with
  | none => rfl
  | some p =>
    obtain ⟨v, valid⟩ := p
    cases hm : s.channels.get? (n * 8 + k) with
    | none => cases valid <;> rfl
    | some m =>
      cases valid with
      | false => rfl
      | true => rfl

/-- The slots whose records drift anew are those that the statement lists, channel by channel. -/
theorem State.driftAt_readSlots (s : State) (n c : Nat) (chs : List (Nat × Bool)) :
    (List.range chs.length).filterMap (fun k => s.driftAt n (c + k) chs[k]?) =
      ((s.readSlots n c chs).filter (fun p => s.driftsAnew p.1 p.2)).map Prod.fst := by
  induction chs generalizing c with
  | nil => rfl
  | cons q chs ih =>
    obtain ⟨load, valid⟩ := q
    have hrest : (fun k => s.driftAt n (c + (k + 1)) ((load, valid) :: chs)[k + 1]?) =
        fun k => s.driftAt n (c + 1 + k) chs[k]? := by
      funext k
      rw [List.getElem?_cons_succ, Nat.add_assoc, Nat.add_comm 1 k]
    have hhead : (s.driftAt n (c + 0) (some (load, valid))).toList =
        (((((s.channels.get? (n * 8 + c)).filter (fun _ => valid)).toList.map (fun m => (m, load))).filter
          (fun p => s.driftsAnew p.1 p.2)).map Prod.fst) := by
      rw [State.driftAt, Option.bind_some, Nat.add_zero]
      cases (s.channels.get? (n * 8 + c)).filter (fun _ => valid) with
      | none => rfl
      | some m => by_cases hd : s.driftsAnew m load = true <;> simp [hd]
    rw [State.readSlots, List.filter_append, List.map_append, ← ih, ← hhead, List.length_cons, List.range_succ_eq_map,
      List.filterMap_cons, List.filterMap_map, ← hrest, List.getElem?_cons_zero]
    cases s.driftAt n (c + 0) (some (load, valid)) <;> rfl

theorem newDrifts_eq (s : State) (n : Nat) (chs : List (Nat × Bool)) : newDrifts s n chs =
    ((s.readSlots n 0 chs).filter (fun p => s.driftsAnew p.1 p.2)).map Prod.fst :=
  (newDrifts_driftAt s n chs).trans (s.driftAt_readSlots n 0 chs)

/-! ## The event (R160, R166) -/

/-- STATION_FAULT on a station that no context binds, where its reply carries FAULT (R166). -/
def State.markFaultOf (s : State) (y : Reply) (n : Nat) : State :=
  if y.fault = true then s.raiseMark (.station n) .stationFault else s

theorem State.raiseMark_station (s : State) (n : Nat) : s.raiseMark (.station n) .stationFault =
    if (s.stationAt n).faultMark = true then s
    else (s.putStation n { s.stationAt n with faultMark := true }).tell (.station n) .stationFault := by
  simp [State.raiseMark, State.marked, State.setMark]

theorem State.markFaultOf_atu (s : State) (y : Reply) (n : Nat) : (s.markFaultOf y n).atu =
    if y.fault = true ∧ (s.stationAt n).faultMark = false then tellAtu s (.station n) s.atu .stationFault else s.atu := by
  rw [State.markFaultOf, State.raiseMark_station]
  cases y.fault with
  | false => rfl
  | true =>
    cases (s.stationAt n).faultMark with
    | true => rfl
    | false => exact State.tells_atu (s.putStation n { s.stationAt n with faultMark := true }) (.station n) [.stationFault]

theorem State.markFaultOf_onlyIn (s : State) (y : Reply) (n : Nat) : OnlyIn [.bmu, .atu] s (s.markFaultOf y n) := by
  rw [State.markFaultOf, State.raiseMark_station]
  split
  · split
    · exact OnlyIn.refl _ s
    · exact fun b hb => by cases b <;> simp_all [Block.agrees]
  · exact OnlyIn.refl _ s

section
variable {s : State} {n : Nat} {l : LineId} {y : Reply} (hup : s.busUp = true) (hx : s.bmu.exchange = .call n l)
  (hfit : replyError (s.stationAt n) y.data = none)
include hup hx hfit

/-- A reply that fits its station in the window of its CALL. -/
theorem execReply_window : exec (.replyReceived n l y) s = .next
    ((((s.setExchange .idle).putLine l (s.lineAt l).succeed).takeReply n l y).afterReply l y.srq) := by
  have hexec : exec (.replyReceived n l y) s = .next (s.replyInWindow n l y) := by
    show execReplyReceived n l y s = _
    simp [execReplyReceived, hup, hx]
  rw [hexec, State.replyInWindow, hfit]

/-- The same of a station that no context binds. -/
theorem execReply_unbound (hfree : (s.stationAt n).ctx = none) : exec (.replyReceived n l y) s = .next
    ((((s.heardFrom n l y).handOn n y).markFaultOf y n).afterReply l y.srq) := by
  rw [execReply_window hup hx hfit]
  have hput : ((s.setExchange .idle).putLine l (s.lineAt l).succeed).putStation n
      ((((s.setExchange .idle).putLine l (s.lineAt l).succeed).stationAt n).heard l y.data) = s.heardFrom n l y := by
    rw [State.stationAt_putLine]; rfl
  have hsubject : ((s.setExchange .idle).putLine l (s.lineAt l).succeed).faultSubject n = .station n := by
    have hctx : (((s.setExchange .idle).putLine l (s.lineAt l).succeed).stationAt n).ctx = none := by
      rw [State.stationAt_putLine]; exact hfree
    rw [State.faultSubject, hctx]
    rfl
  simp only [State.takeReply, hput, hsubject, State.raiseFault, State.markFaultOf]

end

section
variable {s : State} {n : Nat} {y : Reply} (hfree : (s.stationAt n).ctx = none)
include hfree

theorem State.handOn_monitor {chs : List (Nat × Bool)} (hdata : y.data = .monitor chs) : s.handOn n y = s.takeChannels n 0 chs := by
  simp only [State.handOn, hfree, hdata]

theorem State.handOn_jack {pressure stroke : Nat} {seated lifted restroking released : Bool}
    (hdata : y.data = .jack pressure stroke seated lifted restroking released) :
    s.handOn n y = s.testParting n (.jack pressure stroke seated lifted restroking released) := by
  simp only [State.handOn, hfree, hdata]

end

/-! ## A monitor's reply (R131, R132) -/

/-- What the statement says of the record that a reading is of. -/
theorem readRecord_eq (s : State) (v : Nat) {r : Record} {held : Nat} (hheld : r.lockoffLoad = some held) : readRecord s v r =
    { r with
      monitored := if r.monitored.map MonitoredLoad.load = some (min v 30000) then r.monitored
        else some { load := min v 30000, time := s.wck.time }
      conds := addConds (if held * s.tbc.site.drift / 1000 < (min v 30000 - held) + (held - min v 30000) then [.loadDrift]
        else []) r.conds } := by
  have hdrift : drifts s.tbc.site r (min v 30000) =
      decide (held * s.tbc.site.drift / 1000 < (min v 30000 - held) + (held - min v 30000)) := by
    rw [drifts, hheld]
    rfl
  have hmonitored : monitoredAfter r (min v 30000) s.wck.time =
      if r.monitored.map MonitoredLoad.load = some (min v 30000) then r.monitored
      else some { load := min v 30000, time := s.wck.time } := by
    unfold monitoredAfter
    cases r.monitored <;> simp
  rw [readRecord, hdrift, hmonitored]
  simp only [decide_eq_true_eq]

theorem updatedSlot_stepped {s : State} {m : Nat} {r : Record} (hr : s.recAt m = some r) (st : Nat) (f : Record → Record) :
    updatedSlot s st f (s.slotAt m) = if f r = r then s.slotAt m else stepped s m st (f r) := by
  have hrec : (s.slotAt m).rec? = some r := hr
  rw [updatedSlot, hrec]
  rfl

/-- The readings are of the part as the reply came, whatever it has done to the works bus. -/
theorem ReadEach.congr {s s0 t : State} {n : Nat} {ps : List (Nat × Nat)} (h : ReadEach s0 t n ps) (hs : SameWork s s0)
    (hatu : s0.atu = s.atu) : ReadEach s t n ps := by
  have hslot (m : Nat) : s0.slotAt m = s.slotAt m := State.slotAt_congr (by rw [hs.tbc]) m
  have hupdated (v : Nat) : updatedSlot s0 n (readRecord s0 v) = updatedSlot s n (readRecord s v) := by
    have hrecord : readRecord s0 v = readRecord s v := by
      funext q
      rw [readRecord, readRecord, hs.wck, hs.tbc]
    funext z
    rw [hrecord, updatedSlot, updatedSlot, hs.wck]
  have hdrift (m v : Nat) : s0.driftsAnew m v = s.driftsAnew m v := by
    rw [State.driftsAnew, State.driftsAnew, State.recAt, State.recAt, hslot, hs.tbc]
  have htell (a : Atu) (m : Nat) : tellAtu s0 (.record m) a .loadDrift = tellAtu s (.record m) a .loadDrift := by
    rw [tellAtu, tellAtu, hs.tbc, hs.wck]
  refine ⟨fun p hp => ?_, fun m hm => (h.kept m hm).trans (hslot m), by rw [h.tbc, hs.tbc], ?_, h.wck.trans hs.wck⟩
  · rw [h.read p hp, hupdated, hslot]
  · simp only [h.atu, hdrift, htell, hatu]

/-! ## A jack's reply (R54, R120) -/

/-- The end condition of a parting order is met by a pressure, taken as at most 100,000 (R54, R120). -/
def State.partingEnds (s : State) (n pressure : Nat) : Prop :=
  ∃ p lo hi, s.cxp.parting.get? n = some p ∧ p.until? = some (lo, hi) ∧ lo ≤ min pressure 100000 ∧ min pressure 100000 ≤ hi

theorem State.testParting_ends {s : State} {n pressure : Nat} (h : s.partingEnds n pressure) (stroke : Nat)
    (seated lifted restroking released : Bool) : s.testParting n (.jack pressure stroke seated lifted restroking released) =
      { s with cxp := { s.cxp with
        parting := s.cxp.parting.put n (Parting.plain (unboundOrder (s.stationAt n).kind)) } } := by
  obtain ⟨p, lo, hi, hp, huntil, hlo, hhi⟩ := h
  simp only [State.testParting, hp, huntil]
  exact if_pos ⟨hlo, hhi⟩

theorem State.testParting_goesOn {s : State} {n pressure : Nat} (h : ¬ s.partingEnds n pressure) (stroke : Nat)
    (seated lifted restroking released : Bool) :
    s.testParting n (.jack pressure stroke seated lifted restroking released) = s := by
  simp only [State.testParting]
  cases hp : s.cxp.parting.get? n with
  | none => rfl
  | some p =>
    cases huntil : p.until? with
    | none => simp only [huntil]
    | some q =>
      obtain ⟨lo, hi⟩ := q
      simp only [huntil]
      exact if_neg fun hin => h ⟨p, lo, hi, hp, huntil, hin⟩

theorem State.heardFrom_onlyIn (s : State) (n : Nat) (l : LineId) (y : Reply) : OnlyIn [.bmu] s (s.heardFrom n l y) := fun b hb => by
  cases b <;> simp_all [Block.agrees, State.heardFrom]

theorem State.heardFrom_stationAt (s : State) {n : Nat} (hn : n < 16) (l : LineId) (y : Reply) (m : Nat) :
    (s.heardFrom n l y).stationAt m = if m = n then (s.stationAt n).heard l y.data else s.stationAt m := by
  rw [State.heardFrom, State.stationAt_putStation, State.stationAt_putLine]
  simp only [hn, and_true]
  rfl

theorem State.takeChannels_onlyIn (s : State) (n c : Nat) (chs : List (Nat × Bool)) :
    OnlyIn [.tbc, .isi, .atu] s (s.takeChannels n c chs) := fun b hb => by cases b <;> simp_all [Block.agrees]

/-- Settles O44: the readings of a monitor's channels, and the end condition of a jack's parting order. -/
theorem unboundRepliesAreReadAndEndTheUnload : Obligations.UnboundRepliesAreReadAndEndTheUnload := by
  refine ⟨fun n l y s u chs hn hup hx hu hun hkind hfree hparam hlen hdata ht hch => ?_,
    fun n l y s u pressure stroke seated lifted restroking released hn hup hx hu hun hkind hfree hdata => ?_⟩
  · have hfit : replyError (s.stationAt n) y.data = none := by
      simp [replyError, hdata, declaredKind, hkind, lengthFits, hparam]
    have hfree' : ((s.heardFrom n l y).stationAt n).ctx = none := (s.heardFrom_ctxOf n l y n).trans hfree
    have hsame := s.heardFrom_same n l y
    have hread : ReadEach s ((s.heardFrom n l y).takeChannels n 0 chs) n (s.readSlots n 0 chs) := by
      rw [State.takeChannels_eq, State.readSlots_congr hsame.channels]
      exact (State.readEach_each _ n _ (hch.readSlots_distinct n 0 chs)).congr hsame
        (s.heardFrom_onlyIn n l y .atu (by decide))
    have hmark : (((s.heardFrom n l y).takeChannels n 0 chs).stationAt n).faultMark = (s.stationAt n).faultMark := by
      rw [State.stationAt_congr (State.takeChannels_bmu _ n 0 chs), s.heardFrom_stationAt hn, if_pos rfl]
      rfl
    have honly := ((s.heardFrom_onlyIn n l y).mono (more := [.tbc, .isi, .atu, .bmu]) (by decide)).trans
      (((s.heardFrom n l y).takeChannels_onlyIn n 0 chs).mono (by decide))
    rw [execReply_unbound hup hx hfit hfree, State.handOn_monitor hfree' hdata]
    generalize (s.heardFrom n l y).takeChannels n 0 chs = w at hread hmark honly
    have htbc : ((w.markFaultOf y n).afterReply l y.srq).tbc = w.tbc :=
      ((w.markFaultOf y n).afterReply_onlyIn l y.srq .tbc (by decide)).trans (w.markFaultOf_onlyIn y n .tbc (by decide))
    have hslot (m : Nat) : ((w.markFaultOf y n).afterReply l y.srq).slotAt m = w.slotAt m :=
      State.slotAt_congr (congrArg Tbc.slots htbc) m
    refine ⟨_, rfl, fun k v m r load drift raised hk hm hr hdrift hload hraised r' hr' => ?_, fun m hm => ?_,
      fun told htold hsrq => ?_, ?_, ?_⟩
    · subst hload hraised
      have hmem : (m, v) ∈ s.readSlots n 0 chs := State.mem_readSlots.2 ⟨k, hk, by rw [Nat.zero_add]; exact hm⟩
      rw [hslot, hread.read _ hmem, updatedSlot_stepped hr, readRecord_eq s v hdrift, ← hr']
    · refine (hslot m).trans (hread.kept m fun p hp e => ?_)
      obtain ⟨k, hk, hget⟩ := State.mem_readSlots.1 hp
      rw [Nat.zero_add] at hget
      exact hm k p.2 hk (e ▸ hget)
    · have hlisted : w.atu = told := by
        rw [htold, newDrifts_eq, List.foldl_map]
        exact hread.atu
      have htell : tellAtu w (.station n) w.atu .stationFault = tellAtu s (.station n) told .stationFault := by
        rw [tellAtu, tellAtu, hlisted, hread.wck, hread.tbc]
      rw [hsrq, State.afterReply_atu, State.markFaultOf_atu, hmark, htell, hlisted]
    · rw [htbc]
      exact hread.tbc
    · exact honly.trans (((w.markFaultOf_onlyIn y n).mono (by decide)).trans
        (((w.markFaultOf y n).afterReply_onlyIn l y.srq).mono (by decide)))
  · have hfit : replyError (s.stationAt n) y.data = none := by
      simp [replyError, hdata, declaredKind, hkind, lengthFits]
    have hfree' : ((s.heardFrom n l y).stationAt n).ctx = none := (s.heardFrom_ctxOf n l y n).trans hfree
    have hcxp : (s.heardFrom n l y).cxp = s.cxp := (s.heardFrom_same n l y).cxp
    have hidle : unboundOrder ((s.heardFrom n l y).stationAt n).kind = .idle := by
      rw [s.heardFrom_stationAt hn, if_pos rfl]
      exact congrArg unboundOrder hkind
    have hends : (s.heardFrom n l y).partingEnds n pressure ↔ s.partingEnds n pressure := by
      rw [State.partingEnds, hcxp]
      rfl
    have hheard := s.heardFrom_onlyIn n l y
    rw [execReply_unbound hup hx hfit hfree, State.handOn_jack hfree' hdata]
    have hafter (w : State) : ((w.markFaultOf y n).afterReply l y.srq).cxp = w.cxp :=
      ((w.markFaultOf y n).afterReply_onlyIn l y.srq .cxp (by decide)).trans (w.markFaultOf_onlyIn y n .cxp (by decide))
    have hrest (w : State) (hw : OnlyIn [.cxp] (s.heardFrom n l y) w) :
        OnlyIn [.cxp, .atu, .bmu] s ((w.markFaultOf y n).afterReply l y.srq) :=
      (hheard.mono (by decide)).trans ((hw.mono (by decide)).trans (((w.markFaultOf_onlyIn y n).mono (by decide)).trans
        (((w.markFaultOf y n).afterReply_onlyIn l y.srq).mono (by decide))))
    by_cases hend : s.partingEnds n pressure
    · rw [State.testParting_ends (hends.2 hend), hidle]
      refine ⟨_, rfl, ?_, fun m hm => ?_, hrest _ fun b hb => by cases b <;> simp_all [Block.agrees], fun ends hiff =>
        ⟨fun _ => ?_, fun hno => absurd (hiff.2 hend) hno⟩⟩
      · have hcontexts := congrArg Cxp.contexts hcxp
        rw [hafter]
        exact hcontexts
      · rw [hafter, hcxp]
        exact Table.get?_put_ne _ _ _ _ hm
      · rw [hafter]
        exact Table.get?_put_same _ _ _
    · rw [State.testParting_goesOn (hends.not.2 hend)]
      refine ⟨_, rfl, ?_, fun m hm => ?_, hrest _ (OnlyIn.refl _ _), fun ends hiff =>
        ⟨fun h => absurd (hiff.1 h) hend, fun _ => ?_⟩⟩
      all_goals rw [hafter, hcxp]

end Sys2Proof.Machine
end

section
/-! The phase timer of a band hold (R61, R109, R112, R113, R117, R118, R120, R125, R136). -/

namespace Sys2Proof.Machine

/-! ## What a decision of the phase logic leaves (R53, R120) -/

/-- A release frees the context and unbinds its station, whatever becomes of the record (R53, R54). -/
theorem freed_of_freeCtx {s t : State} {c : Nat} {x : Context} {p : Parting} (hcxp : t.cxp = (s.freeCtx c x p).cxp)
    (hbmu : t.bmu = (s.freeCtx c x p).bmu) : Freed s t c x p := by
  have hctx (d : Nat) : t.ctxAt d = (s.freeCtx c x p).ctxAt d := by rw [State.ctxAt, hcxp]; rfl
  have hstation (m : Nat) : t.stationAt m = (s.freeCtx c x p).stationAt m := State.stationAt_congr hbmu m
  refine ⟨(hctx c).trans (State.ctxAt_freeCtx_same ..), fun d hd => (hctx d).trans (State.ctxAt_freeCtx_ne _ _ _ _ _ hd), ?_,
    fun m hm => ?_, ?_, fun m hm => ?_⟩
  · rw [hcxp]; exact Table.get?_put_same _ _ _
  · rw [hcxp]; exact Table.get?_put_ne _ _ _ _ hm
  · rw [hstation, State.freeCtx_stationAt]
    split
    · rfl
    · next hno =>
      rw [State.stationAt_ge (Nat.not_lt.1 fun hlt => hno ⟨rfl, hlt⟩)]
      rfl
  · rw [hstation, State.freeCtx_stationAt, if_neg fun e => hm e.1]

theorem freeCtx_kind (s : State) (c : Nat) (x : Context) (p : Parting) (m : Nat) :
    ((s.freeCtx c x p).stationAt m).kind = (s.stationAt m).kind := by
  rw [State.freeCtx_stationAt]
  split
  · next h => rw [h.1]
  · rfl

section
variable {s : State} {c : Nat} {x : Context} {r : Record} {cls : ClassEntry} {cal : List CalPoint} {stress : Bool} {p : JackProg}

/-- The progress is kept (R109). -/
theorem finishJack_goesOn (s : State) (c : Nat) (x : Context) (env : JackEnv) (mk : JackProg → Progress) (q : JackProg) :
    s.finishJack c x env mk (q, .goesOn) = s.putCtx c { x with prog := mk q } := rfl

/-- A failing verdict ends the context with the order of its release (R120). -/
theorem finishJack_fails (s : State) (c : Nat) (x : Context) (env : JackEnv) (mk : JackProg → Progress) (q : JackProg)
    (v : Verdict) : s.finishJack c x env mk (q, .fails v) =
      (s.freeCtx c x (failParting env v)).updateRaising x.slot x.station (verdictCond v) (fun r => { r with
        state := .failed, context := none
        stress := some (stressResult env q v (if v = .lockoffFail then q.residualOf env else none)) }) := rfl

theorem putCtx_kept (s : State) (c : Nat) (x : Context) (prog : Progress) :
    (s.putCtx c { x with prog := prog }).ctxAt c = some { x with prog := prog } ∧
      (∀ d, d ≠ c → (s.putCtx c { x with prog := prog }).ctxAt d = s.ctxAt d) ∧
      OnlyIn [.cxp] s (s.putCtx c { x with prog := prog }) ∧
      (s.putCtx c { x with prog := prog }).cxp.parting = s.cxp.parting :=
  ⟨State.ctxAt_putCtx_same _ _ _, fun _ hd => State.ctxAt_putCtx_ne _ _ _ _ hd, fun b hb => by
    cases b <;> simp_all [Block.agrees], rfl⟩

/-- The event of a bound jack meets the expiry of its phase timer. -/
theorem execPhaseTimerExpiry_jack (hx : s.ctxAt c = some x) (hprog : x.prog = jackProgress stress p)
    (hr : s.recAt x.slot = some r) (hcls : s.classOf r = some cls) (hcal : s.calAt x.station = some cal) :
    exec (.phaseTimerExpiry c) s = .next (s.finishJack c x (envOf cls cal r) (jackProgress stress)
      (p.expire (envOf cls cal r) (x.run = .running))) := by
  have henv : s.jackEnv x = some (envOf cls cal r) := by simp only [State.jackEnv, hr, hcls, hcal]; rfl
  show execPhaseTimerExpiry c s = _
  simp only [execPhaseTimerExpiry, hx, State.expireTimer, henv, hprog]
  cases stress <;> rfl

end

section
variable {env : JackEnv} {p : JackProg} {l : LastReply} {running : Bool} (hl : p.last = some l)
include hl

omit hl in
theorem expire_idle (h : p.timer ≠ some 0 ∨ p.holding = false ∨ p.pendingAdv = true) : p.expire env running = (p, .goesOn) := by
  unfold JackProg.expire
  split
  · next ht _ => exact if_pos (h.resolve_left (not_not_intro ht))
  · rfl

theorem expire_acts (ht : p.timer = some 0) (hh : p.holding = true) (hp : p.pendingAdv = false)
    (h : running = true ∧ p.faultHold = false ∧ inBand env.cls (phaseTarget env p) l.load = true) :
    p.expire env running = p.completeHold env l := by
  simp only [JackProg.expire, ht, hl, hh, hp, h, and_self, if_true, Bool.true_eq_false, Bool.false_eq_true, or_self, if_false]

theorem expire_waits (ht : p.timer = some 0) (hh : p.holding = true) (hp : p.pendingAdv = false)
    (h : ¬ (running = true ∧ p.faultHold = false ∧ inBand env.cls (phaseTarget env p) l.load = true)) :
    p.expire env running = ({ p with pendingAdv := true }, .goesOn) := by
  simp only [JackProg.expire, ht, hl, hh, hp, h, Bool.true_eq_false, Bool.false_eq_true, or_self, if_false]

end

/-- What the completion of a band hold leaves of a context that runs (R112, R117, R120). -/
theorem finishJack_holdEnds {s : State} {c : Nat} {x : Context} {r : Record} {cls : ClassEntry} {cal : List CalPoint}
    {stress : Bool} {p : JackProg} {l : LastReply} (hr : s.recAt x.slot = some r) (hrun : x.run = .running)
    (hband : BandPhase p) :
    ∀ t, t = s.finishJack c x (envOf cls cal r) (jackProgress stress) (p.completeHold (envOf cls cal r) l) →
      HoldEnds s t x.station c x r cls cal stress p l (fun cs => t.atu = toldNew s (.record x.slot) r.conds cs) ∧
        (t.stationAt x.station).kind = (s.stationAt x.station).kind ∧ OnlyIn [.tbc, .cxp, .isi, .atu, .bmu] s t := by
  rintro t rfl
  have hheard : heardContext s x = x := if_neg (by rw [hrun]; nofun)
  rw [completeHold_eq p _ l hband]
  split
  · next hfails =>
    rw [finishJack_fails, if_neg (by decide), failParting_unload _ .lengthFail (by decide), stressResult_length]
    refine ⟨⟨fun _ => ⟨freed_of_freeCtx (State.updateRaising_cxp ..) (State.updateRaising_bmu ..), ?_,
      State.updateRaising_atu (t := s.freeCtx c x (unloadParting cls cal)) hr rfl rfl rfl _ _ _⟩, fun hgoes => absurd hfails hgoes⟩, ?_, State.release_onlyIn _ _ _ _ _⟩
    · exact SlotBecomes.updateRaising (t := s.freeCtx c x (unloadParting cls cal)) (SlotBecomes.refl s x.slot) (.inl rfl) rfl ..
    · rw [State.stationAt_congr (State.updateRaising_bmu ..), freeCtx_kind]
  · next hgoes =>
    obtain ⟨hself, hothers, honly, hparting⟩ :=
      putCtx_kept s c x (jackProgress stress (holdCompleted cls r cal p l))
    rw [finishJack_goesOn]
    exact ⟨⟨fun hfails => absurd hfails hgoes, fun _ => ⟨⟨by rw [hheard]; exact hself, hothers, hparting⟩,
      SlotBecomes.refl s x.slot, rfl⟩⟩, rfl, honly.mono (by decide)⟩

/-- Settles O21: nothing, the completion of the hold, or an advance marked pending. -/
theorem bandHoldEndsOnItsTimer : Obligations.BandHoldEndsOnItsTimer := by
  intro c s x stress p r cls cal l hx hprog hr hcls hcal hband hl
  rw [execPhaseTimerExpiry_jack hx hprog hr hcls hcal]
  refine ⟨fun hidle => ?_, fun ht hh hp acts hacts => ?_⟩
  · rw [expire_idle hidle, finishJack_goesOn]
    obtain ⟨hself, hothers, honly, hparting⟩ := putCtx_kept s c x (jackProgress stress p)
    exact ⟨_, rfl, by rw [hself, ← hprog], hothers, honly, hparting⟩
  · have hcond : acts ↔ decide (x.run = .running) = true ∧ p.faultHold = false ∧
        inBand (envOf cls cal r).cls (phaseTarget (envOf cls cal r) p) l.load = true := by
      rw [hacts, inBand_iff, phaseTarget_eq, decide_eq_true_eq]
      rfl
    refine ⟨fun ha => ?_, fun ha => ?_⟩
    · rw [expire_acts hl ht hh hp (hcond.1 ha)]
      exact ⟨_, rfl, finishJack_holdEnds hr (hacts.1 ha).1 hband _ rfl⟩
    · rw [expire_waits hl ht hh hp (hcond.not.1 ha), finishJack_goesOn]
      exact ⟨_, rfl, putCtx_kept s c x _⟩

end Sys2Proof.Machine
end

section
/-! A reply is taken alike in its window and alone (R57, R60, R160, R166): what the units do with a reply reads and writes nothing
of the works bus but the binding of the context's own station. -/

namespace Sys2Proof.Machine

/-! ## The binding of one station on another works bus -/

/-- The part with the works bus `b`, but for the binding of station `k`. -/
def State.onBus (s : State) (k : Nat) (b : Bmu) : State :=
  { s with bmu := { b with stations :=
      b.stations.setIfInBounds k { (b.stations[k]?).getD Station.unenrolled with ctx := (s.stationAt k).ctx } } }

theorem State.onBus_self (s : State) (k : Nat) : s.onBus k s.bmu = s := by
  have hset : s.bmu.stations.setIfInBounds k { s.stationAt k with ctx := (s.stationAt k).ctx } = s.bmu.stations := by
    refine Vector.ext fun i hi => ?_
    rw [Vector.getElem_setIfInBounds]
    split
    · next h => subst h; simp [State.stationAt, hi]
    · rfl
  exact congrArg (fun v => { s with bmu := { s.bmu with stations := v } }) hset

section
variable (s : State) (k : Nat) (b : Bmu)

theorem State.onBus_ite (p : Prop) [Decidable p] (t : State) :
    (if p then s else t).onBus k b = if p then s.onBus k b else t.onBus k b := apply_ite (State.onBus · k b) p s t

theorem State.hand_onBus (i : Item) : (s.onBus k b).hand i = (s.hand i).onBus k b := by
  unfold State.hand
  rw [State.onBus_ite]
  rfl

theorem State.tell_onBus (subj : Subject) (c : Cond) : (s.onBus k b).tell subj c = (s.tell subj c).onBus k b := by
  unfold State.tell State.tellAt
  rw [State.onBus_ite]
  rfl

theorem State.tells_onBus (subj : Subject) (cs : List Cond) :
    cs.foldl (fun t c => t.tell subj c) (s.onBus k b) = (cs.foldl (fun t c => t.tell subj c) s).onBus k b := by
  induction cs generalizing s with
  | nil => rfl
  | cons c cs ih => rw [List.foldl_cons, List.foldl_cons, State.tell_onBus, ih]

theorem State.putSlot_onBus (n : Nat) (z : Slot) : (s.onBus k b).putSlot n z = (s.putSlot n z).onBus k b := rfl

theorem State.recAt_onBus (n : Nat) : (s.onBus k b).recAt n = s.recAt n := rfl

theorem State.update_onBus (n st : Nat) (f : Record → Record) : (s.onBus k b).update n st f = (s.update n st f).onBus k b := by
  unfold State.update
  rw [State.recAt_onBus]
  cases s.recAt n with
  | none => rfl
  | some r =>
    dsimp only
    rw [State.onBus_ite, State.putSlot_onBus, State.hand_onBus]
    rfl

theorem State.updateRaising_onBus (n st : Nat) (cs : List Cond) (f : Record → Record) :
    (s.onBus k b).updateRaising n st cs f = (s.updateRaising n st cs f).onBus k b := by
  unfold State.updateRaising
  rw [State.update_onBus, State.tells_onBus]
  rfl

/-- A slot that a map entry names or named is handed to the write queue (R9). -/
def State.handSlot? (s : State) (o : Option Nat) : State := o.elim s (fun n => s.hand (.slot n))

theorem State.setMap_eq (s : State) (key : Nat) (v : Option Nat) : s.setMap key v =
    if s.tbc.map.get? key = v then s
    else ((State.handSlot? { s with tbc := { s.tbc with map := s.tbc.map.set key v } } (s.tbc.map.get? key)).handSlot? v) := by
  unfold State.setMap
  cases s.tbc.map.get? key <;> cases v <;> rfl

theorem State.handSlot?_onBus (o : Option Nat) : (s.onBus k b).handSlot? o = (s.handSlot? o).onBus k b := by
  cases o with
  | none => rfl
  | some n => exact s.hand_onBus k b (.slot n)

theorem State.setMap_onBus (key : Nat) (v : Option Nat) : (s.onBus k b).setMap key v = (s.setMap key v).onBus k b := by
  rw [State.setMap_eq, State.setMap_eq, State.onBus_ite, ← State.handSlot?_onBus, ← State.handSlot?_onBus]
  rfl

theorem State.unlinkOld_onBus (n st : Nat) (r : Record) : (s.onBus k b).unlinkOld n st r = (s.unlinkOld n st r).onBus k b := by
  unfold State.unlinkOld
  cases r.replaces with
  | none => rfl
  | some m =>
    dsimp only
    rw [State.recAt_onBus]
    cases s.recAt m with
    | none => rfl
    | some old =>
      dsimp only
      rw [State.onBus_ite, State.update_onBus]
      rfl

theorem State.freeChannel_onBus (v : Option Binding) : (s.onBus k b).freeChannel v = (s.freeChannel v).onBus k b := by
  cases v <;> rfl

theorem State.untell_onBus (p : Entry → Bool) : (s.onBus k b).untell p = (s.untell p).onBus k b := rfl

theorem State.retireRecord_onBus (n st : Nat) (reason : RetireReason) (f : Record → Record) :
    (s.onBus k b).retireRecord n st reason f = (s.retireRecord n st reason f).onBus k b := by
  unfold State.retireRecord
  rw [State.recAt_onBus]
  cases s.recAt n with
  | none => rfl
  | some r =>
    dsimp only
    simp only [State.update_onBus, State.freeChannel_onBus, State.untell_onBus, State.unlinkOld_onBus, State.onBus_ite,
      ← State.setMap_onBus]
    rfl

theorem State.lockRecord_onBus (n st : Nat) (f : Record → Record) :
    (s.onBus k b).lockRecord n st f = (s.lockRecord n st f).onBus k b := by
  unfold State.lockRecord
  rw [State.recAt_onBus]
  cases s.recAt n with
  | none => rfl
  | some r =>
    dsimp only
    rw [State.update_onBus]
    cases r.replaces with
    | none => rfl
    | some m =>
      dsimp only
      rw [State.onBus_ite, State.setMap_onBus]
      rfl

theorem State.reading_onBus (m n v : Nat) : (s.onBus k b).reading m n v = (s.reading m n v).onBus k b := by
  unfold State.reading
  rw [State.recAt_onBus]
  cases s.recAt m with
  | none => rfl
  | some r => exact State.updateRaising_onBus ..

theorem State.takeChannels_onBus (n c : Nat) (chs : List (Nat × Bool)) :
    (s.onBus k b).takeChannels n c chs = (s.takeChannels n c chs).onBus k b := by
  rw [State.takeChannels_eq, State.takeChannels_eq, State.readSlots_congr (s := s) (t := s.onBus k b) rfl]
  generalize s.readSlots n c chs = ps
  induction ps generalizing s with
  | nil => rfl
  | cons p ps ih => rw [List.foldl_cons, List.foldl_cons, State.reading_onBus, ih]

theorem State.putCtx_onBus (c : Nat) (x : Context) : (s.onBus k b).putCtx c x = (s.putCtx c x).onBus k b := rfl

theorem State.raise_onBus (n st : Nat) (c : Cond) : (s.onBus k b).raise n st c = (s.raise n st c).onBus k b :=
  s.updateRaising_onBus k b n st [c] id

theorem State.writeLiftoff_onBus (x : Context) (p : JackProg) (t : JackReading) :
    (s.onBus k b).writeLiftoff x p t = (s.writeLiftoff x p t).onBus k b := by
  unfold State.writeLiftoff
  rw [State.update_onBus, State.onBus_ite]

theorem State.winchReply_onBus (c : Nat) (x : Context) (p : InsertProg) (count tension : Nat) :
    (s.onBus k b).winchReply c x p count tension = (s.winchReply c x p count tension).onBus k b := by
  unfold State.winchReply
  have hcls : ((s.onBus k b).recAt x.slot).bind (s.onBus k b).classOf = (s.recAt x.slot).bind s.classOf := rfl
  rw [hcls]
  cases (s.recAt x.slot).bind s.classOf with
  | none => rfl
  | some cls =>
    dsimp only
    simp only [State.putCtx_onBus, State.raise_onBus, ← State.onBus_ite]

end

/-! ## The units (R71, R74, R79, R109, R120) -/

section
variable (s : State) {k : Nat} (b : Bmu) (c : Nat) {x : Context} (hx : x.station = k)
include hx

/-- A release unbinds the context's own station. -/
theorem State.freeCtx_onBus (p : Parting) : (s.onBus k b).freeCtx c x p = (s.freeCtx c x p).onBus k b := by
  subst hx
  have hstations : (b.stations.setIfInBounds x.station
        { (b.stations[x.station]?).getD Station.unenrolled with ctx := (s.stationAt x.station).ctx }).setIfInBounds x.station
        { (s.onBus x.station b).stationAt x.station with ctx := none } =
      b.stations.setIfInBounds x.station
        { (b.stations[x.station]?).getD Station.unenrolled with ctx := ((s.freeCtx c x p).stationAt x.station).ctx } := by
    rw [Vector.setIfInBounds_setIfInBounds]
    refine Vector.ext fun i hi => ?_
    rw [Vector.getElem_setIfInBounds, Vector.getElem_setIfInBounds]
    split
    · next h =>
      subst h
      rw [State.freeCtx_stationAt, if_pos ⟨rfl, hi⟩]
      simp [State.stationAt, State.onBus, hi]
    · rfl
  exact congrArg (fun v => { s.freeCtx c x p with bmu := { b with stations := v } }) hstations

theorem State.releaseHeld_onBus (reason : HeldReason) (st : Nat) (cs : List Cond) (ending : Option (EndReason × Nat)) :
    (s.onBus k b).releaseHeld c x reason st cs ending = (s.releaseHeld c x reason st cs ending).onBus k b := by
  unfold State.releaseHeld
  rw [s.freeCtx_onBus b c hx, State.updateRaising_onBus]

theorem State.toCuring_onBus (p : GroutProg) (cls : ClassEntry) (reason : EndReason) :
    (s.onBus k b).toCuring c x p cls reason = (s.toCuring c x p cls reason).onBus k b := by
  unfold State.toCuring
  rw [s.freeCtx_onBus b c hx, State.update_onBus]
  rfl

theorem State.finishJack_onBus (env : JackEnv) (mk : JackProg → Progress) (out : JackProg × JackEnd) :
    (s.onBus k b).finishJack c x env mk out = (s.finishJack c x env mk out).onBus k b := by
  unfold State.finishJack
  cases out.2 with
  | goesOn => rfl
  | fails v => dsimp only; rw [s.freeCtx_onBus b c hx, State.updateRaising_onBus]
  | passes res => dsimp only; rw [s.freeCtx_onBus b c hx, State.lockRecord_onBus]
  | released => dsimp only; rw [s.freeCtx_onBus b c hx, State.retireRecord_onBus]

theorem State.stressReply_onBus (p : JackProg) (fault : Bool) (env : JackEnv) (t : JackReading) :
    (s.onBus k b).stressReply c x p fault env t = (s.stressReply c x p fault env t).onBus k b := by
  unfold State.stressReply
  cases loadEnding env t with
  | none => exact s.finishJack_onBus b c hx ..
  | some e => exact s.releaseHeld_onBus b c hx ..

theorem State.destressReply_onBus (p : JackProg) (fault : Bool) (env : JackEnv) (t : JackReading) :
    (s.onBus k b).destressReply c x p fault env t = (s.destressReply c x p fault env t).onBus k b := by
  unfold State.destressReply
  cases loadEnding env t with
  | none =>
    dsimp only
    rw [State.onBus_ite, s.releaseHeld_onBus b c hx, State.writeLiftoff_onBus, State.finishJack_onBus _ b c hx]
  | some e => exact s.releaseHeld_onBus b c hx ..

theorem State.pumpReply_onBus (p : GroutProg) (count reported : Nat) :
    (s.onBus k b).pumpReply c x p count reported = (s.pumpReply c x p count reported).onBus k b := by
  unfold State.pumpReply
  have hcls : ((s.onBus k b).recAt x.slot).bind (s.onBus k b).classOf = (s.recAt x.slot).bind s.classOf := rfl
  rw [hcls]
  cases (s.recAt x.slot).bind s.classOf with
  | none => rfl
  | some cls =>
    dsimp only
    simp only [State.putCtx_onBus, State.raise_onBus, ← State.onBus_ite]
    rw [State.releaseHeld_onBus _ b c (by exact hx), State.releaseHeld_onBus _ b c (by exact hx),
      State.toCuring_onBus _ b c (by exact hx)]
    simp only [← State.onBus_ite]
    rfl

theorem State.useReply_onBus (y : Reply) : (s.onBus k b).useReply c x y = (s.useReply c x y).onBus k b := by
  have henv : (s.onBus k b).jackEnv x = s.jackEnv x := rfl
  unfold State.useReply
  split
  · exact s.winchReply_onBus k b ..
  · exact s.pumpReply_onBus b c hx ..
  · rw [henv]
    cases s.jackEnv x with
    | none => rfl
    | some env => exact s.stressReply_onBus b c hx ..
  · rw [henv]
    cases s.jackEnv x with
    | none => rfl
    | some env => exact s.destressReply_onBus b c hx ..
  · rfl

theorem State.handToContext_onBus (y : Reply) : (s.onBus k b).handToContext c x y = (s.handToContext c x y).onBus k b := by
  have hst : (x.afterReply y.busy s.ifu.stop.isSome).station = k :=
    (congrArg (fun p => p.2.1) (Context.afterReply_bond x y.busy s.ifu.stop.isSome)).trans hx
  unfold State.handToContext
  dsimp only
  rw [State.onBus_ite, State.putCtx_onBus, ← State.useReply_onBus _ b c hst]
  rfl

end

/-! ## Handing on, on a works bus with the same stations (R57, R166) -/

/-- The station of the context that station `n` is bound to, and `n` where it is bound to none. -/
def State.partner (s : State) (n : Nat) : Nat := ((s.stationAt n).ctx.bind s.ctxAt).elim n Context.station

theorem WorkLaw.partner {s : State} (h : WorkLaw s) (n : Nat) : s.partner n = n := by
  obtain ⟨-, -, -, hbound, -⟩ := h
  unfold State.partner
  cases hc : (s.stationAt n).ctx with
  | none => rfl
  | some c =>
    obtain ⟨x, hx, hst⟩ := hbound n c hc
    rw [Option.bind_some, hx]
    exact hst

/-- Only a jack's reply is tested against an end condition (R54, R120). -/
theorem State.testParting_other (s : State) (n : Nat) {d : Telemetry} (hd : declaredKind d ≠ .jack) : s.testParting n d = s := by
  unfold State.testParting
  cases s.cxp.parting.get? n with
  | none => rfl
  | some p =>
    cases d with
    | jack => exact absurd rfl hd
    | _ => rfl

section
variable {s : State} {b : Bmu} (hb : b.stations = s.bmu.stations)
include hb

theorem State.onBus_eq (k : Nat) : s.onBus k b = { s with bmu := b } := by
  have h : s.onBus k b = { s with bmu := { b with stations := (s.onBus k s.bmu).bmu.stations } } := by
    unfold State.onBus
    rw [hb]
  rw [h, State.onBus_self, ← hb]

theorem State.stationAt_onBus (k m : Nat) : (s.onBus k b).stationAt m = s.stationAt m := by
  rw [State.onBus_eq hb, State.stationAt, State.stationAt, hb]

theorem State.testParting_onBus {k : Nat} (n : Nat) (d : Telemetry) :
    (s.onBus k b).testParting n d = (s.testParting n d).onBus k b := by
  cases d with
  | jack pressure stroke seated lifted restroking released =>
    by_cases hend : s.partingEnds n pressure
    · rw [State.testParting_ends hend, State.testParting_ends (s := s.onBus k b) hend, State.stationAt_onBus hb]
      rfl
    · rw [State.testParting_goesOn hend, State.testParting_goesOn (s := s.onBus k b) hend]
  | _ => rw [State.testParting_other _ n (by simp [declaredKind]), State.testParting_other _ n (by simp [declaredKind])]

theorem State.handOn_onBus (n : Nat) (y : Reply) :
    (s.onBus (s.partner n) b).handOn n y = (s.handOn n y).onBus (s.partner n) b := by
  unfold State.handOn
  rw [State.stationAt_onBus hb]
  cases hc : (s.stationAt n).ctx with
  | none =>
    dsimp only
    split
    · exact State.takeChannels_onBus ..
    · exact State.testParting_onBus hb n y.data
  | some c =>
    dsimp only
    have hctx : (s.onBus (s.partner n) b).ctxAt c = s.ctxAt c := rfl
    rw [hctx]
    cases hx : s.ctxAt c with
    | none => rfl
    | some x =>
      have hst : x.station = s.partner n := by rw [State.partner, hc, Option.bind_some, hx]; rfl
      exact s.handToContext_onBus b c hst y

end

end Sys2Proof.Machine
end

section
/-! A reply taken (R57, R60, R160, R166): what it leaves of the works bus, in the window of its CALL and alone. -/

namespace Sys2Proof.Machine

/-! ## The reply alone (assumption log 6) -/

/-- A works bus with the exchange, the turn and the lines of another. -/
def Bmu.framed (b o : Bmu) : Bmu := { b with exchange := o.exchange, turn := o.turn, lineA := o.lineA, lineB := o.lineB }

/-- The part with the exchange, the turn and the lines of the works bus `o`. -/
def State.framed (s : State) (o : Bmu) : State := { s with bmu := s.bmu.framed o }

theorem State.framed_onBus (s : State) (k : Nat) (b o : Bmu) : (s.onBus k b).framed o = s.onBus k (b.framed o) := rfl

theorem State.raiseMark_framed (s : State) (o : Bmu) (n : Nat) :
    (s.raiseMark (.station n) .stationFault).framed o = (s.framed o).raiseMark (.station n) .stationFault := by
  have hst : (s.framed o).stationAt n = s.stationAt n := rfl
  rw [State.raiseMark_station, State.raiseMark_station, hst]
  split
  · rfl
  · show State.framed (State.tellAt ..) o = State.tellAt ..
    unfold State.tellAt
    exact apply_ite (State.framed · o) _ _ _

theorem State.afterReply_framed (s : State) (l : LineId) (o : Bmu) : (s.afterReply l true).framed o = s.framed o := by
  unfold State.afterReply
  split <;> rfl

theorem State.faultSubject_cases (s : State) (n : Nat) :
    (∃ m, s.faultSubject n = .record m ∧ (s.stationAt n).ctx ≠ none) ∨ s.faultSubject n = .station n := by
  unfold State.faultSubject
  cases hx : (s.stationAt n).ctx.bind s.ctxAt with
  | none => exact .inr rfl
  | some x => exact .inl ⟨x.slot, rfl, fun hc => by rw [hc] at hx; cases hx⟩

/-- What a reply does to all but the exchange, the turn and the lines does not depend on these. -/
theorem State.takeReply_framed {s : State} {b : Bmu} (hb : b.framed s.bmu = s.bmu) (n : Nat) (l : LineId) (y : Reply) :
    (State.takeReply { s with bmu := b } n l y).framed s.bmu = s.takeReply n l y := by
  have hstations : b.stations = s.bmu.stations := (show (b.framed s.bmu).stations = _ by rw [hb])
  have hst : (State.stationAt { s with bmu := b } n) = s.stationAt n := congrArg (fun v => (v[n]?).getD _) hstations
  have hctx : State.ctxAt { s with bmu := b } = s.ctxAt := rfl
  have hsubject : State.faultSubject { s with bmu := b } n = s.faultSubject n := by
    rw [State.faultSubject, State.faultSubject, hst, hctx]
  unfold State.takeReply
  dsimp only
  rw [hst, hsubject]
  generalize hs0 : s.putStation n ((s.stationAt n).heard l y.data) = s0
  obtain ⟨b0, hb0, hframed, hput⟩ : ∃ b0 : Bmu, b0.stations = s0.bmu.stations ∧ b0.framed s.bmu = s0.bmu ∧
      State.putStation { s with bmu := b } n ((s.stationAt n).heard l y.data) = s0.onBus (s0.partner n) b0 := by
    refine ⟨{ b with stations := s0.bmu.stations }, rfl, ?_, ?_⟩
    · show { b.framed s.bmu with stations := s0.bmu.stations } = s0.bmu
      rw [hb, ← hs0]
      rfl
    · rw [State.onBus_eq (s := s0) (b := { b with stations := s0.bmu.stations }) rfl, ← hs0]
      unfold State.putStation
      rw [← hstations]
  have hself : (s0.handOn n y).onBus (s0.partner n) s0.bmu = s0.handOn n y := by
    rw [← State.handOn_onBus rfl, State.onBus_self]
  rw [hput, State.handOn_onBus hb0, apply_ite (State.framed · s.bmu), State.framed_onBus, hframed, hself]
  refine if_congr Iff.rfl ?_ rfl
  rcases s.faultSubject_cases n with ⟨m, hsubj, -⟩ | hsubj <;> rw [hsubj]
  · show State.framed (State.raise ..) _ = State.raise ..
    rw [State.raise_onBus, State.framed_onBus, hframed, ← State.raise_onBus, hself]
  · show State.framed (State.raiseMark ..) _ = State.raiseMark ..
    rw [State.raiseMark_framed, State.framed_onBus, hframed, hself]

/-! ## What a reply leaves of the works bus (R166) -/

/-- The entry of a station that has been heard, with its binding and its mark as the reply leaves them. -/
def Station.heardAs (x : Station) (l : LineId) (d : Telemetry) (ctx : Option Nat) (mark : Bool) : Station :=
  { x.heard l d with ctx := ctx, faultMark := mark }

theorem State.putStation_putStation (s : State) (n : Nat) (x x' : Station) :
    (s.putStation n x).putStation n x' = s.putStation n x' := by
  unfold State.putStation
  rw [Vector.setIfInBounds_setIfInBounds]

/-- A reply is handed on within the binding of its station. -/
theorem State.handOn_bus {s : State} {n : Nat} (hpartner : s.partner n = n) (y : Reply) :
    (s.handOn n y).bmu = (s.putStation n { s.stationAt n with ctx := ((s.handOn n y).stationAt n).ctx }).bmu := by
  have hself : s.handOn n y = (s.handOn n y).onBus n s.bmu := by
    have h := State.handOn_onBus (s := s) (b := s.bmu) rfl n y
    rwa [State.onBus_self, hpartner] at h
  exact (congrArg State.bmu hself).trans rfl

theorem State.putStation_bmu_congr {s t : State} (h : t.bmu = s.bmu) (n : Nat) (z : Station) :
    (t.putStation n z).bmu = (s.putStation n z).bmu := by
  unfold State.putStation
  rw [h]

theorem State.partner_heard (s : State) {n : Nat} (hn : n < 16) (l : LineId) (y : Reply) :
    (s.putStation n ((s.stationAt n).heard l y.data)).partner n = s.partner n := by
  unfold State.partner
  rw [State.stationAt_putStation_same _ _ _ hn]
  rfl

theorem State.takeReply_bus {s : State} {n : Nat} (hn : n < 16) (hpartner : s.partner n = n) (l : LineId) (y : Reply) :
    ∃ ctx mark, (s.takeReply n l y).bmu = (s.putStation n ((s.stationAt n).heardAs l y.data ctx mark)).bmu ∧
      ((s.stationAt n).ctx = none → mark = (y.fault || (s.stationAt n).faultMark)) := by
  have hbus := State.handOn_bus (s := s.putStation n ((s.stationAt n).heard l y.data)) ((s.partner_heard hn l y).trans hpartner) y
  rw [State.putStation_putStation, State.stationAt_putStation_same _ _ _ hn] at hbus
  unfold State.takeReply
  dsimp only
  generalize (s.putStation n ((s.stationAt n).heard l y.data)).handOn n y = v at hbus ⊢
  have hv (m : Nat) := State.stationAt_congr hbus m
  split
  · rcases s.faultSubject_cases n with ⟨m, hsubj, hc⟩ | hsubj <;> rw [hsubj]
    · exact ⟨_, _, (State.raise_bmu ..).trans hbus, fun hno => absurd hno hc⟩
    · have hown : v.stationAt n = (s.stationAt n).heardAs l y.data (v.stationAt n).ctx (s.stationAt n).faultMark :=
        (hv n).trans (State.stationAt_putStation_same _ _ _ hn)
      refine ⟨(v.stationAt n).ctx, true, ?_, fun _ => by rw [‹y.fault = true›]; rfl⟩
      show (v.raiseMark (.station n) .stationFault).bmu = _
      rw [State.raiseMark_station]
      split
      · next hmark =>
        rw [hown] at hmark
        rw [hbus]
        exact congrArg (fun mark => (s.putStation n ((s.stationAt n).heardAs l y.data (v.stationAt n).ctx mark)).bmu) hmark
      · rw [State.tell_bmu, State.putStation_bmu_congr hbus, State.putStation_putStation, hown]
        rfl
  · next hf => exact ⟨_, _, hbus, fun _ => by rw [Bool.eq_false_iff.2 hf]; rfl⟩

/-! ## A reply with BUSY (R57) -/

theorem Context.suspended_run (x : Context) : x.suspended.run = .suspended := by
  unfold Context.suspended
  split
  · assumption
  · rfl

/-- A reply that leaves its context SUSPENDED goes to no unit. -/
theorem State.takeReply_busy {s : State} {n c : Nat} {x : Context} (hn : n < 16) (hc : (s.stationAt n).ctx = some c)
    (hx : s.ctxAt c = some x) {y : Reply} (hbusy : y.busy = true) (l : LineId) : s.takeReply n l y =
      (((s.putStation n ((s.stationAt n).heard l y.data)).putCtx c (suspendedContext x)).raiseFaultOf y x.slot n) := by
  have hsubject : s.faultSubject n = .record x.slot := by rw [State.faultSubject, hc, Option.bind_some, hx]
  have hafter : x.afterReply y.busy (s.putStation n ((s.stationAt n).heard l y.data)).ifu.stop.isSome = x.suspended := by
    rw [Context.afterReply, if_pos hbusy]
  have hhand : (s.putStation n ((s.stationAt n).heard l y.data)).handOn n y =
      (s.putStation n ((s.stationAt n).heard l y.data)).putCtx c (suspendedContext x) := by
    have hc' : ((s.putStation n ((s.stationAt n).heard l y.data)).stationAt n).ctx = some c := by
      rw [State.stationAt_putStation_same _ _ _ hn]
      exact hc
    have hx' : (s.putStation n ((s.stationAt n).heard l y.data)).ctxAt c = some x := hx
    unfold State.handOn State.handToContext
    rw [hc']
    dsimp only
    rw [hx']
    dsimp only
    rw [hafter, if_pos x.suspended_run, Context.suspended_eq]
  unfold State.takeReply
  dsimp only
  rw [hhand, hsubject]
  rfl

/-! ## The turn (R164, R168) -/

theorem State.afterReply_bus (s : State) (l : LineId) (srq : Bool) : (s.afterReply l srq).bmu.stations = s.bmu.stations ∧
    (s.afterReply l srq).bmu.exchange = s.bmu.exchange := by
  unfold State.afterReply
  split
  · next u hu =>
    split
    · exact ⟨rfl, rfl⟩
    · exact ⟨(State.moveTurn_goesTo hu).2.stations, (State.moveTurn_goesTo hu).2.exchange⟩
  · exact ⟨rfl, rfl⟩

theorem TurnGoesTo.congr_from {s s' t : State} {n : Nat} (h : TurnGoesTo s' t n) (hturn : ∀ m, n ≤ m → (HasTurn s' m ↔ HasTurn s m)) :
    TurnGoesTo s t n := by
  obtain ⟨hnext, hend⟩ := h
  exact ⟨fun m hm hhas hnone => hnext m hm ((hturn m hm).2 hhas) fun k hk hlt => (hturn k hk).not.2 (hnone k hk hlt),
    fun hnone => hend fun m hm => (hturn m hm).not.2 (hnone m hm)⟩

theorem HasTurn.congr_at {s s' : State} {m : Nat} (hst : s'.stationAt m = s.stationAt m)
    (hlines : ∀ l, (s'.lineAt l).state = (s.lineAt l).state) : HasTurn s' m ↔ HasTurn s m := by
  simp only [HasTurn, State.usable, hst, hlines]

/-! ## The window (R160, R166) -/

/-- The part as the exchange of a successful reply ends. -/
def State.windowClosed (s : State) (l : LineId) : State := (s.setExchange .idle).putLine l (s.lineAt l).succeed

theorem State.windowClosed_stationAt (s : State) (l : LineId) (m : Nat) : (s.windowClosed l).stationAt m = s.stationAt m :=
  State.stationAt_putLine ..

theorem State.windowClosed_lineAt (s : State) (l m : LineId) : (s.windowClosed l).lineAt m =
    if m = l then (s.lineAt l).succeed else s.lineAt m := by
  rw [State.windowClosed, State.lineAt_putLine]
  cases m <;> rfl

theorem State.windowClosed_bus (s : State) (l : LineId) :
    (s.windowClosed l).bmu.exchange = .idle ∧ (s.windowClosed l).bmu.turn = s.bmu.turn ∧
      (s.windowClosed l).partner = s.partner ∧ OnlyIn [.bmu] s (s.windowClosed l) := by
  cases l <;> exact ⟨rfl, rfl, rfl, fun b hb => by cases b <;> simp_all [Block.agrees, State.windowClosed, State.putLine, State.setExchange]⟩

/-- The stations after a reply, and the exchange and the turn of its window. -/
theorem State.taken_bus {s : State} {n : Nat} (h : WorkLaw s) (hn : n < 16) (l : LineId) (y : Reply) :
    ∀ v, v = (s.windowClosed l).takeReply n l y → v.bmu.exchange = .idle ∧ v.bmu.turn = s.bmu.turn ∧
      (∀ m, v.lineAt m = if m = l then (s.lineAt l).succeed else s.lineAt m) ∧ ∃ ctx mark,
      (∀ m, v.stationAt m = if m = n then (s.stationAt n).heardAs l y.data ctx mark else s.stationAt m) ∧
      ((s.stationAt n).ctx = none → mark = (y.fault || (s.stationAt n).faultMark)) := by
  rintro v rfl
  obtain ⟨hidle, hturn, hpartner, -⟩ := s.windowClosed_bus l
  obtain ⟨ctx, mark, hbus, hmark⟩ := State.takeReply_bus (s := s.windowClosed l) hn (by rw [hpartner]; exact h.partner n) l y
  rw [State.windowClosed_stationAt] at hbus hmark
  refine ⟨by rw [hbus]; exact hidle, by rw [hbus]; exact hturn, fun m => ?_, ctx, mark, fun m => ?_, hmark⟩
  · have hline : ((s.windowClosed l).takeReply n l y).lineAt m = (s.windowClosed l).lineAt m := by
      cases m
      · exact (congrArg Bmu.lineA hbus).trans rfl
      · exact (congrArg Bmu.lineB hbus).trans rfl
    rw [hline, State.windowClosed_lineAt]
  · rw [State.stationAt_congr hbus, State.stationAt_putStation, State.windowClosed_stationAt]
    simp only [hn, and_true]

/-- The turn after a reply (R168). -/
theorem State.afterReply_turn {s v : State} {n : Nat} {l : LineId} {u : Turn} {x : Station} (hu : s.bmu.turn = some u)
    (hun : u.station = n) (hturn : v.bmu.turn = s.bmu.turn)
    (hline : ∀ m, v.lineAt m = if m = l then (s.lineAt l).succeed else s.lineAt m)
    (hst : ∀ m, v.stationAt m = if m = n then x else s.stationAt m) :
    ((v.afterReply l true).bmu.turn = some { u with fetchLine := some l } ∧
      (v.afterReply l true).lineAt l = { s.lineAt l with successes := (s.lineAt l).successes + 1 }) ∧
    TurnGoesTo s (v.afterReply l false) (n + 1) := by
  have hv : v.bmu.turn = some u := hturn.trans hu
  unfold State.afterReply
  rw [hv]
  refine ⟨⟨rfl, ?_⟩, ?_⟩
  · have hkept : (v.setTurn { u with fetchLine := some l }).lineAt l = v.lineAt l := by cases l <;> rfl
    exact hkept.trans ((hline l).trans (if_pos rfl))
  · have hgoes := (State.moveTurn_goesTo hv).1
    rw [hun] at hgoes
    refine hgoes.congr_from fun m hm => HasTurn.congr_at ((hst m).trans (if_neg (by omega))) fun k => ?_
    rw [hline]
    split
    · next hk => rw [hk]; rfl
    · rfl

/-- A reply with BUSY in its window: its context is SUSPENDED, and no unit is asked (R57). -/
theorem State.taken_busy {s : State} {n c : Nat} {x : Context} {y : Reply} (hn : n < 16) (hc : (s.stationAt n).ctx = some c)
    (hx : s.ctxAt c = some x) (hbusy : y.busy = true) (l : LineId) :
    ∀ t, t = ((s.windowClosed l).takeReply n l y).afterReply l y.srq →
      t.ctxAt c = some (suspendedContext x) ∧ (∀ d, d ≠ c → t.ctxAt d = s.ctxAt d) ∧ t.cxp.parting = s.cxp.parting ∧
        (y.fault = false → OnlyIn [.bmu, .cxp, .atu] s t) := by
  rintro t rfl
  obtain ⟨-, -, -, hclosed⟩ := s.windowClosed_bus l
  have hcxp0 : (s.windowClosed l).cxp = s.cxp := hclosed .cxp (by decide)
  have hx' : (s.windowClosed l).ctxAt c = some x := by rw [State.ctxAt, hcxp0]; exact hx
  have hc' : ((s.windowClosed l).stationAt n).ctx = some c := by rw [State.windowClosed_stationAt]; exact hc
  rw [State.takeReply_busy hn hc' hx' hbusy]
  generalize hw : ((s.windowClosed l).putStation n (((s.windowClosed l).stationAt n).heard l y.data)).putCtx c
    (suspendedContext x) = w
  have hwcxp : w.cxp = (s.putCtx c (suspendedContext x)).cxp := by
    rw [← hw, State.putCtx, State.putCtx, ← hcxp0]
    rfl
  have hwonly : OnlyIn [.bmu, .cxp] (s.windowClosed l) w := fun b hb => by
    subst hw
    cases b <;> simp_all [Block.agrees]
  obtain ⟨hraised, -, -⟩ := w.raiseWhen_kept x.slot n .stationFault y.fault
  have hafter := (w.raiseFaultOf y x.slot n).afterReply_onlyIn l y.srq
  have hcxp : ((w.raiseFaultOf y x.slot n).afterReply l y.srq).cxp = (s.putCtx c (suspendedContext x)).cxp :=
    (hafter .cxp (by decide)).trans (hraised.trans hwcxp)
  have hctx (d : Nat) : ((w.raiseFaultOf y x.slot n).afterReply l y.srq).ctxAt d = (s.putCtx c (suspendedContext x)).ctxAt d := by
    rw [State.ctxAt, hcxp]
    rfl
  refine ⟨(hctx c).trans (State.ctxAt_putCtx_same _ _ _), fun d hd => (hctx d).trans (State.ctxAt_putCtx_ne _ _ _ _ hd),
    by rw [hcxp]; rfl, fun hf => ?_⟩
  have hquiet : w.raiseFaultOf y x.slot n = w := by rw [State.raiseFaultOf, hf, if_neg nofun]
  rw [hquiet] at hafter ⊢
  exact (hclosed.mono (by decide)).trans ((hwonly.mono (by decide)).trans (hafter.mono (by decide)))

theorem State.takeReply_onlyIn (s : State) (n : Nat) (l : LineId) (y : Reply) :
    OnlyIn [.tbc, .cxp, .channels, .isi, .atu, .bmu] s (s.takeReply n l y) := fun b hb => by
  cases b <;> simp_all [Block.agrees]

theorem replyError_none_iff (x : Station) (d : Telemetry) : replyError x d = none ↔
    declaredKind d = x.kind ∧ ∀ chs, d = .monitor chs → chs.length = x.param.getD 0 := by
  unfold replyError
  by_cases hk : declaredKind d = x.kind
  · cases d with
    | monitor chs => simp [hk, lengthFits]
    | _ => simp [hk, lengthFits]
  · simp [hk]

/-- A misfit in the window of its station's CALL is the frame that fails (R160). -/
theorem execReply_window_misfit {s : State} {n : Nat} {l : LineId} {y : Reply} {e : FrameError} (hup : s.busUp = true)
    (hx : s.bmu.exchange = .call n l) (herr : replyError (s.stationAt n) y.data = some e) :
    exec (.replyReceived n l y) s = exec (.badFrame e) s := by
  show execReplyReceived n l y s = .next (s.windowFailed e)
  simp [execReplyReceived, hup, hx, State.replyInWindow, herr]

/-- A reply alone is the reply in its window, but for the turn and the lines. -/
theorem State.takeReply_alone (s : State) (hidle : s.bmu.exchange = .idle) (u : Turn) (n : Nat) (l : LineId) (y : Reply) :
    ∀ w t : State, w = { s with bmu := { s.bmu with exchange := .call n l, turn := some u } } →
      t = ((w.windowClosed l).takeReply n l { y with srq := true }).afterReply l true →
      s.takeReply n l y = { t with bmu := { t.bmu with
        exchange := .idle, turn := s.bmu.turn, lineA := s.bmu.lineA, lineB := s.bmu.lineB } } := by
  intro w t hw ht
  have hclosed : w.windowClosed l = { s with bmu := (w.windowClosed l).bmu } := by subst hw; cases l <;> rfl
  have hframed : (w.windowClosed l).bmu.framed s.bmu = s.bmu := by subst hw; cases l <;> rfl
  have hsame : (w.windowClosed l).takeReply n l { y with srq := true } = (w.windowClosed l).takeReply n l y := rfl
  calc s.takeReply n l y = ((w.windowClosed l).takeReply n l y).framed s.bmu := by
        rw [hclosed]; exact (State.takeReply_framed hframed n l y).symm
    _ = t.framed s.bmu := by rw [ht, State.afterReply_framed, hsame]
    _ = _ := by rw [State.framed, Bmu.framed, hidle]

/-- Settles O42: a good reply in its window, a misfit, a reply out of its window, and one with no exchange in progress. -/
theorem replyMakesTheStationPresent : Obligations.ReplyMakesTheStationPresent := by
  refine ⟨fun n l y s u h hn hup hx hu hun => ⟨fun hkind hlen => ?_, fun hkind => ?_, fun chs hmonitor hdata hlen => ?_⟩,
    fun n m l y s => ⟨fun hup hx => ?_, fun hx => ?_, fun hup hidle fits hfits => ⟨fun hno => ?_, fun u w hw hfit => ?_⟩⟩⟩
  · have hfit : replyError (s.stationAt n) y.data = none := (replyError_none_iff _ _).2 ⟨hkind, hlen⟩
    obtain ⟨hidle, hturn, hline, ctx, mark, hst, hmark⟩ := State.taken_bus h hn l y _ rfl
    obtain ⟨hnext, hends⟩ := State.afterReply_turn hu hun hturn hline hst
    obtain ⟨hstations, hexchange⟩ := ((s.windowClosed l).takeReply n l y).afterReply_bus l y.srq
    obtain ⟨-, -, -, hclosed⟩ := s.windowClosed_bus l
    have honly := (hclosed.mono (more := [.tbc, .cxp, .channels, .isi, .atu, .bmu]) (by decide)).trans
      (((s.windowClosed l).takeReply_onlyIn n l y).trans
        ((((s.windowClosed l).takeReply n l y).afterReply_onlyIn l y.srq).mono (by decide)))
    have hst' (m : Nat) : (((s.windowClosed l).takeReply n l y).afterReply l y.srq).stationAt m =
        if m = n then (s.stationAt n).heardAs l y.data ctx mark else s.stationAt m := by
      rw [State.stationAt, hstations]
      exact hst m
    have hself := (hst' n).trans (if_pos rfl)
    have hbusy (c : Nat) (x : Context) (hc : (s.stationAt n).ctx = some c) (hx : s.ctxAt c = some x) (hb : y.busy = true) :=
      State.taken_busy hn hc hx hb l _ rfl
    refine ⟨((s.windowClosed l).takeReply n l y).afterReply l y.srq, execReply_window hup hx hfit, hexchange.trans hidle,
      by rw [hself]; rfl, by rw [hself]; rfl, by rw [hself]; rfl, by rw [hself]; rfl, by rw [hself]; rfl, by rw [hself]; rfl,
      fun m hm => ?_, fun hsrq => by rw [hsrq]; exact hnext, fun hsrq => by rw [hsrq]; exact hends,
      fun hfree => by rw [hself]; exact hmark hfree, hbusy, honly .wck (by decide), honly .cals (by decide),
      honly .ifu (by decide), honly .sys (by decide), honly .pending (by decide)⟩
    rw [hst', if_neg hm]
    exact ⟨rfl, rfl⟩
  · have herr : replyError (s.stationAt n) y.data = some .kind := if_pos hkind
    rw [execReply_window_misfit hup hx herr]
  · have herr : replyError (s.stationAt n) y.data = some .check := by
      simp [replyError, hdata, declaredKind, hmonitor, lengthFits, hlen]
    rw [execReply_window_misfit hup hx herr]
  · show execReplyReceived n l y s = .next (s.windowFailed .check)
    rcases hx with ⟨hx, hm⟩ | hx
    · simp [execReplyReceived, hup, hx, hm]
    · simp [execReplyReceived, hup, hx]
  · show execReplyReceived n l y s = _
    have hline : otherLine l ≠ l := by cases l <;> decide
    rcases hx with hx | hx | hdown | ⟨h, a, after, hx⟩
    · simp [execReplyReceived, hx, hline]
    · simp [execReplyReceived, hx, hline]
    · simp [execReplyReceived, hdown]
    · simp [execReplyReceived, hx]
  · have halone : s.replyAlone n l y = s := by
      unfold State.replyAlone
      split
      · rfl
      · next hfit =>
        obtain ⟨hkind, hlen⟩ := (replyError_none_iff _ _).1 hfit
        refine if_neg fun hmay => hno (hfits.2 ?_)
        obtain ⟨hused, husable⟩ := (mayCall_iff s n l).1 hmay
        exact ⟨hused, husable, hkind, hlen⟩
    show execReplyReceived n l y s = _
    simp [execReplyReceived, hup, hidle, halone]
  · obtain ⟨hused, husable, hkind, hlen⟩ := hfits.1 hfit
    have herr : replyError (s.stationAt n) y.data = none := (replyError_none_iff _ _).2 ⟨hkind, hlen⟩
    have halone : exec (.replyReceived n l y) s = .next (s.takeReply n l y) := by
      show execReplyReceived n l y s = _
      simp [execReplyReceived, hup, hidle, State.replyAlone, herr, (mayCall_iff s n l).2 ⟨hused, husable⟩]
    subst hw
    exact ⟨_, execReply_window (s := { s with bmu := { s.bmu with exchange := .call n l, turn := some u } })
      (y := { y with srq := true }) hup rfl herr, halone.trans (congrArg Host.Outcome.next (s.takeReply_alone hidle u n l y _ _ rfl rfl))⟩

end Sys2Proof.Machine
end
